-- ==== Sys2Proof/Word.lean ====
section
/-!
DEFINITION. The machine's word and byte types and the finite names its commands use.
-/
namespace Sys2Proof

/-- A register or payload word (R6). -/
abbrev Word := BitVec 32

/-- A byte of a frame, a record or the flash. -/
abbrev Byte := BitVec 8

/-- The two fibres (R1); index 0 is A and 1 is B, as in the register copies of R663. -/
inductive Fibre where
  | a | b
deriving DecidableEq, Repr

/-- The register-copy index of a fibre. -/
def Fibre.idx : Fibre → Nat
  | .a => 0
  | .b => 1

/-- The other fibre. -/
def Fibre.other : Fibre → Fibre
  | .a => .b
  | .b => .a

/-- The two network ports NET0 and NET1 (R1). -/
inductive NetPort where
  | net0 | net1
deriving DecidableEq, Repr

/-- The register-copy index of a port. -/
def NetPort.idx : NetPort → Nat
  | .net0 => 0
  | .net1 => 1

/-- A pair of like things, one per fibre, port, compressor or converter. -/
structure Two (α : Type) where
  a : α
  b : α
deriving DecidableEq, Repr

/-- The member at index 0 or 1. -/
def Two.at {α : Type} (t : Two α) (i : Nat) : α := if i = 0 then t.a else t.b

/-- Replace the member at index 0 or 1. -/
def Two.upd {α : Type} (t : Two α) (i : Nat) (v : α) : Two α :=
  if i = 0 then { t with a := v } else { t with b := v }

end Sys2Proof
end

