-- ==== Sys2Proof/Syntax.lean ====
section
/-!
DEFINITION. The commands of the block, one constructor per row of the opcode table, and the operand types that carry
what reaches the block from outside: bus data, measured values, samples and messages.
-/
namespace Sys2Proof

/-! ## Lane instruction formats (R290)

Each structure holds the operand fields of one format as the encoding lays them out; signed fields are integers. -/

/-- Format M: multiply group. -/
structure FmtM where
  src : Nat
  sb : Nat
  acd : Nat
  pa : Nat
  ma : Nat
  pb : Nat
  mb : Nat
  cp : Nat
  mc : Nat
deriving DecidableEq, Repr

/-- Format A: accumulator group. -/
structure FmtA where
  acd : Nat
  acs : Nat
  sh : Int
  mem : Nat
  pt : Nat
  mod : Nat
  d : Nat
  mask : Nat
deriving DecidableEq, Repr

/-- Format L: loads and stores. -/
structure FmtL where
  d : Nat
  pt : Nat
  mod : Nat
deriving DecidableEq, Repr

/-- Format R: register arithmetic and logic. -/
structure FmtR where
  dd : Nat
  da : Nat
  db : Nat
  i : Nat
  shi : Int
deriving DecidableEq, Repr

/-- Format I: immediates. -/
structure FmtI where
  dd : Nat
  da : Nat
  imm : Int
deriving DecidableEq, Repr

/-- Format P: pointers and offsets. -/
structure FmtP where
  reg : Nat
  imm : Int
deriving DecidableEq, Repr

/-- Format S: special registers. -/
structure FmtS where
  dir : Nat
  d : Nat
  sreg : Nat
deriving DecidableEq, Repr

/-- Format B: branches. -/
structure FmtB where
  cond : Nat
  tgt : Nat
deriving DecidableEq, Repr

/-- Format LP: loops. -/
structure FmtLP where
  cs : Nat
  cnt : Nat
  da : Nat
  last : Nat
deriving DecidableEq, Repr

/-- Format T: streams. -/
structure FmtT where
  port : Nat
  memop : Nat
  mem : Nat
  pt : Nat
  mod : Nat
  d : Nat
deriving DecidableEq, Repr

/-! ## What the environment measures -/

/-- What a calibration of a slice measures (R156): offset in 1/16 code, skew in 0.5 ps, die temperature in 0.1 °C, and for each
gain code the magnitude in 2^-15 and the delay in 0.25 ps. -/
structure SliceCoefs where
  ofs : Int
  skew : Int
  temp : Int
  mags : List Int
  delays : List Int
deriving DecidableEq, Repr

/-- A pair of reference samples REF_I and REF_Q, with the OR of their OVR bits (R186, R188). -/
structure RefSample where
  i : Int
  q : Int
  ovr : Bool
deriving DecidableEq, Repr

/-- A slice's word for a coherent function (R140): the 14-bit code, OVR, the gain code in force and STEP. -/
structure SliceWord where
  code : Int
  ovr : Bool
  gain : Nat
  step : Bool
deriving DecidableEq, Repr

/-- The words of the four coherent functions of a fibre at one sampling instant (R140): XI, XQ, YI and YQ. -/
structure FrontWord where
  xi : SliceWord
  xq : SliceWord
  yi : SliceWord
  yq : SliceWord
deriving DecidableEq, Repr

/-- The words of a fibre's AS and ST functions at one point of a Raman trace (R207, R312): codes and OVR bits. -/
structure RamanWord where
  as_ : Int
  st : Int
  ovrAs : Bool
  ovrSt : Bool
deriving DecidableEq, Repr

/-- What both housekeeping converters deliver for one conversion (R343, R346, R355): codes of the serving and the idle one before their
correction, their OVR, and whether the input lay beyond its clamp. -/
structure ConvData where
  code : Int
  ovr : Bool
  idle : Int
  idleOvr : Bool
  clamp : Bool
deriving DecidableEq, Repr

/-! ## What arrives on a network port -/

/-- An MKPDU as the supervisor's MKA takes it (R472): whether its CKN and ICV hold, the sender's key server priority and SCI, and a
SAK it distributes with its association number. -/
structure MkaMsg where
  valid : Bool
  priority : Nat
  sci : Nat
  sak : Option (Nat × Nat)
deriving DecidableEq, Repr

/-- An ARP or neighbour discovery message (R476): an answer (reply or advertisement) or a request, the sender's address and MAC, and
the address asked for. -/
structure AddrMsg where
  answer : Bool
  sender : Nat
  mac : Nat
  target : Nat
deriving DecidableEq, Repr

/-- An echo request (R476). -/
structure EchoMsg where
  v6 : Bool
  src : Nat
  payload : List Byte
deriving DecidableEq, Repr

/-- The kinds of PTP message that the ordinary clock of R489 takes: Announce with the master's data in comparison order and its
interval, Sync with origin time and correction in ns and its interval, Follow_Up, and Delay_Resp with the master's receive time and
logMinDelayReqInterval. -/
inductive PtpKind where
  | announce (rank : Nat) (interval : Int)
  | sync (twoStep : Bool) (origin corr interval : Int)
  | followUp (origin corr : Int)
  | delayResp (rx corr : Int) (interval : Int)
  | other
deriving DecidableEq, Repr

/-- A PTP message (R489, R490): transport, domain, sender, sequence number and the hardware timestamp of its arrival in ns. -/
structure PtpMsg where
  transport : Nat
  domain : Nat
  sender : Nat
  seq : Nat
  at_ : Int
  kind : PtpKind
deriving DecidableEq, Repr

/-- A SecTAG as received (R471, R474): association number, packet number, and whether the ICV holds. -/
structure RxSec where
  an : Nat
  pn : Nat
  icv : Bool
deriving DecidableEq, Repr

/-- What a received frame carries (R470). `clean` says that an IP packet has no options, fragments or extension headers; `sum` is 0
for a UDP checksum of 0, 1 for a right one and 2 for a wrong one. -/
inductive RxBody where
  | pause
  | mka (m : MkaMsg)
  | arp (m : AddrMsg)
  | neighbour (m : AddrMsg)
  | echo (clean : Bool) (dst : Nat) (m : EchoMsg)
  | udp (v6 clean : Bool) (src dst sport dport sum : Nat) (payload : List Byte)
  | ptp (clean : Bool) (sum : Nat) (m : PtpMsg)
  | other
deriving DecidableEq, Repr

/-- A received frame (R469): FCS right, length in bytes without the headers that the MTU does not count, VLAN tag and SecTAG. -/
structure RxFrame where
  fcs : Bool
  len : Nat
  vid : Option Nat
  sec : Option RxSec
  body : RxBody
deriving DecidableEq, Repr

/-- Who asks the Ground's arbiter for quanta (R420): replay record reads and writes of a fibre, the front pipeline writer, the transmitter
of a port, the writers of B127, B125 and B126, the alarm unit, port `k` of a logical lane (inputs 0–3, outputs 4–7), a compressor, the
recall export, the supervisor's reads, the scrub, the staging of calibration store and event log, and the upkeep of the page table. -/
inductive Requester where
  | replayRead (x : Fibre)
  | front
  | replayWrite (x : Fibre)
  | transmit (port : Nat)
  | health
  | index
  | mgmt
  | alarm
  | lanePort (ll k : Nat)
  | comp (n : Nat)
  | export_
  | supervisor
  | scrub
  | staging
  | upkeep
deriving DecidableEq, Repr

/-- An error of a lane's hardware (R278, R295): a product or sum whose residue does not match, a memory pair read or scrubbed with two
bits wrong or with one, and a bit of an accumulator's register that flips. -/
inductive LaneError where
  | resid
  | double
  | single
  | upset (acc : Fin 4) (bit : Fin 56)
deriving DecidableEq, Repr

/-- The commands and events of the block: one constructor for each row of the opcode table. -/
inductive Instr where
  /-- REGISTER_WRITE (R8). A control-bus write to a register that has no row of its own, including W1C clears, checked against access, runtime-writability and range. -/
  | registerWrite (a : Nat) (w : Word) (auth : Option (Fin 4))
  /-- RC_READ (R8). A read of a register with an RC field returns the value and clears the field to 0. -/
  | rcRead (a : Nat)
  /-- HOLDING_READ (R11). A read of the lower word of a 64-bit quantity copies the upper word into the shared holding register. -/
  | holdingRead (a : Nat)
  /-- CLK_TB_SET (R53). CLK_TB_CMD.SET loads CLK_TB_SET_HI:LO as the nanosecond count, or is refused under PTP. -/
  | clkTbSet
  /-- CLK_TB_STEP (R48). CLK_TB_CMD.STEP adds CLK_TB_STEP_NS to the timebase on the next TIME clock, or is refused while disciplined. -/
  | clkTbStep
  /-- CAPTURE (R54). CLK_TB_CMD.CAPTURE copies the timebase into the three capture registers. -/
  | capture
  /-- SERVO_HOLDOVER (R46). No valid update for the holdover time sets STATE to HOLDOVER and freezes RATE. -/
  | servoHoldover
  /-- PPS_IN_EDGE (R47). A selected PPS_IN edge is timestamped, accepted or rejected, and feeds the servo. -/
  | ppsInEdge (rising : Bool) (sub : Nat)
  /-- PPS_OUT_RISE (R50). The timebase passes a whole second by ordinary advance and PPS_OUT rises. -/
  | ppsOutRise
  /-- PPS_OUT_FALL (R50). PPS_WIDTH ms after its rise, PPS_OUT falls. -/
  | ppsOutFall
  /-- NET_PLL_LOCK_LOST (R41). Loss of NET PLL lock takes both links down and raises a health event. -/
  | netPllLockLost
  /-- START (R494). Management command START runs the geometry and limit checks of each named idle fibre and starts those that pass, or holds them during a drain. -/
  | start
  /-- STOP (R79). Management command STOP ends a fibre's acquisition at its next round boundary and discards pending plans and profiles. -/
  | stop
  /-- ROUND_BOUNDARY (R35). A fibre's round boundary t_B(r) arrives and ROUND_x is published to its consumers. -/
  | roundBoundary (x : Fibre) (refs : List RefSample) (dark : List FrontWord) (sq : Nat) (count : Nat)
  /-- SLOT_PERMIT_EVAL (R77). 64 ns before a slot's earliest edge the emission permit is evaluated and the slot is launched or made dark. -/
  | slotPermitEval (x : Fibre)
  /-- LAUNCH (R18). A shot is launched at its slot instant, timestamped, numbered and published as LAUNCH_x. -/
  | launch (x : Fibre)
  /-- RAMAN_TRIGGER (R73). In a Raman round TRIG_x rises at t_RL for W_R and TRIG_x is published. -/
  | ramanTrigger (x : Fibre)
  /-- GAIN_STEP (R144). At a profile entry's slice-input time the coherent gain changes and the sample carries STEP. -/
  | gainStep (x : Fibre)
  /-- SHOT_STAGE_GO (R84). SHOT_STAGE.GO submits the shadow plan and sets PEND. -/
  | shotStageGo (x : Fibre)
  /-- STAGE_CHECK_COMPLETE (R84). Within 2 µs the staged plan is checked and accepted or refused with CODE. -/
  | stageCheckComplete (x : Fibre)
  /-- PLAN_ADOPT (R86). An accepted or re-planned plan's first round starts at t′ after any held interval. -/
  | planAdopt (x : Fibre) (sq : Nat) (count : Nat)
  /-- EMIT_EN_LOW (R101). EMIT_EN low forces gates, triggers and DRVn low and restarts the EMIT_IN filter. -/
  | emitEnLow (ns : Nat)
  /-- EMIT_FILTER_EXPIRE (R102). After 10 ms of uninterrupted high EMIT_EN, EMIT_IN becomes 1 and EMIT faults may clear. -/
  | emitFilterExpire
  /-- SRC_REARM (R102). SRC_EMIT.REARM clears LATCHED, or is refused while EMIT_IN is 0. -/
  | srcRearm
  /-- SRC_SET_WRITE (R111). A write to SRC_SET_n stages a setpoint and sets STAGED, or returns BUSY while a batch is pending. -/
  | srcSetWrite (n : Fin 8) (w : Word)
  /-- SRC_FADE_WRITE (R111). A write to SRC_FADE_n stages fade settings and sets STAGED, or returns BUSY while a batch is pending. -/
  | srcFadeWrite (n : Fin 8) (w : Word)
  /-- SYNC_GO (R112). SRC_SYNC.GO schedules a SYNC tick on the second TIME edge after the write. -/
  | syncGo (rndsel : Fin 4)
  /-- SYNC_ARMRND (R112). SRC_SYNC.ARMRND schedules a SYNC tick at the next ROUND edge of RNDSEL. -/
  | syncArmrnd (rndsel : Fin 4)
  /-- SYNC_TICK (R111). At the SYNC tick every STAGED channel copies its shadow to live and starts its fade, or the batch is deferred for seed-first. -/
  | syncTick
  /-- REGULATOR_UPDATE (R107). Every 1 µs each source channel recomputes its present value from fade, ceilings and rise limits. -/
  | regulatorUpdate
  /-- SEED_LOSS (R119). No shot on a seed fibre for SEEDLOSS µs unseeds the channel and fades it to IDLE. -/
  | seedLoss (n : Fin 8)
  /-- OVERCUR (R124). Sense current at or above OCLIM clamps DRVn and latches the fault in its group. -/
  | overcur (n : Fin 8) (sense : Nat)
  /-- SHORT (R124). The SHORT condition held for 10 µs latches the fault and drives DRVn low. -/
  | short (n : Fin 8) (sense : Nat)
  /-- OPEN (R124). The OPEN condition held for 100 µs latches the fault and drives DRVn low. -/
  | open (n : Fin 8) (drive : Nat) (sense : Nat)
  /-- GROUP_REARM (R128). A bit of SRC_GRP_CMD.REARM clears the group's shut state and member faults. -/
  | groupRearm (mask : Fin 16)
  /-- LAUNCH_ENERGY_EVAL (R125). When a round's last DAS shot's point 200 leaves the pipeline the round is judged low or not and the baseline updated. -/
  | launchEnergyEval (x : Fibre) (refs : List RefSample) (first : Int) (shots : List (List FrontWord))
  /-- RAMAN_ROUND_EVAL (R127). When a Raman trace's dark level is formed the Raman round is judged and its baseline updated. -/
  | ramanRoundEval (x : Fibre)
  /-- SHOT_RECORD_COMPLETE (R206). A shot record with its metrics and flags is delivered to the commit logic. -/
  | shotRecordComplete (x : Fibre) (refs : List RefSample) (first : Int) (ws : List FrontWord)
  /-- SLC_PROF_WRITE (R148). A write to SLC_PROF_x_k stages a profile entry, or returns BUSY while a profile is pending. -/
  | slcProfWrite (x : Fibre) (k : Fin 8) (w : Word)
  /-- SLC_PSTAGE_GO (R149). SLC_PSTAGE.GO submits the shadow profile and sets PEND. -/
  | slcPstageGo (x : Fibre)
  /-- PROFILE_CHECK_COMPLETE (R149). Within 2 µs the staged profile is checked and accepted for the next boundary or refused. -/
  | profileCheckComplete (x : Fibre)
  /-- OVRLONG (R155). OVR on 65,536 consecutive samples sets OVRLONG and raises a health event. -/
  | ovrlong (n : Fin 15)
  /-- SLICE_CAL_START (R166). SLC_CAL_CMD.START requests a calibration episode of a slice, settled per R168. -/
  | sliceCalStart (n : Fin 16) (keep : Bool) (intr : Bool)
  /-- SLICE_CAL_ABORT (R169). SLC_CAL_CMD.ABORT ends or shortens the running episode according to its phase. -/
  | sliceCalAbort
  /-- SLICE_CAL_COMPLETE (R166). A 20 ms slice calibration ends, passing or fencing the slice. -/
  | sliceCalComplete (m : SliceCoefs)
  /-- AUTOCAL_REQUEST (R164). The supervisor requests a calibration of a slice whose temperature or age exceeds its limit. -/
  | autocalRequest (n : Fin 15) (temp : Int)
  /-- SLICE_FAULT (R173). A STUCK, CLKF or REFF fault is declared and the spare takes the function. -/
  | sliceFault (n : Fin 15) (kind : Nat) (ago : Nat)
  /-- CORDONNET_LOCK_LOST (R188). A reference sample meets a loss condition and Cordonnet lock becomes false. -/
  | cordonnetLockLost (refs : List RefSample)
  /-- CORDONNET_LOCK_REGAINED (R188). After 1,024 clean reference samples Cordonnet lock is regained. -/
  | cordonnetLockRegained (refs : List RefSample)
  /-- CHANNEL_SAMPLE_EMIT (R201). A channel's stitched sample of a shot leaves stage 9 and enters its filter chains speculatively. -/
  | channelSampleEmit (x : Fibre) (c : Nat) (refs : List RefSample) (first : Int) (ws : List FrontWord)
  /-- RAMAN_TRACE_COMPLETE (R207). A Raman trace is dark-corrected and binned, and added to the period once its verdict is good. -/
  | ramanTraceComplete (x : Fibre) (ws : List RamanWord)
  /-- VERDICT (R218). A bad input becomes known or a shot's inputs complete and the shot is judged. -/
  | verdict (x : Fibre)
  /-- REPLAY_COMPLETE (R226). The replay reaches the newest entry and live processing resumes. -/
  | replayComplete (x : Fibre)
  /-- DRAIN_COMPLETE (R237). A stopped fibre's commit logic finishes its outstanding rounds and becomes IDLE. -/
  | drainComplete (x : Fibre)
  /-- LANE_RELEASE (R234). A lane output whose inputs are committed and replayed is released to its bobbin. -/
  | laneRelease (ll : Fin 32)
  /-- FLT_DSCFG_WRITE (R266). A write to FLT_DSCFGj is checked and takes effect at a round boundary, after a drain or at once. -/
  | fltDscfgWrite (x : Fibre) (j : Fin 2) (w : Word)
  /-- FLT_AUX_CFG_WRITE (R266). A write to FLT_AUX_CFG reconfigures the selected auxiliary chain at its next input. -/
  | fltAuxCfgWrite (k : Fin 64) (w : Word)
  /-- FRP_CFG_WRITE (R208). A write of FTH, FABS or STSH takes effect at the fibre's next round boundary. -/
  | frpCfgWrite (x : Fibre) (w : Word)
  /-- NOP (R291). Lane instruction NOP does nothing for one cycle. -/
  | nop (n : Fin 33)
  /-- BMAC (R291). Lane broadcast multiply-accumulate into AC0–AC3. -/
  | bmac (n : Fin 33) (f : FmtM)
  /-- BMSU (R291). Lane broadcast multiply-subtract into AC0–AC3. -/
  | bmsu (n : Fin 33) (f : FmtM)
  /-- BMPY (R291). Lane broadcast multiply assigning AC0–AC3. -/
  | bmpy (n : Fin 33) (f : FmtM)
  /-- CMAC (R291). Lane complex multiply-accumulate of an X pair and a Y pair. -/
  | cmac (n : Fin 33) (f : FmtM)
  /-- CMPY (R291). Lane complex multiply assigning the four partial products. -/
  | cmpy (n : Fin 33) (f : FmtM)
  /-- SMAC (R291). Lane single multiply-accumulate into one accumulator. -/
  | smac (n : Fin 33) (f : FmtM)
  /-- SMSU (R291). Lane single multiply-subtract from one accumulator. -/
  | smsu (n : Fin 33) (f : FmtM)
  /-- SMPY (R291). Lane single multiply assigning one accumulator. -/
  | smpy (n : Fin 33) (f : FmtM)
  /-- SQAC (R291). Lane square-accumulate into one accumulator. -/
  | sqac (n : Fin 33) (f : FmtM)
  /-- CLRA (R291). Lane instruction clears the masked accumulators. -/
  | clra (n : Fin 33) (f : FmtA)
  /-- ADDA (R291). Lane instruction adds one accumulator to another with saturation. -/
  | adda (n : Fin 33) (f : FmtA)
  /-- SUBA (R291). Lane instruction subtracts one accumulator from another with saturation. -/
  | suba (n : Fin 33) (f : FmtA)
  /-- SHA (R291). Lane instruction shifts an accumulator with rounding and saturation. -/
  | sha (n : Fin 33) (f : FmtA)
  /-- STA (R291). Lane instruction stores a scaled accumulator to X or Y memory. -/
  | sta (n : Fin 33) (f : FmtA)
  /-- MVA (R291). Lane instruction moves a scaled accumulator to a data register. -/
  | mva (n : Fin 33) (f : FmtA)
  /-- LDA (R291). Lane instruction loads an accumulator from a scaled data register. -/
  | lda (n : Fin 33) (f : FmtA)
  /-- MAXA (R291). Lane instruction takes the maximum of two accumulators. -/
  | maxa (n : Fin 33) (f : FmtA)
  /-- LDX (R291). Lane instruction loads a data register from X memory. -/
  | ldx (n : Fin 33) (f : FmtL)
  /-- LDY (R291). Lane instruction loads a data register from Y memory. -/
  | ldy (n : Fin 33) (f : FmtL)
  /-- LDC (R291). Lane instruction loads a data register from coefficient memory. -/
  | ldc (n : Fin 33) (f : FmtL)
  /-- STX (R291). Lane instruction stores a data register to X memory. -/
  | stx (n : Fin 33) (f : FmtL)
  /-- STY (R291). Lane instruction stores a data register to Y memory. -/
  | sty (n : Fin 33) (f : FmtL)
  /-- LDI (R291). Lane instruction loads a sign-extended 20-bit immediate. -/
  | ldi (n : Fin 33) (f : FmtI)
  /-- LDHI (R291). Lane instruction loads the upper 16 bits of a data register. -/
  | ldhi (n : Fin 33) (f : FmtI)
  /-- MOV (R291). Lane instruction copies one data register to another. -/
  | mov (n : Fin 33) (f : FmtR)
  /-- MOVS (R291). Lane instruction moves between a data register and a special register. -/
  | movs (n : Fin 33) (f : FmtS)
  /-- SETP (R291). Lane instruction sets a pointer or offset register. -/
  | setp (n : Fin 33) (f : FmtP)
  /-- ADDP (R291). Lane instruction post-modifies a pointer or adds to an offset. -/
  | addp (n : Fin 33) (f : FmtP)
  /-- ADD (R291). Lane instruction adds two data registers. -/
  | add (n : Fin 33) (f : FmtR)
  /-- SUB (R291). Lane instruction subtracts two data registers. -/
  | sub (n : Fin 33) (f : FmtR)
  /-- AND (R291). Lane instruction bitwise AND of two data registers. -/
  | and (n : Fin 33) (f : FmtR)
  /-- OR (R291). Lane instruction bitwise OR of two data registers. -/
  | or (n : Fin 33) (f : FmtR)
  /-- XOR (R291). Lane instruction bitwise XOR of two data registers. -/
  | xor (n : Fin 33) (f : FmtR)
  /-- ASH (R291). Lane instruction arithmetic shift of a data register. -/
  | ash (n : Fin 33) (f : FmtR)
  /-- LSH (R291). Lane instruction logical shift of a data register. -/
  | lsh (n : Fin 33) (f : FmtR)
  /-- CMP (R291). Lane instruction sets flags from a register difference. -/
  | cmp (n : Fin 33) (f : FmtR)
  /-- ABS (R291). Lane instruction saturating absolute value. -/
  | abs (n : Fin 33) (f : FmtR)
  /-- MIN (R291). Lane instruction signed minimum of two registers. -/
  | min (n : Fin 33) (f : FmtR)
  /-- MAX (R291). Lane instruction signed maximum of two registers. -/
  | max (n : Fin 33) (f : FmtR)
  /-- ADDI (R291). Lane instruction adds a sign-extended immediate. -/
  | addi (n : Fin 33) (f : FmtI)
  /-- CMPI (R291). Lane instruction sets flags from a register minus an immediate. -/
  | cmpi (n : Fin 33) (f : FmtI)
  /-- BR (R291). Lane conditional branch, ending any loop it leaves. -/
  | br (n : Fin 33) (f : FmtB)
  /-- CALL (R291). Lane call pushes the return address, or traps with STACK when full. -/
  | call (n : Fin 33) (f : FmtB)
  /-- RET (R291). Lane return pops the return address, or traps with STACK when empty. -/
  | ret (n : Fin 33) (f : FmtB)
  /-- LOOP (R291). Lane hardware loop over a body, cached when short, trapping with NEST at a third level. -/
  | loop (n : Fin 33) (f : FmtLP)
  /-- SRD (R288). Lane stream read of the next payload word of an input port. -/
  | srd (n : Fin 33) (f : FmtT)
  /-- SWR (R289). Lane stream write appends a word to an output record, trapping with OREC beyond 16,380. -/
  | swr (n : Fin 33) (f : FmtT)
  /-- SHDR (R288). Lane waits for the next readable record of a port and loads its header. -/
  | shdr (n : Fin 33) (f : FmtT)
  /-- SEND (R289). Lane closes an output record and writes its header. -/
  | send (n : Fin 33) (f : FmtT)
  /-- LANE_K_WRITE (R302). A write to LANE_Kj stages a parameter for the logical lane's next checkpoint. -/
  | laneKWrite (n : Fin 33) (j : Fin 8) (w : Word)
  /-- PERIOD_TIMEOUT (R317). A DTS period not closed within 4 × AVG × DIV × T_R closes as LOST. -/
  | periodTimeout (x : Fibre)
  /-- PERIOD_RECORD_WRITE (R320). A DTS period record becomes complete and is written to its bobbin. -/
  | periodRecordWrite (x : Fibre)
  /-- DTS_COEF_WRITE (R325). A write to DTS_COEF or DTS_LNC takes effect for the first period closing 4 µs later. -/
  | dtsCoefWrite (x : Fibre) (lnc : Bool) (w : Word)
  /-- HK_TRIGGER (R348). A housekeeping trigger is recognised and starts a regular or injected pass, or sets ROVR or IOVR. -/
  | hkTrigger
  /-- HK_TIMER_EXPIRE (R350). The housekeeping timer expires after PERIOD HK clocks and triggers its sequence. -/
  | hkTimerExpire
  /-- RGO (R372). HK_SWTRIG.RGO triggers the regular sequence. -/
  | rgo
  /-- IGO (R372). HK_SWTRIG.IGO triggers the injected sequence. -/
  | igo
  /-- MONITOR_CONVERSION_DUE (R347). A class 3 monitor or check conversion falls due and is placed in the next gap. -/
  | monitorConversionDue
  /-- CONVERSION_RESULT (R353). A conversion result is written 8 HK clocks after sampling and feeds its chain, sensor output and readback check. -/
  | conversionResult (d : ConvData)
  /-- REF_SETTLED (R344). The selected reference settles and REF_OK becomes 1. -/
  | refSettled (inRange : Nat)
  /-- HK_CONVERTER_FAULT (R356). A converter fault makes the idle converter active and fences the failed one. -/
  | hkConverterFault (c : Fin 2)
  /-- HK_CAL_START (R357). HK_CAL.START requests a calibration of the idle converter, or an intrusive one. -/
  | hkCalStart (intr : Bool)
  /-- HK_CAL_COMPLETE (R357). A 2 ms converter calibration ends, making the idle converter READY or fencing it. -/
  | hkCalComplete (pass : Bool) (gain : Fin 65536) (ofs : Int)
  /-- HK_SWAP (R357). At a sequence boundary the READY converter becomes active. -/
  | hkSwap
  /-- HK_TEST_GO (R361). HK_TEST.GO starts an Eyelet test of one input. -/
  | hkTestGo (k : Fin 64)
  /-- HK_TEST_AUTO (R361). Every TPER × 10 ms the next input in rotation is tested. -/
  | hkTestAuto
  /-- SEN_EXC_WRITE (R365). A change of SEN_EXCn switches excitation, discards 16 conversions and restarts chains with EXCIT. -/
  | senExcWrite (n : Fin 8) (w : Word)
  /-- SENSOR_CHECK_START (R366). Every CHKPER s a sensor channel's 5 ms impedance and lead check begins. -/
  | sensorCheckStart (n : Fin 8)
  /-- SENSOR_CHECK_END (R366). A sensor channel's check ends, updating ZMEAS, RMEAS, IMPF and PROV. -/
  | sensorCheckEnd (n : Fin 8)
  /-- ZONE_REPORT (R386). A committed zone report record is evaluated zone by zone through hysteresis and dwell. -/
  | zoneReport (k : Fin 4)
  /-- ZONE_TIMEOUT (R387). No report within TMO ms makes the zone INVALID. -/
  | zoneTimeout (z : Fin 1024)
  /-- LOOP_ACK_ONE (R389). LOOP_ACK.ONE clears LATCHED on the selected zone. -/
  | loopAckOne
  /-- LOOP_ACK_ALL (R389). LOOP_ACK.ALL clears LATCHED on every zone. -/
  | loopAckAll
  /-- LOOP_FIX_WRITE (R397). A write to LOOP_CUR1n.FIX commands a new FIXED loop code within 1 µs. -/
  | loopFixWrite (n : Fin 8) (w : Word)
  /-- BOBBIN_WRITE (R413). A producer writes a record to a bobbin through its gate, dropping old records or deferring at the quota. -/
  | bobbinWrite (b : Fin 128) (claim : Fin 65536) (unit : Fin 256) (kind : Nat) (h1 : Nat) (h2 : Nat) (h3 : Nat) (ns : Nat) (x : Fibre) (payload : List Word)
  /-- AGE_LIMIT (R421). A requester's age counter passes AGELIM and its next quantum is promoted. -/
  | ageLimit (who : Requester)
  /-- RECALL_TRIG (R429). A recall trigger takes an ARMED window to POST, or is counted as lost. -/
  | recallTrig
  /-- RECALL_RELEASE (R429). GND_RCMD.RELEASE empties the window and returns it to ARMED. -/
  | recallRelease
  /-- RECALL_EXPORT (R430). GND_RCMD.EXPORT writes the held window to EXPBOB, or is refused outside HELD. -/
  | recallExport
  /-- REFRESH_DUE (R451). A bank's refresh falls due and is issued, postponed or forced. -/
  | refreshDue (port : Fin 2) (rank : Fin 2) (bank : Fin 16)
  /-- MR4_READ (R451). Every 4 ms the controller reads MR4 and sets the refresh multiplier. -/
  | mr4Read (a0 : Fin 3) (a1 : Fin 3) (b0 : Fin 3) (b1 : Fin 3)
  /-- TRACKING_EVENT (R455). A port's tracking event retrains its delays, blocking the port up to 1.8 µs. -/
  | trackingEvent (p : Fin 2) (ns : Nat) (temp : Int)
  /-- MEMC_FREQ_GO (R457). MEMC_FREQ.GO requests a change of DRAM set point, settled by the table of R457. -/
  | memcFreqGo (t : Fin 4)
  /-- SET_POINT_CHANGE (R456). Both ports pass through self-refresh to the target set point. -/
  | setPointChange
  /-- WRITE_DRAIN (R450). A write buffer reaching HIWM drains writes ahead of reads to LOWM. -/
  | writeDrain (p : Fin 2)
  /-- SCRUB_READ (R446). The scrubber reads a data sector, correcting or poisoning it. -/
  | scrubRead (found : Fin 3)
  /-- LINK_UP (R468). After 1 ms of block lock without hi-BER the link comes up. -/
  | linkUp (p : Fin 2) (held : Nat) (fec : Bool)
  /-- LINK_DOWN (R468). Loss of lock, hi-BER or FEC alignment takes the link down. -/
  | linkDown (p : Fin 2)
  /-- FRAME_RECEIVE (R470). A received frame is filtered and dropped or dispatched by kind. -/
  | frameReceive (p : Fin 2) (f : RxFrame)
  /-- MKA_FRAME (R472). An EAPOL MKA frame is processed by the supervisor. -/
  | mkaFrame (p : Fin 2)
  /-- MKA_HELLO (R472). Every 2 s the supervisor sends an MKA hello. -/
  | mkaHello (p : Fin 2)
  /-- SAK_REKEY (R472). The transmit PN reaches its threshold and the key server begins a new SAK. -/
  | sakRekey (p : Fin 2)
  /-- PN_EXHAUSTED (R473). A static port's PN reaches its limit and it stops transmitting. -/
  | pnExhausted (p : Fin 2)
  /-- ARP_FRAME (R476). An ARP request or reply is answered or resolves a next hop. -/
  | arpFrame (p : Fin 2)
  /-- NEIGHBOUR_FRAME (R476). An ICMPv6 neighbour solicitation or advertisement is answered or resolves a next hop. -/
  | neighbourFrame (p : Fin 2)
  /-- ECHO_REQUEST (R476). An echo request is answered within the rate limit. -/
  | echoRequest (p : Fin 2)
  /-- NEXT_HOP_REFRESH (R476). Every 60 s a resolved next hop is refreshed. -/
  | nextHopRefresh (p : Fin 2)
  /-- RESOLVE_TIMEOUT (R476). A destination unresolved for 3 s makes its streams treat the port as unavailable. -/
  | resolveTimeout (p : Fin 2)
  /-- PTP_MESSAGE (R489). A PTP event or general message is timestamped and processed by the ordinary clock. -/
  | ptpMessage (p : Fin 2)
  /-- DELAY_REQ (R489). At the permitted interval the device sends Delay_Req. -/
  | delayReq
  /-- ANNOUNCE_TIMEOUT (R489). The announce receipt timeout of a master expires. -/
  | announceTimeout
  /-- STREAM_GROUP_READY (R487). A stream's group closes and its frames are queued to the port. -/
  | streamGroupReady (i : Fin 256)
  /-- GROUP_TIMEOUT (R482). A group's oldest record has waited 100 ms and the group closes early. -/
  | groupTimeout (i : Fin 256)
  /-- DESCRIPTOR_TIMER (R485). Every 1 s each stream sends a descriptor frame. -/
  | descriptorTimer (i : Fin 256)
  /-- FAILOVER_SWITCH (R479). NET0 unavailable for 1 ms moves a FAILOVER stream to NET1. -/
  | failoverSwitch (i : Fin 256)
  /-- FAILOVER_RETURN (R479). NET0 available for 10 s returns a FAILOVER stream to it. -/
  | failoverReturn (i : Fin 256)
  /-- NET_SCFG_EN_WRITE (R498). A write of NET_SCFG.EN enables or disables a stream at its next record, subject to R488. -/
  | netScfgEnWrite (i : Fin 256) (en : Bool)
  /-- MGMT_READ (R493). A management READ request reads registers in order and responds. -/
  | mgmtRead (pause : Option Nat)
  /-- MGMT_WRITE (R493). A management WRITE request writes registers in order, authenticated where emission-affecting. -/
  | mgmtWrite (pause : Option Nat)
  /-- CMD_NOP (R494). Management command NOP responds with no effect. -/
  | cmdNop
  /-- CHALLENGE (R540). Management command CHALLENGE returns a fresh nonce and the device ID. -/
  | challenge
  /-- CMD_RESET (R494). Management command RESET responds and then raises reset source MGMT. -/
  | cmdReset
  /-- UNIT_RESET (R494). Management command UNIT_RESET resets one slice, lane or converter. -/
  | unitReset
  /-- ATTEST (R543). Management command ATTEST returns a signed report or the identity key. -/
  | attest
  /-- XFER_OPEN (R625). Image-transfer OPEN opens a transfer to a slot or table and erases its sectors. -/
  | xferOpen
  /-- XFER_DATA (R625). Image-transfer DATA programs words at the expected offset. -/
  | xferData
  /-- XFER_CLOSE (R626). Image-transfer CLOSE checks the object and validates the slot or applies the table. -/
  | xferClose
  /-- XFER_ABORT (R625). Image-transfer ABORT ends the open transfer. -/
  | xferAbort
  /-- COMPRESS_RECORD (R510). A compressor takes an input record into its block, closing it when full or at a discontinuity. -/
  | compressRecord (n : Fin 2)
  /-- BLOCK_TIMEOUT (R510). BLKTMO ms after its first record the open block closes. -/
  | blockTimeout (n : Fin 2)
  /-- COMPRESSED_RECORD_WRITE (R513). A closed block's compressed record is written to the output bobbin. -/
  | compressedRecordWrite (n : Fin 2)
  /-- COMPRESSOR_ECC_ERROR (R515). An uncorrectable compressor buffer error discards the open block. -/
  | compressorEccError (n : Fin 2)
  /-- DFL_EN_WRITE (R519). A write of DFL_CFGn.EN enables a compressor subject to R513 or closes its block. -/
  | dflEnWrite (n : Fin 2) (en : Bool)
  /-- DECOMPRESS_OBJECT (R517). The decompressor unpacks one requested object, passing or discarding it whole. -/
  | decompressObject (ulen : Nat) (data : List Byte) (ecc : Bool)
  /-- DRBG_RESEED (R531). After 65,536 requests or one hour the runtime DRBG reseeds. -/
  | drbgReseed
  /-- DRBG_HEALTH_FAIL (R532). A failed noise-source health test puts the DRBG in error. -/
  | drbgHealthFail
  /-- DRBG_RETRY (R532). Every 1 s in error the DRBG retries instantiation. -/
  | drbgRetry (ok : Bool)
  /-- PROGKEY (R534). Fuse operation PROGKEY programs an owner key slot. -/
  | progkey (slot : Fin 4)
  /-- REVOKE (R534). Fuse operation REVOKE blows a slot's revocation pair. -/
  | revoke (slot : Fin 4)
  /-- ADVANCE (R534). Fuse operation ADVANCE raises the anti-rollback counter. -/
  | advance
  /-- FLEETKEY (R534). Fuse operation FLEETKEY programs the fleet image key. -/
  | fleetkey
  /-- LOCKJTAG (R534). Fuse operation LOCKJTAG blows JTAG_LOCK. -/
  | lockjtag
  /-- FUSE_OP_COMPLETE (R534). A fuse operation ends with its read-back result. -/
  | fuseOpComplete (ok : Bool)
  /-- ARB_AUTO_ADVANCE (R537). At the first committed round or 60 s after apply, the counter advances to the image SVN. -/
  | arbAutoAdvance
  /-- CHALLENGE_EXPIRE (R540). An outstanding challenge expires after 60 s. -/
  | challengeExpire
  /-- SESSION_TIMEOUT (R542). A monitor session ends after 600 s without a command. -/
  | sessionTimeout
  /-- DIGEST_LINK_CLOSE (R545). Every 1 s of TIME a compressor's hash-chain link closes. -/
  | digestLinkClose (n : Fin 2)
  /-- DIGEST_RECORD_WRITE (R546). The signed digest record of a link is written to the output bobbin. -/
  | digestRecordWrite (n : Fin 2)
  /-- JTAG_INSTRUCTION (R547). A TAP instruction is executed, or acts as BYPASS when locked. -/
  | jtagInstruction (ins : Fin 6) (src : Fin 9) (code : Fin 8)
  /-- HEARTBEAT_DEADLINE (R560). A lane's heartbeat deadline passes on a path, counting a miss or declaring a fault. -/
  | heartbeatDeadline (n : Fin 33) (p : Fin 2) (got : Option Nat) (others : Bool)
  /-- PATH_RESTORE (R561). After 1 s of clean heartbeats a faulted path is restored. -/
  | pathRestore (p : Fin 2)
  /-- LANE_FAULT (R564). A lane is declared failed, fenced, and TAKE is sent to the spare. -/
  | laneFault (n : Fin 33) (e : LaneError)
  /-- TAKEOVER_RESTORE_COMPLETE (R564). The spare finishes restoring C(r_o), becomes active and replays. -/
  | takeoverRestoreComplete
  /-- UNSERVED_TIMEOUT (R564). An unserved logical lane's retained pages and checkpoints are discarded after 100 ms. -/
  | unservedTimeout (ll : Fin 32)
  /-- SHADOW_WINDOW_CLOSE (R566). A lane shadow window closes, matching or with a mismatch, and the next begins. -/
  | shadowWindowClose (mismatch : Bool)
  /-- FRONT_RESIDUE_MISMATCH (R569). A front-pipeline residue mismatch marks points or samples as in a fault span. -/
  | frontResidueMismatch (x : Fibre) (late : Bool) (c : Nat) (t0 : Nat) (t1 : Nat)
  /-- HLTH_TEST_GO (R570). HLTH_TCMD.GO requests a test of a unit, settled by the table of R570. -/
  | hlthTestGo (u : Fin 256) (intr : Bool)
  /-- INTRUSIVE_TEST_END (R571). An intrusive test ends and its erased samples are emitted. -/
  | intrusiveTestEnd (pass : Bool)
  /-- UNIT_TEST_COMPLETE (R563). A fenced unit's built-in test ends and it rejoins, takes a lost role or stays fenced. -/
  | unitTestComplete (u : Fin 256) (pass : Bool) (m : SliceCoefs) (gain : Fin 65536) (ofs : Int)
  /-- RAIL_LOST (R583). A rail falls below its threshold, asserting POR or BOR. -/
  | railLost (n : Fin 8)
  /-- RAILS_STABLE (R583). All rails have been good for 33 AON clocks and POR and BOR release. -/
  | railsStable
  /-- PIN (R586). RESET_N low for 1 µs asserts reset source PIN. -/
  | pin (low : Bool) (ns : Nat)
  /-- THERM (R586). A die sensor at 125 °C asserts reset source THERM. -/
  | therm (t0 : Int) (t1 : Int) (t2 : Int)
  /-- WDT (R586). The watchdog unserviced for 2 s pulses reset source WDT. -/
  | wdt
  /-- LOCK (R41). Loss of root or MEM PLL lock pulses reset source LOCK. -/
  | lock (mem : Bool)
  /-- RESET_EPISODE (R590). A reset source is asserted, beginning or deepening an episode and forcing the reset state. -/
  | resetEpisode (src : Fin 9)
  /-- RESET_RELEASE (R590). All asserted sources are released and the release sequence of the effective reach runs. -/
  | resetRelease (asleep : Bool) (fusesOk : Bool) (r0 : Fin 4096) (r1 : Fin 4096) (r2 : Fin 4096) (ecc : Option Nat)
  /-- ROM_START (R598). The PLLs lock, the episode ends, the ROM starts and the identity key is derived. -/
  | romStart
  /-- IMAGE_LOAD (R619). The supervisor reads and authenticates a slot image, falling back between slots. -/
  | imageLoad (mode : Fin 4) (dtr : Bool) (size : Fin 32) (ecc : Option Nat)
  /-- IMAGE_APPLY (R617). A decoded image is checked whole and written, or refused with nothing written. -/
  | imageApply (ecc : Option Nat)
  /-- BOOT_TRAINING_COMPLETE (R454). Boot training of all set points ends and the controller moves to its selected set point. -/
  | bootTrainingComplete (ok0 : Bool) (ok1 : Bool) (ok2 : Bool) (devices : Bool)
  /-- PAGE_TABLE_BUILT (R435). The allocator builds its page table and the Ground reports READY. -/
  | pageTableBuilt
  /-- LANES_LOADED (R298). All logical lanes are loaded and initialised. -/
  | lanesLoaded (cal : List SliceCoefs) (g0 : Fin 65536) (g1 : Fin 65536) (o0 : Int) (o1 : Int)
  /-- AUTO_START (R600). At the end of the boot sequence fibres enabled in SYS_BOOTCFG start acquisition. -/
  | autoStart
  /-- FLASH_OP_COMPLETE (R612). A flash page program, sector erase or read burst completes. -/
  | flashOpComplete (ok : Bool)
  /-- CAL_STORE_WRITE (R622). After a completed calibration the supervisor writes the other calibration copy. -/
  | calStoreWrite
  /-- EVENT_LOG_WRITE (R623). A FAULT-severity record becomes an event log entry in flash, or is dropped. -/
  | eventLogWrite
  /-- MON_LINE (R632). A command line is received on the UART and parsed, failing with MALFORMED or UNKNOWN. -/
  | monLine
  /-- HELP (R635). Monitor command HELP lists commands or one syntax. -/
  | help
  /-- ID (R635). Monitor command ID prints identity, lifecycle and image details. -/
  | id
  /-- STAT (R635). Monitor command STAT prints boot phase and fibre, link and memory status. -/
  | stat
  /-- HEALTH (R635). Monitor command HEALTH prints HLTH_STAT, fenced units and recent B127 records. -/
  | health
  /-- AUTH_CHALLENGE (R636). Monitor AUTH without argument issues a challenge. -/
  | authChallenge
  /-- AUTH (R636). Monitor AUTH with a trailer verifies it and opens a session. -/
  | auth
  /-- PEEK (R637). Monitor command PEEK reads registers. -/
  | peek (pause : Option Nat)
  /-- POKE (R637). Monitor command POKE writes one runtime-writable register under a session. -/
  | poke
  /-- LOG (R635). Monitor command LOG prints the newest event log entries. -/
  | log
  /-- TRACE (R639). Monitor command TRACE arms a capture of the next shot's slice samples. -/
  | trace
  /-- TRACE_CAPTURE (R639). The armed capture takes its samples and prints them. -/
  | traceCapture (ws : List (Int × Bool))
  /-- CAL (R635). Monitor command CAL starts a slice or converter calibration. -/
  | cal
  /-- TEST (R635). Monitor command TEST requests a unit test. -/
  | test
  /-- SLOT (R638). Monitor command SLOT prints slot headers, marks and transfer status. -/
  | slot
  /-- SLOT_OPEN (R638). Monitor SLOT OPEN opens a transfer as OPEN of R625. -/
  | slotOpen
  /-- SLOT_DATA (R638). Monitor SLOT DATA programs words as DATA of R625. -/
  | slotData
  /-- SLOT_CLOSE (R638). Monitor SLOT CLOSE checks the transfer as CLOSE of R625. -/
  | slotClose
  /-- SLOT_ABORT (R638). Monitor SLOT ABORT ends the transfer as ABORT of R625. -/
  | slotAbort
  /-- SLOT_CLEAR (R638). Monitor SLOT CLEAR clears a slot's AON failure mark. -/
  | slotClear
  /-- MON_RESET (R635). Monitor RESET raises reset source MON after its status line. -/
  | monReset
  /-- MON_RESET_UNIT (R635). Monitor RESET UNIT resets one unit as UNIT_RESET. -/
  | monResetUnit
  /-- EMIT_EN_HIGH (R101). EMIT_EN returns high, ending the hardware force of gates, triggers and DRVn and starting the 10 ms filter of R102. -/
  | emitEnHigh
  /-- MKA_LIFE_TIMEOUT (R472). No MKPDU from the partner within the 6 s MKA life time takes the port out of SECURED, so it carries EAPOL alone and streams treat it as unavailable. -/
  | mkaLifeTimeout (p : Fin 2)
  /-- HK_AUTOCAL_REQUEST (R357). With HK_CAL.AUTOCAL = 1, every PER minutes or after a die temperature change of DT K, a calibration of the idle converter is requested. -/
  | hkAutocalRequest
  /-- ON_DEMAND_TRAINING_COMPLETE (R457). On-demand training of a target set point ends within 50 ms, followed by the change or RESULT 0x6. -/
  | onDemandTrainingComplete (ok : Bool)
  /-- IDENTITY_KEY_DERIVED (R529). The crypto engine finishes deriving the identity key within 30 ms, which allows image decryption to go on. -/
  | identityKeyDerived
  /-- LANE_CHECKPOINT_TIMER (R233). A lane with no governing fibre takes a checkpoint every 1 ms of TIME. -/
  | laneCheckpointTimer (ll : Fin 32)
  /-- TRACE_TIMEOUT (R639). An armed TRACE fails with REFUSED when the fibre launches no shot within 10 s. -/
  | traceTimeout
  /-- MON_CHARACTER (R632). A character received on the UART is echoed, applies a backspace, or is buffered or discarded while a command runs. -/
  | monCharacter (c : Byte) (framing : Bool)
deriving DecidableEq, Repr

end Sys2Proof
end

