-- ==== Sys2Proof/Decode.lean ====
section
/-!
DEFINITION. Words of the opcode table. The table gives no row any bits, so no word spells a command: decoding is total and refuses
every word.
-/
namespace Sys2Proof

/-- The command that a word of `nbits` bits spells by the table's bits: none, as the table gives none. -/
def decodeTableWord (_nbits _w : Nat) : Option Instr := none

end Sys2Proof
end

