-- ==== Sys2Proof/Machine/Fields.lean ====
section
/-!
DEFINITION. Addresses of the registers and places of their fields, by the names the spec gives them (R663 and the
register tables of each chapter). A copy is chosen by its indices: fibre 0 for A and 1 for B, port 0 for NET0 and 1 for
NET1, or the instance number. A windowed register takes the index its index register would select.
-/
namespace Sys2Proof.Machine

/-- A field: the key of its register in the register file, its lowest bit and its width. -/
structure Fld where
  reg : Nat
  lo : Nat
  w : Nat
deriving DecidableEq, Repr

/-- Key of entry `k` of an indexed window whose data register lies at `a`. -/
def winKey (a k : Nat) : Nat := a + k * 0x100_0000

/-- Key of the live plane of a staged register: the shadow plane is the register's own key (R62, R111, R148). -/
def liveKey (a : Nat) : Nat := a + 0x1000_0000_0000

/-- The same field in the live plane of its staged register. -/
def Fld.live (f : Fld) : Fld := { f with reg := liveKey f.reg }

def R.SHOT_NG (x : Nat) : Nat := 0x20000 + x * 0x80
def F.SHOT_NG.NG (x : Nat) : Fld := ⟨R.SHOT_NG x, 0, 18⟩
def R.SHOT_LRP (x : Nat) : Nat := 0x20004 + x * 0x80
def F.SHOT_LRP.DELAY (x : Nat) : Fld := ⟨R.SHOT_LRP x, 0, 16⟩
def R.SHOT_PEAK (x : Nat) : Nat := 0x2001C + x * 0x80
def F.SHOT_PEAK.VLD (x : Nat) : Fld := ⟨R.SHOT_PEAK x, 31, 1⟩
def F.SHOT_PEAK.POINT (x : Nat) : Fld := ⟨R.SHOT_PEAK x, 0, 20⟩
def R.SHOT_FLEN (x : Nat) : Nat := 0x20008 + x * 0x80
def F.SHOT_FLEN.LEN (x : Nat) : Fld := ⟨R.SHOT_FLEN x, 0, 20⟩
def R.SHOT_CHAN (x : Nat) : Nat := 0x2000C + x * 0x80
def F.SHOT_CHAN.PP (x : Nat) : Fld := ⟨R.SHOT_CHAN x, 16, 2⟩
def F.SHOT_CHAN.GAUGE (x : Nat) : Fld := ⟨R.SHOT_CHAN x, 8, 8⟩
def F.SHOT_CHAN.PITCH (x : Nat) : Fld := ⟨R.SHOT_CHAN x, 0, 8⟩
def R.SHOT_CSTART (x : Nat) : Nat := 0x20010 + x * 0x80
def F.SHOT_CSTART.START (x : Nat) : Fld := ⟨R.SHOT_CSTART x, 0, 20⟩
def R.SHOT_NCH (x : Nat) : Nat := 0x20014 + x * 0x80
def F.SHOT_NCH.COUNT (x : Nat) : Fld := ⟨R.SHOT_NCH x, 0, 19⟩
def R.SHOT_GSTAT (x : Nat) : Nat := 0x20018 + x * 0x80
def F.SHOT_GSTAT.ERR (x : Nat) : Fld := ⟨R.SHOT_GSTAT x, 20, 4⟩
def F.SHOT_GSTAT.NCH_ACT (x : Nat) : Fld := ⟨R.SHOT_GSTAT x, 0, 19⟩
def R.CLK_STAT : Nat := 0x10000
def F.CLK_STAT.NET_LOST : Fld := ⟨R.CLK_STAT, 10, 1⟩
def F.CLK_STAT.MEM_LOST : Fld := ⟨R.CLK_STAT, 9, 1⟩
def F.CLK_STAT.ROOT_LOST : Fld := ⟨R.CLK_STAT, 8, 1⟩
def F.CLK_STAT.NET_LOCK : Fld := ⟨R.CLK_STAT, 3, 1⟩
def F.CLK_STAT.MEM_LOCK : Fld := ⟨R.CLK_STAT, 2, 1⟩
def F.CLK_STAT.ROOT_LOCK : Fld := ⟨R.CLK_STAT, 1, 1⟩
def F.CLK_STAT.REF_PRES : Fld := ⟨R.CLK_STAT, 0, 1⟩
def R.CLK_TB_CTL : Nat := 0x10010
def F.CLK_TB_CTL.PPS_WIDTH : Fld := ⟨R.CLK_TB_CTL, 8, 8⟩
def F.CLK_TB_CTL.PPS_IN_POL : Fld := ⟨R.CLK_TB_CTL, 3, 1⟩
def F.CLK_TB_CTL.PPS_OUT_EN : Fld := ⟨R.CLK_TB_CTL, 2, 1⟩
def F.CLK_TB_CTL.SRC : Fld := ⟨R.CLK_TB_CTL, 0, 2⟩
def R.CLK_TB_CMD : Nat := 0x10014
def F.CLK_TB_CMD.SET : Fld := ⟨R.CLK_TB_CMD, 2, 1⟩
def F.CLK_TB_CMD.STEP : Fld := ⟨R.CLK_TB_CMD, 1, 1⟩
def F.CLK_TB_CMD.CAPTURE : Fld := ⟨R.CLK_TB_CMD, 0, 1⟩
def R.CLK_TB_CAP_FRAC : Nat := 0x10018
def F.CLK_TB_CAP_FRAC.FRAC : Fld := ⟨R.CLK_TB_CAP_FRAC, 0, 16⟩
def R.CLK_TB_CAP_LO : Nat := 0x1001C
def F.CLK_TB_CAP_LO.NS_LO : Fld := ⟨R.CLK_TB_CAP_LO, 0, 32⟩
def R.CLK_TB_CAP_HI : Nat := 0x10020
def F.CLK_TB_CAP_HI.NS_HI : Fld := ⟨R.CLK_TB_CAP_HI, 0, 32⟩
def R.CLK_TB_RATE : Nat := 0x10024
def F.CLK_TB_RATE.RATE : Fld := ⟨R.CLK_TB_RATE, 0, 32⟩
def R.CLK_TB_STEP_NS : Nat := 0x10028
def F.CLK_TB_STEP_NS.STEP : Fld := ⟨R.CLK_TB_STEP_NS, 0, 32⟩
def R.CLK_TB_SET_LO : Nat := 0x10030
def F.CLK_TB_SET_LO.SET_LO : Fld := ⟨R.CLK_TB_SET_LO, 0, 32⟩
def R.CLK_TB_SET_HI : Nat := 0x10034
def F.CLK_TB_SET_HI.SET_HI : Fld := ⟨R.CLK_TB_SET_HI, 0, 32⟩
def R.CLK_TB_STAT : Nat := 0x10038
def F.CLK_TB_STAT.OFFSET : Fld := ⟨R.CLK_TB_STAT, 16, 16⟩
def F.CLK_TB_STAT.PPS_REJ : Fld := ⟨R.CLK_TB_STAT, 3, 1⟩
def F.CLK_TB_STAT.STEPPED : Fld := ⟨R.CLK_TB_STAT, 2, 1⟩
def F.CLK_TB_STAT.STATE : Fld := ⟨R.CLK_TB_STAT, 0, 2⟩
def R.SHOT_TSET (x : Nat) : Nat := 0x20020 + x * 0x80
def F.SHOT_TSET.NT (x : Nat) : Fld := ⟨R.SHOT_TSET x, 0, 2⟩
def R.SHOT_TFREQ01 (x : Nat) : Nat := 0x20024 + x * 0x80
def F.SHOT_TFREQ01.F1 (x : Nat) : Fld := ⟨R.SHOT_TFREQ01 x, 16, 9⟩
def F.SHOT_TFREQ01.F0 (x : Nat) : Fld := ⟨R.SHOT_TFREQ01 x, 0, 9⟩
def R.SHOT_TFREQ23 (x : Nat) : Nat := 0x20028 + x * 0x80
def F.SHOT_TFREQ23.F3 (x : Nat) : Fld := ⟨R.SHOT_TFREQ23 x, 16, 9⟩
def F.SHOT_TFREQ23.F2 (x : Nat) : Fld := ⟨R.SHOT_TFREQ23 x, 0, 9⟩
def R.SHOT_GUARD (x : Nat) : Nat := 0x20040 + x * 0x80
def F.SHOT_GUARD.GUARD (x : Nat) : Fld := ⟨R.SHOT_GUARD x, 0, 16⟩
def R.SHOT_PERIOD (x : Nat) : Nat := 0x20044 + x * 0x80
def F.SHOT_PERIOD.TR (x : Nat) : Fld := ⟨R.SHOT_PERIOD x, 0, 21⟩
def R.SHOT_TRPER (x : Nat) : Nat := 0x20054 + x * 0x80
def F.SHOT_TRPER.TR_ACT (x : Nat) : Fld := ⟨R.SHOT_TRPER x, 0, 21⟩
def R.SHOT_RAMAN (x : Nat) : Nat := 0x2004C + x * 0x80
def F.SHOT_RAMAN.DIV (x : Nat) : Fld := ⟨R.SHOT_RAMAN x, 8, 8⟩
def F.SHOT_RAMAN.SLOT (x : Nat) : Fld := ⟨R.SHOT_RAMAN x, 4, 2⟩
def F.SHOT_RAMAN.MODE (x : Nat) : Fld := ⟨R.SHOT_RAMAN x, 0, 2⟩
def R.SHOT_TRIG (x : Nat) : Nat := 0x20050 + x * 0x80
def F.SHOT_TRIG.TSKEW (x : Nat) : Fld := ⟨R.SHOT_TRIG x, 16, 8⟩
def F.SHOT_TRIG.TWIDTH (x : Nat) : Fld := ⟨R.SHOT_TRIG x, 0, 10⟩
def R.SHOT_STAT (x : Nat) : Nat := 0x20058 + x * 0x80
def F.SHOT_STAT.RUNRND (x : Nat) : Fld := ⟨R.SHOT_STAT x, 16, 8⟩
def F.SHOT_STAT.OVERLEN (x : Nat) : Fld := ⟨R.SHOT_STAT x, 5, 1⟩
def F.SHOT_STAT.SEEDED (x : Nat) : Fld := ⟨R.SHOT_STAT x, 4, 1⟩
def F.SHOT_STAT.STATE (x : Nat) : Fld := ⟨R.SHOT_STAT x, 0, 3⟩
def R.SHOT_SEQ_LO (x : Nat) : Nat := 0x20060 + x * 0x80
def F.SHOT_SEQ_LO.SEQ_LO (x : Nat) : Fld := ⟨R.SHOT_SEQ_LO x, 0, 32⟩
def R.SHOT_SEQ_HI (x : Nat) : Nat := 0x20064 + x * 0x80
def F.SHOT_SEQ_HI.SEQ_HI (x : Nat) : Fld := ⟨R.SHOT_SEQ_HI x, 0, 16⟩
def R.SHOT_STAGE (x : Nat) : Nat := 0x2005C + x * 0x80
def F.SHOT_STAGE.CODE (x : Nat) : Fld := ⟨R.SHOT_STAGE x, 4, 4⟩
def F.SHOT_STAGE.SRC (x : Nat) : Fld := ⟨R.SHOT_STAGE x, 2, 1⟩
def F.SHOT_STAGE.PEND (x : Nat) : Fld := ⟨R.SHOT_STAGE x, 1, 1⟩
def F.SHOT_STAGE.GO (x : Nat) : Fld := ⟨R.SHOT_STAGE x, 0, 1⟩
def R.SHOT_PULSE (x : Nat) : Nat := 0x2002C + x * 0x80
def F.SHOT_PULSE.CHIPS (x : Nat) : Fld := ⟨R.SHOT_PULSE x, 24, 6⟩
def F.SHOT_PULSE.CODE (x : Nat) : Fld := ⟨R.SHOT_PULSE x, 20, 1⟩
def F.SHOT_PULSE.ROLL (x : Nat) : Fld := ⟨R.SHOT_PULSE x, 16, 4⟩
def F.SHOT_PULSE.SHAPE (x : Nat) : Fld := ⟨R.SHOT_PULSE x, 12, 2⟩
def F.SHOT_PULSE.WIDTH (x : Nat) : Fld := ⟨R.SHOT_PULSE x, 0, 10⟩
def R.SHOT_CODE_LO (x : Nat) : Nat := 0x20030 + x * 0x80
def F.SHOT_CODE_LO.CODE_LO (x : Nat) : Fld := ⟨R.SHOT_CODE_LO x, 0, 32⟩
def R.SHOT_CODE_HI (x : Nat) : Nat := 0x20034 + x * 0x80
def F.SHOT_CODE_HI.CODE_HI (x : Nat) : Fld := ⟨R.SHOT_CODE_HI x, 0, 32⟩
def R.SHOT_AMP01 (x : Nat) : Nat := 0x20038 + x * 0x80
def F.SHOT_AMP01.A1 (x : Nat) : Fld := ⟨R.SHOT_AMP01 x, 16, 11⟩
def F.SHOT_AMP01.A0 (x : Nat) : Fld := ⟨R.SHOT_AMP01 x, 0, 11⟩
def R.SHOT_AMP23 (x : Nat) : Nat := 0x2003C + x * 0x80
def F.SHOT_AMP23.A3 (x : Nat) : Fld := ⟨R.SHOT_AMP23 x, 16, 11⟩
def F.SHOT_AMP23.A2 (x : Nat) : Fld := ⟨R.SHOT_AMP23 x, 0, 11⟩
def R.SHOT_SYNOFS (x : Nat) : Nat := 0x20070 + x * 0x80
def F.SHOT_SYNOFS.OFS_Q (x : Nat) : Fld := ⟨R.SHOT_SYNOFS x, 16, 12⟩
def F.SHOT_SYNOFS.OFS_I (x : Nat) : Fld := ⟨R.SHOT_SYNOFS x, 0, 12⟩
def R.SHOT_SYNTRIM (x : Nat) : Nat := 0x20074 + x * 0x80
def F.SHOT_SYNTRIM.QPHASE (x : Nat) : Fld := ⟨R.SHOT_SYNTRIM x, 16, 8⟩
def F.SHOT_SYNTRIM.QGAIN (x : Nat) : Fld := ⟨R.SHOT_SYNTRIM x, 0, 8⟩
def R.SHOT_SYNEN (x : Nat) : Nat := 0x20078 + x * 0x80
def F.SHOT_SYNEN.EN (x : Nat) : Fld := ⟨R.SHOT_SYNEN x, 0, 1⟩
def R.SHOT_GATE (x : Nat) : Nat := 0x20048 + x * 0x80
def F.SHOT_GATE.GLAG (x : Nat) : Fld := ⟨R.SHOT_GATE x, 16, 8⟩
def F.SHOT_GATE.GLEAD (x : Nat) : Fld := ⟨R.SHOT_GATE x, 8, 8⟩
def F.SHOT_GATE.GSKEW (x : Nat) : Fld := ⟨R.SHOT_GATE x, 0, 8⟩
def R.SRC_EMIT : Nat := 0x30104
def F.SRC_EMIT.EMIT_LOST : Fld := ⟨R.SRC_EMIT, 15, 1⟩
def F.SRC_EMIT.PERMIT_B : Fld := ⟨R.SRC_EMIT, 8, 1⟩
def F.SRC_EMIT.PERMIT_A : Fld := ⟨R.SRC_EMIT, 7, 1⟩
def F.SRC_EMIT.OPT_OK : Fld := ⟨R.SRC_EMIT, 6, 1⟩
def F.SRC_EMIT.EMIT_IN : Fld := ⟨R.SRC_EMIT, 5, 1⟩
def F.SRC_EMIT.LATCHED : Fld := ⟨R.SRC_EMIT, 4, 1⟩
def F.SRC_EMIT.REARM : Fld := ⟨R.SRC_EMIT, 3, 1⟩
def F.SRC_EMIT.EMLATCH : Fld := ⟨R.SRC_EMIT, 2, 1⟩
def F.SRC_EMIT.ALLOW_B : Fld := ⟨R.SRC_EMIT, 1, 1⟩
def F.SRC_EMIT.ALLOW_A : Fld := ⟨R.SRC_EMIT, 0, 1⟩
def R.SRC_CFG (n : Nat) : Nat := 0x30000 + n * 0x20
def F.SRC_CFG.RSNS (n : Nat) : Fld := ⟨R.SRC_CFG n, 16, 10⟩
def F.SRC_CFG.SNEN (n : Nat) : Fld := ⟨R.SRC_CFG n, 11, 1⟩
def F.SRC_CFG.SNSEL (n : Nat) : Fld := ⟨R.SRC_CFG n, 8, 3⟩
def F.SRC_CFG.GROUP (n : Nat) : Fld := ⟨R.SRC_CFG n, 4, 2⟩
def F.SRC_CFG.SEED (n : Nat) : Fld := ⟨R.SRC_CFG n, 2, 2⟩
def F.SRC_CFG.EN (n : Nat) : Fld := ⟨R.SRC_CFG n, 0, 1⟩
def R.SRC_LIMIT (n : Nat) : Nat := 0x30004 + n * 0x20
def F.SRC_LIMIT.SMAX (n : Nat) : Fld := ⟨R.SRC_LIMIT n, 16, 16⟩
def F.SRC_LIMIT.IDLE (n : Nat) : Fld := ⟨R.SRC_LIMIT n, 0, 16⟩
def R.SRC_PROT (n : Nat) : Nat := 0x30008 + n * 0x20
def F.SRC_PROT.SEEDLOSS (n : Nat) : Fld := ⟨R.SRC_PROT n, 16, 16⟩
def F.SRC_PROT.OCLIM (n : Nat) : Fld := ⟨R.SRC_PROT n, 0, 8⟩
def R.SRC_SET (n : Nat) : Nat := 0x3000C + n * 0x20
def F.SRC_SET.SETPOINT (n : Nat) : Fld := ⟨R.SRC_SET n, 0, 16⟩
def R.SRC_FADE (n : Nat) : Nat := 0x30010 + n * 0x20
def F.SRC_FADE.EXP (n : Nat) : Fld := ⟨R.SRC_FADE n, 16, 1⟩
def F.SRC_FADE.FADE_MS (n : Nat) : Fld := ⟨R.SRC_FADE n, 0, 16⟩
def R.SRC_SYNC : Nat := 0x30100
def F.SRC_SYNC.RNDSEL : Fld := ⟨R.SRC_SYNC, 4, 2⟩
def F.SRC_SYNC.PEND : Fld := ⟨R.SRC_SYNC, 2, 1⟩
def F.SRC_SYNC.ARMRND : Fld := ⟨R.SRC_SYNC, 1, 1⟩
def F.SRC_SYNC.GO : Fld := ⟨R.SRC_SYNC, 0, 1⟩
def R.SRC_STAT (n : Nat) : Nat := 0x30014 + n * 0x20
def F.SRC_STAT.NOW (n : Nat) : Fld := ⟨R.SRC_STAT n, 16, 16⟩
def F.SRC_STAT.FAULT (n : Nat) : Fld := ⟨R.SRC_STAT n, 13, 3⟩
def F.SRC_STAT.THMODE (n : Nat) : Fld := ⟨R.SRC_STAT n, 11, 1⟩
def F.SRC_STAT.THLIM (n : Nat) : Fld := ⟨R.SRC_STAT n, 10, 1⟩
def F.SRC_STAT.UNSEED (n : Nat) : Fld := ⟨R.SRC_STAT n, 9, 1⟩
def F.SRC_STAT.HELD (n : Nat) : Fld := ⟨R.SRC_STAT n, 8, 1⟩
def F.SRC_STAT.FADING (n : Nat) : Fld := ⟨R.SRC_STAT n, 7, 1⟩
def F.SRC_STAT.STAGED (n : Nat) : Fld := ⟨R.SRC_STAT n, 6, 1⟩
def R.SRC_THERM : Nat := 0x30108
def F.SRC_THERM.KNEE : Fld := ⟨R.SRC_THERM, 16, 16⟩
def F.SRC_THERM.DERATE : Fld := ⟨R.SRC_THERM, 8, 8⟩
def R.SRC_TBL_IDX : Nat := 0x3010C
def F.SRC_TBL_IDX.INDEX : Fld := ⟨R.SRC_TBL_IDX, 0, 6⟩
def R.SRC_TBL_DATA (k : Nat) : Nat := winKey 0x30110 k
def F.SRC_TBL_DATA.TEMP (k : Nat) : Fld := ⟨R.SRC_TBL_DATA k, 16, 16⟩
def F.SRC_TBL_DATA.LIMIT (k : Nat) : Fld := ⟨R.SRC_TBL_DATA k, 0, 16⟩
def R.SRC_GATEGRP : Nat := 0x30114
def F.SRC_GATEGRP.TRIG_B : Fld := ⟨R.SRC_GATEGRP, 6, 2⟩
def F.SRC_GATEGRP.TRIG_A : Fld := ⟨R.SRC_GATEGRP, 4, 2⟩
def F.SRC_GATEGRP.GATE_B : Fld := ⟨R.SRC_GATEGRP, 2, 2⟩
def F.SRC_GATEGRP.GATE_A : Fld := ⟨R.SRC_GATEGRP, 0, 2⟩
def R.SRC_GRP_CMD : Nat := 0x30118
def F.SRC_GRP_CMD.REARM : Fld := ⟨R.SRC_GRP_CMD, 0, 4⟩
def R.SRC_GRP (n : Nat) : Nat := 0x30120 + n * 0x4
def F.SRC_GRP.CAUSE (n : Nat) : Fld := ⟨R.SRC_GRP n, 12, 4⟩
def F.SRC_GRP.MEMBER (n : Nat) : Fld := ⟨R.SRC_GRP n, 8, 4⟩
def F.SRC_GRP.SHUT (n : Nat) : Fld := ⟨R.SRC_GRP n, 1, 1⟩
def F.SRC_GRP.MODE (n : Nat) : Fld := ⟨R.SRC_GRP n, 0, 1⟩
def R.SRC_PLOSS (x : Nat) : Nat := 0x30200 + x * 0x80
def F.SRC_PLOSS.PDMIN (x : Nat) : Fld := ⟨R.SRC_PLOSS x, 24, 8⟩
def F.SRC_PLOSS.PDSEL (x : Nat) : Fld := ⟨R.SRC_PLOSS x, 16, 6⟩
def F.SRC_PLOSS.PDEN (x : Nat) : Fld := ⟨R.SRC_PLOSS x, 15, 1⟩
def F.SRC_PLOSS.TLOWCNT (x : Nat) : Fld := ⟨R.SRC_PLOSS x, 10, 2⟩
def F.SRC_PLOSS.LOWCNT (x : Nat) : Fld := ⟨R.SRC_PLOSS x, 8, 2⟩
def F.SRC_PLOSS.LESUSP (x : Nat) : Fld := ⟨R.SRC_PLOSS x, 0, 1⟩
def R.SRC_LEBASE (x : Nat) : Nat := 0x30204 + x * 0x80
def F.SRC_LEBASE.BASE (x : Nat) : Fld := ⟨R.SRC_LEBASE x, 0, 32⟩
def R.SRC_SELV (x : Nat) : Nat := 0x30208 + x * 0x80
def F.SRC_SELV.PSCALE (x : Nat) : Fld := ⟨R.SRC_SELV x, 24, 8⟩
def F.SRC_SELV.ABSDB (x : Nat) : Fld := ⟨R.SRC_SELV x, 16, 8⟩
def F.SRC_SELV.GTHR (x : Nat) : Fld := ⟨R.SRC_SELV x, 8, 8⟩
def F.SRC_SELV.FRES (x : Nat) : Fld := ⟨R.SRC_SELV x, 0, 8⟩
def R.SRC_SELVST (x : Nat) : Nat := 0x3020C + x * 0x80
def F.SRC_SELVST.STATE (x : Nat) : Fld := ⟨R.SRC_SELVST x, 29, 3⟩
def F.SRC_SELVST.CAUSE (x : Nat) : Fld := ⟨R.SRC_SELVST x, 26, 3⟩
def F.SRC_SELVST.POINT (x : Nat) : Fld := ⟨R.SRC_SELVST x, 0, 21⟩
def R.SLC_FGAIN : Nat := 0x40500
def F.SLC_FGAIN.REF_Q : Fld := ⟨R.SLC_FGAIN, 15, 3⟩
def F.SLC_FGAIN.REF_I : Fld := ⟨R.SLC_FGAIN, 12, 3⟩
def F.SLC_FGAIN.ST_B : Fld := ⟨R.SLC_FGAIN, 9, 3⟩
def F.SLC_FGAIN.AS_B : Fld := ⟨R.SLC_FGAIN, 6, 3⟩
def F.SLC_FGAIN.ST_A : Fld := ⟨R.SLC_FGAIN, 3, 3⟩
def F.SLC_FGAIN.AS_A : Fld := ⟨R.SLC_FGAIN, 0, 3⟩
def R.SLC_PROF (x n : Nat) : Nat := 0x40400 + x * 0x80 + n * 0x4
def F.SLC_PROF.EN (x n : Nat) : Fld := ⟨R.SLC_PROF x n, 31, 1⟩
def F.SLC_PROF.GAIN (x n : Nat) : Fld := ⟨R.SLC_PROF x n, 24, 3⟩
def F.SLC_PROF.OFFSET (x n : Nat) : Fld := ⟨R.SLC_PROF x n, 0, 21⟩
def R.SLC_PSTAGE (x : Nat) : Nat := 0x40420 + x * 0x80
def F.SLC_PSTAGE.NACT (x : Nat) : Fld := ⟨R.SLC_PSTAGE x, 8, 4⟩
def F.SLC_PSTAGE.CODE (x : Nat) : Fld := ⟨R.SLC_PSTAGE x, 4, 4⟩
def F.SLC_PSTAGE.TRUNC (x : Nat) : Fld := ⟨R.SLC_PSTAGE x, 2, 1⟩
def F.SLC_PSTAGE.PEND (x : Nat) : Fld := ⟨R.SLC_PSTAGE x, 1, 1⟩
def F.SLC_PSTAGE.GO (x : Nat) : Fld := ⟨R.SLC_PSTAGE x, 0, 1⟩
def R.SLC_CALOFS (n : Nat) : Nat := 0x40008 + n * 0x40
def F.SLC_CALOFS.CALTEMP (n : Nat) : Fld := ⟨R.SLC_CALOFS n, 16, 16⟩
def F.SLC_CALOFS.OFS (n : Nat) : Fld := ⟨R.SLC_CALOFS n, 0, 16⟩
def R.SLC_CALSKEW (n : Nat) : Nat := 0x4000C + n * 0x40
def F.SLC_CALSKEW.SKEW (n : Nat) : Fld := ⟨R.SLC_CALSKEW n, 0, 8⟩
def R.SLC_GCAL_IDX : Nat := 0x40520
def F.SLC_GCAL_IDX.INDEX : Fld := ⟨R.SLC_GCAL_IDX, 0, 7⟩
def R.SLC_GCAL_DATA (k : Nat) : Nat := winKey 0x40524 k
def F.SLC_GCAL_DATA.MAG (k : Nat) : Fld := ⟨R.SLC_GCAL_DATA k, 16, 16⟩
def F.SLC_GCAL_DATA.DELAY (k : Nat) : Fld := ⟨R.SLC_GCAL_DATA k, 0, 16⟩
def R.SLC_SPARE : Nat := 0x40518
def F.SLC_SPARE.STHR : Fld := ⟨R.SLC_SPARE, 24, 8⟩
def F.SLC_SPARE.CALAGE : Fld := ⟨R.SLC_SPARE, 16, 8⟩
def F.SLC_SPARE.CALDT : Fld := ⟨R.SLC_SPARE, 12, 4⟩
def F.SLC_SPARE.AUTOCAL : Fld := ⟨R.SLC_SPARE, 11, 1⟩
def F.SLC_SPARE.SHDW_RND : Fld := ⟨R.SLC_SPARE, 0, 8⟩
def R.SLC_CAL_CMD : Nat := 0x40510
def F.SLC_CAL_CMD.INTRUSIVE : Fld := ⟨R.SLC_CAL_CMD, 9, 1⟩
def F.SLC_CAL_CMD.KEEP : Fld := ⟨R.SLC_CAL_CMD, 8, 1⟩
def F.SLC_CAL_CMD.SLICE : Fld := ⟨R.SLC_CAL_CMD, 4, 4⟩
def F.SLC_CAL_CMD.ABORT : Fld := ⟨R.SLC_CAL_CMD, 1, 1⟩
def F.SLC_CAL_CMD.START : Fld := ⟨R.SLC_CAL_CMD, 0, 1⟩
def R.SLC_CAL_STAT : Nat := 0x40514
def F.SLC_CAL_STAT.RESULT : Fld := ⟨R.SLC_CAL_STAT, 28, 4⟩
def F.SLC_CAL_STAT.SLICE : Fld := ⟨R.SLC_CAL_STAT, 24, 4⟩
def F.SLC_CAL_STAT.PHASE : Fld := ⟨R.SLC_CAL_STAT, 21, 3⟩
def F.SLC_CAL_STAT.BUSY : Fld := ⟨R.SLC_CAL_STAT, 0, 1⟩
def R.SLC_STAT (n : Nat) : Nat := 0x40000 + n * 0x40
def F.SLC_STAT.FUNC (n : Nat) : Fld := ⟨R.SLC_STAT n, 28, 4⟩
def F.SLC_STAT.MODE (n : Nat) : Fld := ⟨R.SLC_STAT n, 25, 3⟩
def F.SLC_STAT.GAIN (n : Nat) : Fld := ⟨R.SLC_STAT n, 22, 3⟩
def F.SLC_STAT.FAULT (n : Nat) : Fld := ⟨R.SLC_STAT n, 19, 3⟩
def F.SLC_STAT.OVRLONG (n : Nat) : Fld := ⟨R.SLC_STAT n, 3, 1⟩
def F.SLC_STAT.OVR (n : Nat) : Fld := ⟨R.SLC_STAT n, 2, 1⟩
def R.SLC_OVRCNT (n : Nat) : Nat := 0x40004 + n * 0x40
def F.SLC_OVRCNT.COUNT (n : Nat) : Fld := ⟨R.SLC_OVRCNT n, 0, 32⟩
def R.SLC_ROLE0 : Nat := 0x40504
def F.SLC_ROLE0.F7 : Fld := ⟨R.SLC_ROLE0, 28, 4⟩
def F.SLC_ROLE0.F6 : Fld := ⟨R.SLC_ROLE0, 24, 4⟩
def F.SLC_ROLE0.F5 : Fld := ⟨R.SLC_ROLE0, 20, 4⟩
def F.SLC_ROLE0.F4 : Fld := ⟨R.SLC_ROLE0, 16, 4⟩
def F.SLC_ROLE0.F3 : Fld := ⟨R.SLC_ROLE0, 12, 4⟩
def F.SLC_ROLE0.F2 : Fld := ⟨R.SLC_ROLE0, 8, 4⟩
def F.SLC_ROLE0.F1 : Fld := ⟨R.SLC_ROLE0, 4, 4⟩
def F.SLC_ROLE0.F0 : Fld := ⟨R.SLC_ROLE0, 0, 4⟩
def R.SLC_ROLE1 : Nat := 0x40508
def F.SLC_ROLE1.SPARE : Fld := ⟨R.SLC_ROLE1, 24, 4⟩
def F.SLC_ROLE1.F13 : Fld := ⟨R.SLC_ROLE1, 20, 4⟩
def F.SLC_ROLE1.F12 : Fld := ⟨R.SLC_ROLE1, 16, 4⟩
def F.SLC_ROLE1.F11 : Fld := ⟨R.SLC_ROLE1, 12, 4⟩
def F.SLC_ROLE1.F10 : Fld := ⟨R.SLC_ROLE1, 8, 4⟩
def F.SLC_ROLE1.F9 : Fld := ⟨R.SLC_ROLE1, 4, 4⟩
def F.SLC_ROLE1.F8 : Fld := ⟨R.SLC_ROLE1, 0, 4⟩
def R.FRP_CFG (x : Nat) : Nat := 0x50000 + x * 0x80
def F.FRP_CFG.FABS (x : Nat) : Fld := ⟨R.FRP_CFG x, 24, 6⟩
def F.FRP_CFG.FTH (x : Nat) : Fld := ⟨R.FRP_CFG x, 16, 8⟩
def F.FRP_CFG.STSH (x : Nat) : Fld := ⟨R.FRP_CFG x, 8, 4⟩
def F.FRP_CFG.AID (x : Nat) : Fld := ⟨R.FRP_CFG x, 4, 1⟩
def F.FRP_CFG.POLMODE (x : Nat) : Fld := ⟨R.FRP_CFG x, 0, 2⟩
def R.FRP_CDT (x : Nat) : Nat := 0x50004 + x * 0x80
def F.FRP_CDT.EMIT (x : Nat) : Fld := ⟨R.FRP_CDT x, 16, 16⟩
def F.FRP_CDT.RXSKEW (x : Nat) : Fld := ⟨R.FRP_CDT x, 0, 8⟩
def R.FRP_SCALE (x : Nat) : Nat := 0x50008 + x * 0x80
def F.FRP_SCALE.XI (x : Nat) : Fld := ⟨R.FRP_SCALE x, 21, 11⟩
def F.FRP_SCALE.LAMBDA (x : Nat) : Fld := ⟨R.FRP_SCALE x, 0, 21⟩
def R.FRP_HM0 (x : Nat) : Nat := 0x50010 + x * 0x80
def F.FRP_HM0.NDB (x : Nat) : Fld := ⟨R.FRP_HM0 x, 16, 16⟩
def F.FRP_HM0.MDB (x : Nat) : Fld := ⟨R.FRP_HM0 x, 0, 16⟩
def R.FRP_HM1 (x : Nat) : Nat := 0x50014 + x * 0x80
def F.FRP_HM1.GDB (x : Nat) : Fld := ⟨R.FRP_HM1 x, 16, 16⟩
def F.FRP_HM1.EDB (x : Nat) : Fld := ⟨R.FRP_HM1 x, 0, 16⟩
def R.FRP_NF (x : Nat) : Nat := 0x50018 + x * 0x80
def F.FRP_NF.VLD (x : Nat) : Fld := ⟨R.FRP_NF x, 16, 1⟩
def F.FRP_NF.NFDB (x : Nat) : Fld := ⟨R.FRP_NF x, 0, 16⟩
def R.FRP_STAT (x : Nat) : Nat := 0x5001C + x * 0x80
def F.FRP_STAT.SATSEEN (x : Nat) : Fld := ⟨R.FRP_STAT x, 3, 1⟩
def F.FRP_STAT.YDROP (x : Nat) : Fld := ⟨R.FRP_STAT x, 2, 1⟩
def F.FRP_STAT.XDROP (x : Nat) : Fld := ⟨R.FRP_STAT x, 1, 1⟩
def F.FRP_STAT.ACTIVE (x : Nat) : Fld := ⟨R.FRP_STAT x, 0, 1⟩
def R.FRP_CD_CFG : Nat := 0x50100
def F.FRP_CD_CFG.EN : Fld := ⟨R.FRP_CD_CFG, 31, 1⟩
def F.FRP_CD_CFG.CSGN : Fld := ⟨R.FRP_CD_CFG, 30, 1⟩
def F.FRP_CD_CFG.CTC : Fld := ⟨R.FRP_CD_CFG, 20, 4⟩
def F.FRP_CD_CFG.DREF : Fld := ⟨R.FRP_CD_CFG, 0, 13⟩
def R.FRP_CD_LOCK : Nat := 0x50104
def F.FRP_CD_LOCK.LOCKMIN : Fld := ⟨R.FRP_CD_LOCK, 0, 16⟩
def R.FRP_CD_STAT : Nat := 0x50108
def F.FRP_CD_STAT.AMP : Fld := ⟨R.FRP_CD_STAT, 16, 16⟩
def F.FRP_CD_STAT.SLIP : Fld := ⟨R.FRP_CD_STAT, 2, 1⟩
def F.FRP_CD_STAT.LOST : Fld := ⟨R.FRP_CD_STAT, 1, 1⟩
def F.FRP_CD_STAT.LOCK : Fld := ⟨R.FRP_CD_STAT, 0, 1⟩
def R.CMT_STAT (x : Nat) : Nat := 0x60000 + x * 0x80
def F.CMT_STAT.HELDRUN (x : Nat) : Fld := ⟨R.CMT_STAT x, 7, 1⟩
def F.CMT_STAT.OVERLEN (x : Nat) : Fld := ⟨R.CMT_STAT x, 3, 1⟩
def F.CMT_STAT.STATE (x : Nat) : Fld := ⟨R.CMT_STAT x, 0, 3⟩
def R.CMT_CRND (x : Nat) : Nat := 0x60004 + x * 0x80
def F.CMT_CRND.RND (x : Nat) : Fld := ⟨R.CMT_CRND x, 0, 32⟩
def R.CMT_BAD (x : Nat) : Nat := 0x60008 + x * 0x80
def F.CMT_BAD.COUNT (x : Nat) : Fld := ⟨R.CMT_BAD x, 0, 32⟩
def R.CMT_ROLL (x : Nat) : Nat := 0x6000C + x * 0x80
def F.CMT_ROLL.COUNT (x : Nat) : Fld := ⟨R.CMT_ROLL x, 0, 32⟩
def R.CMT_ERASE (x : Nat) : Nat := 0x60010 + x * 0x80
def F.CMT_ERASE.COUNT (x : Nat) : Fld := ⟨R.CMT_ERASE x, 0, 32⟩
def R.CMT_TBAD (x : Nat) : Nat := 0x60024 + x * 0x80
def F.CMT_TBAD.COUNT (x : Nat) : Fld := ⟨R.CMT_TBAD x, 0, 32⟩
def R.CMT_LAST (x : Nat) : Nat := 0x60014 + x * 0x80
def F.CMT_LAST.RND (x : Nat) : Fld := ⟨R.CMT_LAST x, 16, 16⟩
def F.CMT_LAST.PART (x : Nat) : Fld := ⟨R.CMT_LAST x, 15, 1⟩
def F.CMT_LAST.TONE (x : Nat) : Fld := ⟨R.CMT_LAST x, 12, 2⟩
def F.CMT_LAST.CAUSE (x : Nat) : Fld := ⟨R.CMT_LAST x, 0, 9⟩
def R.CMT_LSEQ_LO (x : Nat) : Nat := 0x60018 + x * 0x80
def F.CMT_LSEQ_LO.SEQ_LO (x : Nat) : Fld := ⟨R.CMT_LSEQ_LO x, 0, 32⟩
def R.CMT_LSEQ_HI (x : Nat) : Nat := 0x6001C + x * 0x80
def F.CMT_LSEQ_HI.SEQ_HI (x : Nat) : Fld := ⟨R.CMT_LSEQ_HI x, 0, 16⟩
def R.CMT_RPL (x : Nat) : Nat := 0x60020 + x * 0x80
def F.CMT_RPL.RPLMAX (x : Nat) : Fld := ⟨R.CMT_RPL x, 0, 16⟩
def R.FLT_DSCFG (x n : Nat) : Nat := 0x70000 + x * 0x80 + n * 0x10
def F.FLT_DSCFG.EN (x n : Nat) : Fld := ⟨R.FLT_DSCFG x n, 31, 1⟩
def F.FLT_DSCFG.PRESET (x n : Nat) : Fld := ⟨R.FLT_DSCFG x n, 18, 2⟩
def F.FLT_DSCFG.RATIO (x n : Nat) : Fld := ⟨R.FLT_DSCFG x n, 0, 18⟩
def R.FLT_DSGDLY (x n : Nat) : Nat := 0x70004 + x * 0x80 + n * 0x10
def F.FLT_DSGDLY.GDLY (x n : Nat) : Fld := ⟨R.FLT_DSGDLY x n, 0, 23⟩
def R.FLT_DSGDUS (x n : Nat) : Nat := 0x70008 + x * 0x80 + n * 0x10
def F.FLT_DSGDUS.GDUS (x n : Nat) : Fld := ⟨R.FLT_DSGDUS x n, 0, 32⟩
def R.FLT_DSSTAT (x n : Nat) : Nat := 0x7000C + x * 0x80 + n * 0x10
def F.FLT_DSSTAT.SAT (x n : Nat) : Fld := ⟨R.FLT_DSSTAT x n, 31, 1⟩
def F.FLT_DSSTAT.LASTRST (x n : Nat) : Fld := ⟨R.FLT_DSSTAT x n, 20, 4⟩
def F.FLT_DSSTAT.UNSET (x n : Nat) : Fld := ⟨R.FLT_DSSTAT x n, 0, 19⟩
def R.FLT_AUX_IDX : Nat := 0x70200
def F.FLT_AUX_IDX.INDEX : Fld := ⟨R.FLT_AUX_IDX, 0, 6⟩
def R.FLT_AUX_CFG (k : Nat) : Nat := winKey 0x70204 k
def F.FLT_AUX_CFG.EN (k : Nat) : Fld := ⟨R.FLT_AUX_CFG k, 31, 1⟩
def F.FLT_AUX_CFG.PRESET (k : Nat) : Fld := ⟨R.FLT_AUX_CFG k, 18, 2⟩
def F.FLT_AUX_CFG.RATIO (k : Nat) : Fld := ⟨R.FLT_AUX_CFG k, 0, 18⟩
def R.FLT_AUX_GDLY (k : Nat) : Nat := winKey 0x70208 k
def F.FLT_AUX_GDLY.GDLY (k : Nat) : Fld := ⟨R.FLT_AUX_GDLY k, 0, 23⟩
def R.FLT_AUX_STAT (k : Nat) : Nat := winKey 0x7020C k
def F.FLT_AUX_STAT.SCNT (k : Nat) : Fld := ⟨R.FLT_AUX_STAT k, 8, 23⟩
def F.FLT_AUX_STAT.LASTRST (k : Nat) : Fld := ⟨R.FLT_AUX_STAT k, 4, 4⟩
def F.FLT_AUX_STAT.STALE (k : Nat) : Fld := ⟨R.FLT_AUX_STAT k, 2, 1⟩
def F.FLT_AUX_STAT.STATE (k : Nat) : Fld := ⟨R.FLT_AUX_STAT k, 0, 2⟩
def R.FLT_AUX_VAL (k : Nat) : Nat := winKey 0x70210 k
def F.FLT_AUX_VAL.PICOT (k : Nat) : Fld := ⟨R.FLT_AUX_VAL k, 16, 16⟩
def F.FLT_AUX_VAL.HOLD (k : Nat) : Fld := ⟨R.FLT_AUX_VAL k, 0, 16⟩
def R.LANE_STAT (x : Nat) : Nat := 0x80000 + x * 0x1000
def F.LANE_STAT.MODE (x : Nat) : Fld := ⟨R.LANE_STAT x, 29, 3⟩
def F.LANE_STAT.LL (x : Nat) : Fld := ⟨R.LANE_STAT x, 24, 5⟩
def F.LANE_STAT.FAULT (x : Nat) : Fld := ⟨R.LANE_STAT x, 20, 4⟩
def F.LANE_STAT.TRAP (x : Nat) : Fld := ⟨R.LANE_STAT x, 16, 4⟩
def F.LANE_STAT.OVERRUN (x : Nat) : Fld := ⟨R.LANE_STAT x, 3, 1⟩
def F.LANE_STAT.WAIT (x : Nat) : Fld := ⟨R.LANE_STAT x, 2, 1⟩
def F.LANE_STAT.PROG (x : Nat) : Fld := ⟨R.LANE_STAT x, 0, 1⟩
def R.LANE_PC (x : Nat) : Nat := 0x80004 + x * 0x1000
def F.LANE_PC.FL (x : Nat) : Fld := ⟨R.LANE_PC x, 16, 6⟩
def F.LANE_PC.PC (x : Nat) : Fld := ⟨R.LANE_PC x, 0, 12⟩
def R.LANE_UTIL (x : Nat) : Nat := 0x80008 + x * 0x1000
def F.LANE_UTIL.UDECL (x : Nat) : Fld := ⟨R.LANE_UTIL x, 16, 16⟩
def F.LANE_UTIL.UCUR (x : Nat) : Fld := ⟨R.LANE_UTIL x, 0, 16⟩
def R.LANE_UPEAK (x : Nat) : Nat := 0x8000C + x * 0x1000
def F.LANE_UPEAK.UPEAK (x : Nat) : Fld := ⟨R.LANE_UPEAK x, 0, 16⟩
def R.LANE_CYCMAX (x : Nat) : Nat := 0x80010 + x * 0x1000
def F.LANE_CYCMAX.CYC (x : Nat) : Fld := ⟨R.LANE_CYCMAX x, 0, 32⟩
def R.LANE_ECC (x : Nat) : Nat := 0x80014 + x * 0x1000
def F.LANE_ECC.CORR (x : Nat) : Fld := ⟨R.LANE_ECC x, 0, 16⟩
def R.LANE_CKPT (x : Nat) : Nat := 0x80018 + x * 0x1000
def F.LANE_CKPT.NEWEST (x : Nat) : Fld := ⟨R.LANE_CKPT x, 16, 16⟩
def F.LANE_CKPT.HELD (x : Nat) : Fld := ⟨R.LANE_CKPT x, 0, 4⟩
def R.LANE_INCFG (x n : Nat) : Nat := 0x80020 + x * 0x1000 + n * 0x10
def F.LANE_INCFG.EN (x n : Nat) : Fld := ⟨R.LANE_INCFG x n, 31, 1⟩
def F.LANE_INCFG.SHIFT (x n : Nat) : Fld := ⟨R.LANE_INCFG x n, 24, 5⟩
def F.LANE_INCFG.BOBBIN (x n : Nat) : Fld := ⟨R.LANE_INCFG x n, 16, 7⟩
def R.LANE_INFST (x n : Nat) : Nat := 0x80024 + x * 0x1000 + n * 0x10
def F.LANE_INFST.FIRST (x n : Nat) : Fld := ⟨R.LANE_INFST x n, 0, 19⟩
def R.LANE_INCNT (x n : Nat) : Nat := 0x80028 + x * 0x1000 + n * 0x10
def F.LANE_INCNT.COUNT (x n : Nat) : Fld := ⟨R.LANE_INCNT x n, 0, 19⟩
def R.LANE_INCYC (x n : Nat) : Nat := 0x8002C + x * 0x1000 + n * 0x10
def F.LANE_INCYC.CYC (x n : Nat) : Fld := ⟨R.LANE_INCYC x n, 0, 32⟩
def R.LANE_OUT (x n : Nat) : Nat := 0x80060 + x * 0x1000 + n * 0x4
def F.LANE_OUT.EN (x n : Nat) : Fld := ⟨R.LANE_OUT x n, 31, 1⟩
def F.LANE_OUT.BOBBIN (x n : Nat) : Fld := ⟨R.LANE_OUT x n, 0, 7⟩
def R.LANE_K (x n : Nat) : Nat := 0x80080 + x * 0x1000 + n * 0x4
def F.LANE_K.VALUE (x n : Nat) : Fld := ⟨R.LANE_K x n, 0, 32⟩
def R.LANE_KSTAT (x : Nat) : Nat := 0x800A0 + x * 0x1000
def F.LANE_KSTAT.PEND (x : Nat) : Fld := ⟨R.LANE_KSTAT x, 0, 1⟩
def R.DTS_CFG (x : Nat) : Nat := 0xA1000 + x * 0x80
def F.DTS_CFG.EN (x : Nat) : Fld := ⟨R.DTS_CFG x, 31, 1⟩
def F.DTS_CFG.DUAL (x : Nat) : Fld := ⟨R.DTS_CFG x, 30, 1⟩
def F.DTS_CFG.FIXED (x : Nat) : Fld := ⟨R.DTS_CFG x, 29, 1⟩
def F.DTS_CFG.LL (x : Nat) : Fld := ⟨R.DTS_CFG x, 24, 5⟩
def F.DTS_CFG.AVGEXP (x : Nat) : Fld := ⟨R.DTS_CFG x, 16, 5⟩
def F.DTS_CFG.SNSEL (x : Nat) : Fld := ⟨R.DTS_CFG x, 12, 3⟩
def F.DTS_CFG.WB (x : Nat) : Fld := ⟨R.DTS_CFG x, 0, 9⟩
def R.DTS_START (x : Nat) : Nat := 0xA1004 + x * 0x80
def F.DTS_START.START (x : Nat) : Fld := ⟨R.DTS_START x, 0, 20⟩
def R.DTS_NBIN (x : Nat) : Nat := 0xA1008 + x * 0x80
def F.DTS_NBIN.COUNT (x : Nat) : Fld := ⟨R.DTS_NBIN x, 0, 18⟩
def R.DTS_RLRP (x : Nat) : Nat := 0xA100C + x * 0x80
def F.DTS_RLRP.DELAY (x : Nat) : Fld := ⟨R.DTS_RLRP x, 0, 16⟩
def R.DTS_REF (x : Nat) : Nat := 0xA1010 + x * 0x80
def F.DTS_REF.REFCNT (x : Nat) : Fld := ⟨R.DTS_REF x, 20, 12⟩
def F.DTS_REF.REFSTART (x : Nat) : Fld := ⟨R.DTS_REF x, 0, 17⟩
def R.DTS_COEF (x : Nat) : Nat := 0xA1014 + x * 0x80
def F.DTS_COEF.DALPHA (x : Nat) : Fld := ⟨R.DTS_COEF x, 16, 16⟩
def F.DTS_COEF.GAMMA (x : Nat) : Fld := ⟨R.DTS_COEF x, 0, 16⟩
def R.DTS_LNC (x : Nat) : Nat := 0xA1018 + x * 0x80
def F.DTS_LNC.LNC (x : Nat) : Fld := ⟨R.DTS_LNC x, 0, 32⟩
def R.DTS_LNCACT (x : Nat) : Nat := 0xA1024 + x * 0x80
def F.DTS_LNCACT.LNCACT (x : Nat) : Fld := ⟨R.DTS_LNCACT x, 0, 32⟩
def R.DTS_BOB (x : Nat) : Nat := 0xA101C + x * 0x80
def F.DTS_BOB.OUT (x : Nat) : Fld := ⟨R.DTS_BOB x, 8, 7⟩
def F.DTS_BOB.RAW (x : Nat) : Fld := ⟨R.DTS_BOB x, 0, 7⟩
def R.DTS_STAT (x : Nat) : Nat := 0xA1020 + x * 0x80
def F.DTS_STAT.ERR (x : Nat) : Fld := ⟨R.DTS_STAT x, 28, 4⟩
def F.DTS_STAT.STATE (x : Nat) : Fld := ⟨R.DTS_STAT x, 26, 2⟩
def F.DTS_STAT.REFHOLD (x : Nat) : Fld := ⟨R.DTS_STAT x, 25, 1⟩
def F.DTS_STAT.LOSTSEEN (x : Nat) : Fld := ⟨R.DTS_STAT x, 24, 1⟩
def F.DTS_STAT.NBACT (x : Nat) : Fld := ⟨R.DTS_STAT x, 0, 18⟩
def R.DTS_PER (x : Nat) : Nat := 0xA1028 + x * 0x80
def F.DTS_PER.K (x : Nat) : Fld := ⟨R.DTS_PER x, 0, 32⟩
def R.DTS_GOOD (x : Nat) : Nat := 0xA102C + x * 0x80
def F.DTS_GOOD.GOOD (x : Nat) : Fld := ⟨R.DTS_GOOD x, 0, 25⟩
def R.DTS_LOOP : Nat := 0xA1100
def F.DTS_LOOP.LOOP : Fld := ⟨R.DTS_LOOP, 0, 20⟩
def R.HK_CTL : Nat := 0xB0000
def F.HK_CTL.TLEN : Fld := ⟨R.HK_CTL, 24, 6⟩
def F.HK_CTL.VNOM : Fld := ⟨R.HK_CTL, 12, 12⟩
def F.HK_CTL.REFSEL : Fld := ⟨R.HK_CTL, 8, 2⟩
def F.HK_CTL.MONEN : Fld := ⟨R.HK_CTL, 4, 1⟩
def F.HK_CTL.MODE : Fld := ⟨R.HK_CTL, 0, 1⟩
def R.HK_RCFG : Nat := 0xB0004
def F.HK_RCFG.DLY : Fld := ⟨R.HK_RCFG, 16, 16⟩
def F.HK_RCFG.SRC : Fld := ⟨R.HK_RCFG, 8, 4⟩
def F.HK_RCFG.LEN : Fld := ⟨R.HK_RCFG, 0, 6⟩
def R.HK_ICFG : Nat := 0xB0008
def F.HK_ICFG.DLY : Fld := ⟨R.HK_ICFG, 16, 16⟩
def F.HK_ICFG.SRC : Fld := ⟨R.HK_ICFG, 8, 4⟩
def F.HK_ICFG.LEN : Fld := ⟨R.HK_ICFG, 0, 6⟩
def R.HK_TIMER : Nat := 0xB000C
def F.HK_TIMER.PERIOD : Fld := ⟨R.HK_TIMER, 0, 32⟩
def R.HK_SWTRIG : Nat := 0xB0010
def F.HK_SWTRIG.IGO : Fld := ⟨R.HK_SWTRIG, 1, 1⟩
def F.HK_SWTRIG.RGO : Fld := ⟨R.HK_SWTRIG, 0, 1⟩
def R.HK_STAT : Nat := 0xB0014
def F.HK_STAT.EYERR : Fld := ⟨R.HK_STAT, 16, 1⟩
def F.HK_STAT.REFERR : Fld := ⟨R.HK_STAT, 15, 1⟩
def F.HK_STAT.IOVR : Fld := ⟨R.HK_STAT, 14, 1⟩
def F.HK_STAT.ROVR : Fld := ⟨R.HK_STAT, 13, 1⟩
def F.HK_STAT.SHMIS : Fld := ⟨R.HK_STAT, 12, 1⟩
def F.HK_STAT.IDLEST : Fld := ⟨R.HK_STAT, 9, 3⟩
def F.HK_STAT.ACTIVE : Fld := ⟨R.HK_STAT, 8, 1⟩
def F.HK_STAT.REF_OK : Fld := ⟨R.HK_STAT, 4, 1⟩
def F.HK_STAT.RUN : Fld := ⟨R.HK_STAT, 0, 2⟩
def R.HK_RSEQ (n : Nat) : Nat := 0xB0100 + n * 0x4
def F.HK_RSEQ.SMPX (n : Nat) : Fld := ⟨R.HK_RSEQ n, 8, 4⟩
def F.HK_RSEQ.INPUT (n : Nat) : Fld := ⟨R.HK_RSEQ n, 0, 6⟩
def R.HK_ISEQ (n : Nat) : Nat := 0xB0180 + n * 0x4
def F.HK_ISEQ.SMPX (n : Nat) : Fld := ⟨R.HK_ISEQ n, 8, 4⟩
def F.HK_ISEQ.INPUT (n : Nat) : Fld := ⟨R.HK_ISEQ n, 0, 6⟩
def R.HK_TBL_IDX : Nat := 0xB0018
def F.HK_TBL_IDX.INDEX : Fld := ⟨R.HK_TBL_IDX, 0, 6⟩
def R.HK_TBL_DATA (k : Nat) : Nat := winKey 0xB001C k
def F.HK_TBL_DATA.DELAY (k : Nat) : Fld := ⟨R.HK_TBL_DATA k, 16, 16⟩
def F.HK_TBL_DATA.REPEAT (k : Nat) : Fld := ⟨R.HK_TBL_DATA k, 12, 4⟩
def F.HK_TBL_DATA.SLOT (k : Nat) : Fld := ⟨R.HK_TBL_DATA k, 6, 6⟩
def F.HK_TBL_DATA.INPUT (k : Nat) : Fld := ⟨R.HK_TBL_DATA k, 0, 6⟩
def R.HK_CAL : Nat := 0xB0020
def F.HK_CAL.PER : Fld := ⟨R.HK_CAL, 24, 8⟩
def F.HK_CAL.DT : Fld := ⟨R.HK_CAL, 20, 4⟩
def F.HK_CAL.RESULT : Fld := ⟨R.HK_CAL, 12, 4⟩
def F.HK_CAL.AUTOCAL : Fld := ⟨R.HK_CAL, 2, 1⟩
def F.HK_CAL.INTRUSIVE : Fld := ⟨R.HK_CAL, 1, 1⟩
def F.HK_CAL.START : Fld := ⟨R.HK_CAL, 0, 1⟩
def R.HK_COEF_A : Nat := 0xB0024
def F.HK_COEF_A.GAIN : Fld := ⟨R.HK_COEF_A, 16, 16⟩
def F.HK_COEF_A.OFS : Fld := ⟨R.HK_COEF_A, 0, 16⟩
def R.HK_COEF_B : Nat := 0xB0028
def F.HK_COEF_B.GAIN : Fld := ⟨R.HK_COEF_B, 16, 16⟩
def F.HK_COEF_B.OFS : Fld := ⟨R.HK_COEF_B, 0, 16⟩
def R.HK_PDDLY : Nat := 0xB002C
def F.HK_PDDLY.DLY_B : Fld := ⟨R.HK_PDDLY, 16, 16⟩
def F.HK_PDDLY.DLY_A : Fld := ⟨R.HK_PDDLY, 0, 16⟩
def R.HK_AIN : Nat := 0xB0030
def F.HK_AIN.CLAMP : Fld := ⟨R.HK_AIN, 8, 8⟩
def F.HK_AIN.RANGE : Fld := ⟨R.HK_AIN, 0, 8⟩
def R.HK_EYE : Nat := 0xB0034
def F.HK_EYE.DIV : Fld := ⟨R.HK_EYE, 12, 2⟩
def F.HK_EYE.CODE : Fld := ⟨R.HK_EYE, 0, 12⟩
def R.HK_TEST : Nat := 0xB0038
def F.HK_TEST.TPER : Fld := ⟨R.HK_TEST, 24, 8⟩
def F.HK_TEST.TOL : Fld := ⟨R.HK_TEST, 16, 8⟩
def F.HK_TEST.GO : Fld := ⟨R.HK_TEST, 15, 1⟩
def F.HK_TEST.BUSY : Fld := ⟨R.HK_TEST, 14, 1⟩
def F.HK_TEST.INPUT : Fld := ⟨R.HK_TEST, 0, 6⟩
def R.HK_TFAIL : Nat := 0xB003C
def F.HK_TFAIL.FAIL : Fld := ⟨R.HK_TFAIL, 0, 32⟩
def R.HK_RES (n : Nat) : Nat := 0xB0200 + n * 0x4
def F.HK_RES.NEW (n : Nat) : Fld := ⟨R.HK_RES n, 31, 1⟩
def F.HK_RES.OVR (n : Nat) : Fld := ⟨R.HK_RES n, 30, 1⟩
def F.HK_RES.CLAMP (n : Nat) : Fld := ⟨R.HK_RES n, 29, 1⟩
def F.HK_RES.DISC (n : Nat) : Fld := ⟨R.HK_RES n, 28, 1⟩
def F.HK_RES.DELAYED (n : Nat) : Fld := ⟨R.HK_RES n, 27, 1⟩
def F.HK_RES.CONV (n : Nat) : Fld := ⟨R.HK_RES n, 26, 1⟩
def F.HK_RES.QUAL (n : Nat) : Fld := ⟨R.HK_RES n, 16, 8⟩
def F.HK_RES.VALUE (n : Nat) : Fld := ⟨R.HK_RES n, 0, 16⟩
def R.HK_MON (n : Nat) : Nat := 0xB0300 + n * 0x4
def F.HK_MON.NEW (n : Nat) : Fld := ⟨R.HK_MON n, 31, 1⟩
def F.HK_MON.OVR (n : Nat) : Fld := ⟨R.HK_MON n, 30, 1⟩
def F.HK_MON.CLAMP (n : Nat) : Fld := ⟨R.HK_MON n, 29, 1⟩
def F.HK_MON.DISC (n : Nat) : Fld := ⟨R.HK_MON n, 28, 1⟩
def F.HK_MON.DELAYED (n : Nat) : Fld := ⟨R.HK_MON n, 27, 1⟩
def F.HK_MON.CONV (n : Nat) : Fld := ⟨R.HK_MON n, 26, 1⟩
def F.HK_MON.QUAL (n : Nat) : Fld := ⟨R.HK_MON n, 16, 8⟩
def F.HK_MON.VALUE (n : Nat) : Fld := ⟨R.HK_MON n, 0, 16⟩
def R.HK_PDRES (n : Nat) : Nat := 0xB0040 + n * 0x4
def F.HK_PDRES.NEW (n : Nat) : Fld := ⟨R.HK_PDRES n, 31, 1⟩
def F.HK_PDRES.OVR (n : Nat) : Fld := ⟨R.HK_PDRES n, 30, 1⟩
def F.HK_PDRES.CLAMP (n : Nat) : Fld := ⟨R.HK_PDRES n, 29, 1⟩
def F.HK_PDRES.DISC (n : Nat) : Fld := ⟨R.HK_PDRES n, 28, 1⟩
def F.HK_PDRES.DELAYED (n : Nat) : Fld := ⟨R.HK_PDRES n, 27, 1⟩
def F.HK_PDRES.CONV (n : Nat) : Fld := ⟨R.HK_PDRES n, 26, 1⟩
def F.HK_PDRES.QUAL (n : Nat) : Fld := ⟨R.HK_PDRES n, 16, 8⟩
def F.HK_PDRES.VALUE (n : Nat) : Fld := ⟨R.HK_PDRES n, 0, 16⟩
def R.SEN_CFG (n : Nat) : Nat := 0xC0000 + n * 0x20
def F.SEN_CFG.EN (n : Nat) : Fld := ⟨R.SEN_CFG n, 31, 1⟩
def F.SEN_CFG.WIRE (n : Nat) : Fld := ⟨R.SEN_CFG n, 29, 2⟩
def F.SEN_CFG.CONV (n : Nat) : Fld := ⟨R.SEN_CFG n, 27, 2⟩
def F.SEN_CFG.CHKEN (n : Nat) : Fld := ⟨R.SEN_CFG n, 26, 1⟩
def R.SEN_EXC (n : Nat) : Nat := 0xC0004 + n * 0x20
def F.SEN_EXC.EXON (n : Nat) : Fld := ⟨R.SEN_EXC n, 11, 1⟩
def F.SEN_EXC.GAIN (n : Nat) : Fld := ⟨R.SEN_EXC n, 8, 3⟩
def F.SEN_EXC.POL (n : Nat) : Fld := ⟨R.SEN_EXC n, 3, 1⟩
def F.SEN_EXC.ISEL (n : Nat) : Fld := ⟨R.SEN_EXC n, 0, 3⟩
def R.SEN_LEAD (n : Nat) : Nat := 0xC0008 + n * 0x20
def F.SEN_LEAD.RMEAS (n : Nat) : Fld := ⟨R.SEN_LEAD n, 16, 16⟩
def F.SEN_LEAD.RCFG (n : Nat) : Fld := ⟨R.SEN_LEAD n, 0, 16⟩
def R.SEN_ZLIM (n : Nat) : Nat := 0xC000C + n * 0x20
def F.SEN_ZLIM.ZMAX (n : Nat) : Fld := ⟨R.SEN_ZLIM n, 16, 16⟩
def F.SEN_ZLIM.ZMIN (n : Nat) : Fld := ⟨R.SEN_ZLIM n, 0, 16⟩
def R.SEN_STAT (n : Nat) : Nat := 0xC0010 + n * 0x20
def F.SEN_STAT.ZMEAS (n : Nat) : Fld := ⟨R.SEN_STAT n, 16, 16⟩
def F.SEN_STAT.IMPF (n : Nat) : Fld := ⟨R.SEN_STAT n, 7, 1⟩
def F.SEN_STAT.CLAMP (n : Nat) : Fld := ⟨R.SEN_STAT n, 6, 1⟩
def F.SEN_STAT.OOR (n : Nat) : Fld := ⟨R.SEN_STAT n, 5, 1⟩
def F.SEN_STAT.PROV (n : Nat) : Fld := ⟨R.SEN_STAT n, 4, 1⟩
def F.SEN_STAT.CHK (n : Nat) : Fld := ⟨R.SEN_STAT n, 3, 1⟩
def F.SEN_STAT.DISC (n : Nat) : Fld := ⟨R.SEN_STAT n, 2, 1⟩
def R.SEN_OUT (n : Nat) : Nat := 0xC0014 + n * 0x20
def F.SEN_OUT.QUAL (n : Nat) : Fld := ⟨R.SEN_OUT n, 16, 8⟩
def F.SEN_OUT.VALUE (n : Nat) : Fld := ⟨R.SEN_OUT n, 0, 16⟩
def R.SEN_CHK : Nat := 0xC0100
def F.SEN_CHK.CHKPER : Fld := ⟨R.SEN_CHK, 0, 8⟩
def R.LOOP_CFG (n : Nat) : Nat := 0xD0000 + n * 0x20
def F.LOOP_CFG.EN (n : Nat) : Fld := ⟨R.LOOP_CFG n, 31, 1⟩
def F.LOOP_CFG.MODE (n : Nat) : Fld := ⟨R.LOOP_CFG n, 29, 2⟩
def F.LOOP_CFG.FDIR (n : Nat) : Fld := ⟨R.LOOP_CFG n, 28, 1⟩
def F.LOOP_CFG.RBEN (n : Nat) : Fld := ⟨R.LOOP_CFG n, 27, 1⟩
def F.LOOP_CFG.ZLAST (n : Nat) : Fld := ⟨R.LOOP_CFG n, 16, 10⟩
def F.LOOP_CFG.ZFIRST (n : Nat) : Fld := ⟨R.LOOP_CFG n, 0, 10⟩
def R.LOOP_CUR0 (n : Nat) : Nat := 0xD0004 + n * 0x20
def F.LOOP_CUR0.I_W (n : Nat) : Fld := ⟨R.LOOP_CUR0 n, 16, 16⟩
def F.LOOP_CUR0.I_N (n : Nat) : Fld := ⟨R.LOOP_CUR0 n, 0, 16⟩
def R.LOOP_CUR1 (n : Nat) : Nat := 0xD0008 + n * 0x20
def F.LOOP_CUR1.FIX (n : Nat) : Fld := ⟨R.LOOP_CUR1 n, 16, 16⟩
def F.LOOP_CUR1.I_A (n : Nat) : Fld := ⟨R.LOOP_CUR1 n, 0, 16⟩
def R.LOOP_RNG (n : Nat) : Nat := 0xD000C + n * 0x20
def F.LOOP_RNG.HI (n : Nat) : Fld := ⟨R.LOOP_RNG n, 16, 16⟩
def F.LOOP_RNG.LO (n : Nat) : Fld := ⟨R.LOOP_RNG n, 0, 16⟩
def R.LOOP_STAT (n : Nat) : Nat := 0xD0010 + n * 0x20
def F.LOOP_STAT.NOW (n : Nat) : Fld := ⟨R.LOOP_STAT n, 16, 16⟩
def F.LOOP_STAT.RBTOL (n : Nat) : Fld := ⟨R.LOOP_STAT n, 8, 8⟩
def F.LOOP_STAT.BLANK (n : Nat) : Fld := ⟨R.LOOP_STAT n, 4, 1⟩
def F.LOOP_STAT.DEV (n : Nat) : Fld := ⟨R.LOOP_STAT n, 3, 1⟩
def F.LOOP_STAT.OPEN (n : Nat) : Fld := ⟨R.LOOP_STAT n, 2, 1⟩
def F.LOOP_STAT.WORST (n : Nat) : Fld := ⟨R.LOOP_STAT n, 0, 2⟩
def R.LOOP_ZSRC : Nat := 0xD0100
def F.LOOP_ZSRC.BOB0 : Fld := ⟨R.LOOP_ZSRC, 0, 7⟩
def F.LOOP_ZSRC.EN0 : Fld := ⟨R.LOOP_ZSRC, 7, 1⟩
def F.LOOP_ZSRC.BOB1 : Fld := ⟨R.LOOP_ZSRC, 8, 7⟩
def F.LOOP_ZSRC.EN1 : Fld := ⟨R.LOOP_ZSRC, 15, 1⟩
def F.LOOP_ZSRC.BOB2 : Fld := ⟨R.LOOP_ZSRC, 16, 7⟩
def F.LOOP_ZSRC.EN2 : Fld := ⟨R.LOOP_ZSRC, 23, 1⟩
def F.LOOP_ZSRC.BOB3 : Fld := ⟨R.LOOP_ZSRC, 24, 7⟩
def F.LOOP_ZSRC.EN3 : Fld := ⟨R.LOOP_ZSRC, 31, 1⟩
def R.LOOP_ZIDX : Nat := 0xD0110
def F.LOOP_ZIDX.INDEX : Fld := ⟨R.LOOP_ZIDX, 0, 10⟩
def R.LOOP_ZCFG0 (k : Nat) : Nat := winKey 0xD0114 k
def F.LOOP_ZCFG0.EN (k : Nat) : Fld := ⟨R.LOOP_ZCFG0 k, 31, 1⟩
def F.LOOP_ZCFG0.FIBRE (k : Nat) : Fld := ⟨R.LOOP_ZCFG0 k, 30, 1⟩
def F.LOOP_ZCFG0.CLASS (k : Nat) : Fld := ⟨R.LOOP_ZCFG0 k, 18, 4⟩
def F.LOOP_ZCFG0.FIRST (k : Nat) : Fld := ⟨R.LOOP_ZCFG0 k, 0, 18⟩
def R.LOOP_ZCFG1 (k : Nat) : Nat := winKey 0xD0118 k
def F.LOOP_ZCFG1.COUNT (k : Nat) : Fld := ⟨R.LOOP_ZCFG1 k, 0, 19⟩
def R.LOOP_ZST (k : Nat) : Nat := winKey 0xD011C k
def F.LOOP_ZST.LEVEL (k : Nat) : Fld := ⟨R.LOOP_ZST k, 16, 16⟩
def F.LOOP_ZST.LATCHED (k : Nat) : Fld := ⟨R.LOOP_ZST k, 2, 1⟩
def F.LOOP_ZST.STATE (k : Nat) : Fld := ⟨R.LOOP_ZST k, 0, 2⟩
def R.LOOP_ACK : Nat := 0xD0120
def F.LOOP_ACK.ALL : Fld := ⟨R.LOOP_ACK, 1, 1⟩
def F.LOOP_ACK.ONE : Fld := ⟨R.LOOP_ACK, 0, 1⟩
def R.LOOP_CIDX : Nat := 0xD0130
def F.LOOP_CIDX.INDEX : Fld := ⟨R.LOOP_CIDX, 0, 4⟩
def R.LOOP_CTH0 (k : Nat) : Nat := winKey 0xD0134 k
def F.LOOP_CTH0.W_ON (k : Nat) : Fld := ⟨R.LOOP_CTH0 k, 16, 16⟩
def F.LOOP_CTH0.W_OFF (k : Nat) : Fld := ⟨R.LOOP_CTH0 k, 0, 16⟩
def R.LOOP_CTH1 (k : Nat) : Nat := winKey 0xD0138 k
def F.LOOP_CTH1.A_ON (k : Nat) : Fld := ⟨R.LOOP_CTH1 k, 16, 16⟩
def F.LOOP_CTH1.A_OFF (k : Nat) : Fld := ⟨R.LOOP_CTH1 k, 0, 16⟩
def R.LOOP_CTIM (k : Nat) : Nat := winKey 0xD013C k
def F.LOOP_CTIM.RECALL (k : Nat) : Fld := ⟨R.LOOP_CTIM k, 30, 1⟩
def F.LOOP_CTIM.ALERT (k : Nat) : Fld := ⟨R.LOOP_CTIM k, 29, 1⟩
def F.LOOP_CTIM.LATCH (k : Nat) : Fld := ⟨R.LOOP_CTIM k, 28, 1⟩
def F.LOOP_CTIM.TMO (k : Nat) : Fld := ⟨R.LOOP_CTIM k, 16, 12⟩
def F.LOOP_CTIM.OFF_CNT (k : Nat) : Fld := ⟨R.LOOP_CTIM k, 8, 8⟩
def F.LOOP_CTIM.ON_CNT (k : Nat) : Fld := ⟨R.LOOP_CTIM k, 0, 8⟩
def R.LOOP_ALERT : Nat := 0xD0140
def F.LOOP_ALERT.LPACT : Fld := ⟨R.LOOP_ALERT, 3, 1⟩
def F.LOOP_ALERT.ZACT : Fld := ⟨R.LOOP_ALERT, 2, 1⟩
def F.LOOP_ALERT.LPEN : Fld := ⟨R.LOOP_ALERT, 1, 1⟩
def F.LOOP_ALERT.ZEN : Fld := ⟨R.LOOP_ALERT, 0, 1⟩
def R.GND_CFG : Nat := 0xE0000
def F.GND_CFG.AGELIM : Fld := ⟨R.GND_CFG, 0, 16⟩
def R.GND_STAT : Nat := 0xE0004
def F.GND_STAT.ERR : Fld := ⟨R.GND_STAT, 28, 4⟩
def F.GND_STAT.RPLB : Fld := ⟨R.GND_STAT, 2, 1⟩
def F.GND_STAT.RPLA : Fld := ⟨R.GND_STAT, 1, 1⟩
def F.GND_STAT.READY : Fld := ⟨R.GND_STAT, 0, 1⟩
def R.GND_TOTAL : Nat := 0xE0008
def F.GND_TOTAL.TOTAL : Fld := ⟨R.GND_TOTAL, 0, 23⟩
def R.GND_FREE : Nat := 0xE000C
def F.GND_FREE.FREE : Fld := ⟨R.GND_FREE, 0, 23⟩
def R.GND_SETBOB : Nat := 0xE0010
def F.GND_SETBOB.DS1B : Fld := ⟨R.GND_SETBOB, 24, 8⟩
def F.GND_SETBOB.DS0B : Fld := ⟨R.GND_SETBOB, 16, 8⟩
def F.GND_SETBOB.DS1A : Fld := ⟨R.GND_SETBOB, 8, 8⟩
def F.GND_SETBOB.DS0A : Fld := ⟨R.GND_SETBOB, 0, 8⟩
def R.GND_AUXBOB : Nat := 0xE0014
def F.GND_AUXBOB.EN : Fld := ⟨R.GND_AUXBOB, 7, 1⟩
def F.GND_AUXBOB.BOB : Fld := ⟨R.GND_AUXBOB, 0, 7⟩
def R.GND_BUDGET : Nat := 0xE0018
def F.GND_BUDGET.DW : Fld := ⟨R.GND_BUDGET, 16, 16⟩
def F.GND_BUDGET.DT : Fld := ⟨R.GND_BUDGET, 0, 16⟩
def R.GND_LATE : Nat := 0xE001C
def F.GND_LATE.COUNT : Fld := ⟨R.GND_LATE, 0, 32⟩
def R.GND_BIDX : Nat := 0xE0020
def F.GND_BIDX.INDEX : Fld := ⟨R.GND_BIDX, 0, 7⟩
def R.GND_BCFG (k : Nat) : Nat := winKey 0xE0024 k
def F.GND_BCFG.EN (k : Nat) : Fld := ⟨R.GND_BCFG k, 31, 1⟩
def F.GND_BCFG.PLACE (k : Nat) : Fld := ⟨R.GND_BCFG k, 30, 1⟩
def F.GND_BCFG.POLICY (k : Nat) : Fld := ⟨R.GND_BCFG k, 29, 1⟩
def F.GND_BCFG.QUOTA (k : Nat) : Fld := ⟨R.GND_BCFG k, 0, 23⟩
def R.GND_BSTAT (k : Nat) : Nat := winKey 0xE0028 k
def F.GND_BSTAT.READERS (k : Nat) : Fld := ⟨R.GND_BSTAT k, 28, 4⟩
def F.GND_BSTAT.OVRATE (k : Nat) : Fld := ⟨R.GND_BSTAT k, 27, 1⟩
def F.GND_BSTAT.PAGES (k : Nat) : Fld := ⟨R.GND_BSTAT k, 0, 23⟩
def R.GND_BCLAIM (k : Nat) : Nat := winKey 0xE002C k
def F.GND_BCLAIM.CLAIM (k : Nat) : Fld := ⟨R.GND_BCLAIM k, 0, 16⟩
def R.GND_BDROP (k : Nat) : Nat := winKey 0xE0030 k
def F.GND_BDROP.COUNT (k : Nat) : Fld := ⟨R.GND_BDROP k, 0, 32⟩
def R.GND_RCFG : Nat := 0xE0040
def F.GND_RCFG.EN : Fld := ⟨R.GND_RCFG, 31, 1⟩
def F.GND_RCFG.FIBRE : Fld := ⟨R.GND_RCFG, 30, 1⟩
def F.GND_RCFG.SET : Fld := ⟨R.GND_RCFG, 29, 1⟩
def F.GND_RCFG.EXPBOB : Fld := ⟨R.GND_RCFG, 8, 7⟩
def F.GND_RCFG.PRE : Fld := ⟨R.GND_RCFG, 0, 7⟩
def R.GND_RPAGES : Nat := 0xE0044
def F.GND_RPAGES.RPAGES : Fld := ⟨R.GND_RPAGES, 0, 23⟩
def R.GND_RCMD : Nat := 0xE0048
def F.GND_RCMD.EXPORT : Fld := ⟨R.GND_RCMD, 2, 1⟩
def F.GND_RCMD.RELEASE : Fld := ⟨R.GND_RCMD, 1, 1⟩
def F.GND_RCMD.TRIG : Fld := ⟨R.GND_RCMD, 0, 1⟩
def R.GND_RSTAT : Nat := 0xE004C
def F.GND_RSTAT.TRIGLOST : Fld := ⟨R.GND_RSTAT, 24, 8⟩
def F.GND_RSTAT.EXPBUSY : Fld := ⟨R.GND_RSTAT, 13, 1⟩
def F.GND_RSTAT.CAUSE : Fld := ⟨R.GND_RSTAT, 2, 11⟩
def F.GND_RSTAT.STATE : Fld := ⟨R.GND_RSTAT, 0, 2⟩
def R.MEMC_CFG : Nat := 0xF0000
def F.MEMC_CFG.SCRUBPER : Fld := ⟨R.MEMC_CFG, 8, 8⟩
def F.MEMC_CFG.BOOTFSP : Fld := ⟨R.MEMC_CFG, 4, 2⟩
def F.MEMC_CFG.RANKS : Fld := ⟨R.MEMC_CFG, 2, 1⟩
def F.MEMC_CFG.DENS : Fld := ⟨R.MEMC_CFG, 0, 2⟩
def R.MEMC_STAT : Nat := 0xF0004
def F.MEMC_STAT.ERR : Fld := ⟨R.MEMC_STAT, 28, 4⟩
def F.MEMC_STAT.THOT : Fld := ⟨R.MEMC_STAT, 11, 1⟩
def F.MEMC_STAT.TRK1 : Fld := ⟨R.MEMC_STAT, 10, 1⟩
def F.MEMC_STAT.TRK0 : Fld := ⟨R.MEMC_STAT, 9, 1⟩
def F.MEMC_STAT.CHG : Fld := ⟨R.MEMC_STAT, 8, 1⟩
def F.MEMC_STAT.PEND : Fld := ⟨R.MEMC_STAT, 7, 1⟩
def F.MEMC_STAT.TRAIN : Fld := ⟨R.MEMC_STAT, 6, 1⟩
def F.MEMC_STAT.VALID : Fld := ⟨R.MEMC_STAT, 3, 3⟩
def F.MEMC_STAT.LIVE : Fld := ⟨R.MEMC_STAT, 0, 2⟩
def R.MEMC_FREQ : Nat := 0xF0008
def F.MEMC_FREQ.RESULT : Fld := ⟨R.MEMC_FREQ, 4, 4⟩
def F.MEMC_FREQ.GO : Fld := ⟨R.MEMC_FREQ, 2, 1⟩
def F.MEMC_FREQ.TARGET : Fld := ⟨R.MEMC_FREQ, 0, 2⟩
def R.MEMC_WBUF : Nat := 0xF000C
def F.MEMC_WBUF.PEAK : Fld := ⟨R.MEMC_WBUF, 23, 9⟩
def F.MEMC_WBUF.HIWM : Fld := ⟨R.MEMC_WBUF, 8, 8⟩
def F.MEMC_WBUF.LOWM : Fld := ⟨R.MEMC_WBUF, 0, 8⟩
def R.MEMC_REFSTAT : Nat := 0xF0010
def F.MEMC_REFSTAT.FORCED : Fld := ⟨R.MEMC_REFSTAT, 16, 16⟩
def F.MEMC_REFSTAT.MAXPOST : Fld := ⟨R.MEMC_REFSTAT, 0, 4⟩
def R.MEMC_TRK : Nat := 0xF0014
def F.MEMC_TRK.PER : Fld := ⟨R.MEMC_TRK, 16, 16⟩
def F.MEMC_TRK.DT : Fld := ⟨R.MEMC_TRK, 12, 4⟩
def F.MEMC_TRK.LASTNS : Fld := ⟨R.MEMC_TRK, 0, 11⟩
def R.MEMC_CE : Nat := 0xF0018
def F.MEMC_CE.COUNT : Fld := ⟨R.MEMC_CE, 0, 32⟩
def R.MEMC_UE : Nat := 0xF001C
def F.MEMC_UE.COUNT : Fld := ⟨R.MEMC_UE, 0, 32⟩
def R.MEMC_EADDR : Nat := 0xF0020
def F.MEMC_EADDR.UE : Fld := ⟨R.MEMC_EADDR, 31, 1⟩
def F.MEMC_EADDR.SECTOR : Fld := ⟨R.MEMC_EADDR, 0, 26⟩
def R.MEMC_TIMA (n : Nat) : Nat := 0xF0100 + n * 0x10
def F.MEMC_TIMA.RCD (n : Nat) : Fld := ⟨R.MEMC_TIMA n, 24, 8⟩
def F.MEMC_TIMA.RPPB (n : Nat) : Fld := ⟨R.MEMC_TIMA n, 16, 8⟩
def F.MEMC_TIMA.RAS (n : Nat) : Fld := ⟨R.MEMC_TIMA n, 8, 8⟩
def F.MEMC_TIMA.RRD (n : Nat) : Fld := ⟨R.MEMC_TIMA n, 0, 8⟩
def R.MEMC_TIMB (n : Nat) : Nat := 0xF0104 + n * 0x10
def F.MEMC_TIMB.RFCPB (n : Nat) : Fld := ⟨R.MEMC_TIMB n, 16, 16⟩
def F.MEMC_TIMB.FAW (n : Nat) : Fld := ⟨R.MEMC_TIMB n, 8, 8⟩
def F.MEMC_TIMB.WR (n : Nat) : Fld := ⟨R.MEMC_TIMB n, 0, 8⟩
def R.NET_PCFG (x : Nat) : Nat := 0x100000 + x * 0x40
def F.NET_PCFG.EN (x : Nat) : Fld := ⟨R.NET_PCFG x, 31, 1⟩
def F.NET_PCFG.SPEED (x : Nat) : Fld := ⟨R.NET_PCFG x, 30, 1⟩
def F.NET_PCFG.FEC (x : Nat) : Fld := ⟨R.NET_PCFG x, 29, 1⟩
def F.NET_PCFG.MSEC (x : Nat) : Fld := ⟨R.NET_PCFG x, 27, 2⟩
def F.NET_PCFG.SUITE (x : Nat) : Fld := ⟨R.NET_PCFG x, 26, 1⟩
def F.NET_PCFG.MTU (x : Nat) : Fld := ⟨R.NET_PCFG x, 0, 14⟩
def R.NET_PSTAT (x : Nat) : Nat := 0x100004 + x * 0x40
def F.NET_PSTAT.PNEXH (x : Nat) : Fld := ⟨R.NET_PSTAT x, 7, 1⟩
def F.NET_PSTAT.LINKDN (x : Nat) : Fld := ⟨R.NET_PSTAT x, 6, 1⟩
def F.NET_PSTAT.AN (x : Nat) : Fld := ⟨R.NET_PSTAT x, 4, 2⟩
def F.NET_PSTAT.MKA (x : Nat) : Fld := ⟨R.NET_PSTAT x, 2, 2⟩
def F.NET_PSTAT.FECLOCK (x : Nat) : Fld := ⟨R.NET_PSTAT x, 1, 1⟩
def F.NET_PSTAT.LINK (x : Nat) : Fld := ⟨R.NET_PSTAT x, 0, 1⟩
def R.NET_PVLAN (x : Nat) : Nat := 0x100008 + x * 0x40
def F.NET_PVLAN.VLAN (x : Nat) : Fld := ⟨R.NET_PVLAN x, 15, 1⟩
def F.NET_PVLAN.PCP (x : Nat) : Fld := ⟨R.NET_PVLAN x, 12, 3⟩
def F.NET_PVLAN.VID (x : Nat) : Fld := ⟨R.NET_PVLAN x, 0, 12⟩
def R.NET_PTX (x : Nat) : Nat := 0x10000C + x * 0x40
def F.NET_PTX.COUNT (x : Nat) : Fld := ⟨R.NET_PTX x, 0, 32⟩
def R.NET_PRX (x : Nat) : Nat := 0x100010 + x * 0x40
def F.NET_PRX.COUNT (x : Nat) : Fld := ⟨R.NET_PRX x, 0, 32⟩
def R.NET_PDROP (x : Nat) : Nat := 0x100014 + x * 0x40
def F.NET_PDROP.COUNT (x : Nat) : Fld := ⟨R.NET_PDROP x, 0, 32⟩
def R.NET_PMSEC (x : Nat) : Nat := 0x100018 + x * 0x40
def F.NET_PMSEC.COUNT (x : Nat) : Fld := ⟨R.NET_PMSEC x, 0, 32⟩
def R.NET_PTPCFG : Nat := 0x100100
def F.NET_PTPCFG.TRANSPORT : Fld := ⟨R.NET_PTPCFG, 24, 2⟩
def F.NET_PTPCFG.DOMAIN : Fld := ⟨R.NET_PTPCFG, 16, 7⟩
def F.NET_PTPCFG.ASYM : Fld := ⟨R.NET_PTPCFG, 0, 16⟩
def R.NET_PTPSTAT : Nat := 0x100104
def F.NET_PTPSTAT.MASTERS : Fld := ⟨R.NET_PTPSTAT, 8, 4⟩
def F.NET_PTPSTAT.TWOSTEP : Fld := ⟨R.NET_PTPSTAT, 4, 1⟩
def F.NET_PTPSTAT.PSTATE : Fld := ⟨R.NET_PTPSTAT, 0, 4⟩
def R.NET_MGMT : Nat := 0x100200
def F.NET_MGMT.ACLEN : Fld := ⟨R.NET_MGMT, 17, 1⟩
def F.NET_MGMT.EN : Fld := ⟨R.NET_MGMT, 16, 1⟩
def F.NET_MGMT.PORT : Fld := ⟨R.NET_MGMT, 0, 16⟩
def R.NET_MGMTSTAT : Nat := 0x100204
def F.NET_MGMTSTAT.QLEN : Fld := ⟨R.NET_MGMTSTAT, 24, 8⟩
def F.NET_MGMTSTAT.QDROP : Fld := ⟨R.NET_MGMTSTAT, 16, 8⟩
def F.NET_MGMTSTAT.ACL : Fld := ⟨R.NET_MGMTSTAT, 8, 8⟩
def F.NET_MGMTSTAT.AUTHF : Fld := ⟨R.NET_MGMTSTAT, 0, 8⟩
def R.NET_BUDGET : Nat := 0x100300
def F.NET_BUDGET.ERR : Fld := ⟨R.NET_BUDGET, 28, 4⟩
def F.NET_BUDGET.LOAD1 : Fld := ⟨R.NET_BUDGET, 14, 14⟩
def F.NET_BUDGET.LOAD0 : Fld := ⟨R.NET_BUDGET, 0, 14⟩
def R.NET_SIDX : Nat := 0x100400
def F.NET_SIDX.INDEX : Fld := ⟨R.NET_SIDX, 0, 8⟩
def R.NET_SCFG (k : Nat) : Nat := winKey 0x100404 k
def F.NET_SCFG.EN (k : Nat) : Fld := ⟨R.NET_SCFG k, 31, 1⟩
def F.NET_SCFG.PORTSEL (k : Nat) : Fld := ⟨R.NET_SCFG k, 29, 2⟩
def F.NET_SCFG.LINKPOL (k : Nat) : Fld := ⟨R.NET_SCFG k, 28, 1⟩
def F.NET_SCFG.QMODE (k : Nat) : Fld := ⟨R.NET_SCFG k, 26, 2⟩
def F.NET_SCFG.FORMAT (k : Nat) : Fld := ⟨R.NET_SCFG k, 15, 8⟩
def F.NET_SCFG.BOBBIN (k : Nat) : Fld := ⟨R.NET_SCFG k, 0, 7⟩
def R.NET_SCFG2 (k : Nat) : Nat := winKey 0x100408 k
def F.NET_SCFG2.DSCP (k : Nat) : Fld := ⟨R.NET_SCFG2 k, 8, 6⟩
def F.NET_SCFG2.SPF (k : Nat) : Fld := ⟨R.NET_SCFG2 k, 0, 8⟩
def R.NET_SSTAT (k : Nat) : Nat := winKey 0x10040C k
def F.NET_SSTAT.EPOCH (k : Nat) : Fld := ⟨R.NET_SSTAT k, 16, 16⟩
def F.NET_SSTAT.OVRATE (k : Nat) : Fld := ⟨R.NET_SSTAT k, 3, 1⟩
def F.NET_SSTAT.ONNET1 (k : Nat) : Fld := ⟨R.NET_SSTAT k, 2, 1⟩
def F.NET_SSTAT.GAPSEEN (k : Nat) : Fld := ⟨R.NET_SSTAT k, 1, 1⟩
def F.NET_SSTAT.UNAVAIL (k : Nat) : Fld := ⟨R.NET_SSTAT k, 0, 1⟩
def R.NET_SSEQ (k : Nat) : Nat := winKey 0x100410 k
def F.NET_SSEQ.SEQ (k : Nat) : Fld := ⟨R.NET_SSEQ k, 0, 32⟩
def R.DFL_CFG (n : Nat) : Nat := 0x110000 + n * 0x20
def F.DFL_CFG.EN (n : Nat) : Fld := ⟨R.DFL_CFG n, 31, 1⟩
def F.DFL_CFG.POLICY (n : Nat) : Fld := ⟨R.DFL_CFG n, 27, 2⟩
def F.DFL_CFG.PRECODE (n : Nat) : Fld := ⟨R.DFL_CFG n, 23, 2⟩
def F.DFL_CFG.OUTBOB (n : Nat) : Fld := ⟨R.DFL_CFG n, 8, 7⟩
def F.DFL_CFG.INBOB (n : Nat) : Fld := ⟨R.DFL_CFG n, 0, 7⟩
def R.DFL_BLK (n : Nat) : Nat := 0x110004 + n * 0x20
def F.DFL_BLK.BLKTMO (n : Nat) : Fld := ⟨R.DFL_BLK n, 16, 16⟩
def F.DFL_BLK.BLKSIZE (n : Nat) : Fld := ⟨R.DFL_BLK n, 0, 11⟩
def R.DFL_STAT (n : Nat) : Nat := 0x110008 + n * 0x20
def F.DFL_STAT.ERR (n : Nat) : Fld := ⟨R.DFL_STAT n, 28, 4⟩
def F.DFL_STAT.ECCDISC (n : Nat) : Fld := ⟨R.DFL_STAT n, 3, 1⟩
def F.DFL_STAT.GAPSEEN (n : Nat) : Fld := ⟨R.DFL_STAT n, 2, 1⟩
def F.DFL_STAT.STALL (n : Nat) : Fld := ⟨R.DFL_STAT n, 1, 1⟩
def F.DFL_STAT.OPEN (n : Nat) : Fld := ⟨R.DFL_STAT n, 0, 1⟩
def R.DFL_INB (n : Nat) : Nat := 0x11000C + n * 0x20
def F.DFL_INB.COUNT (n : Nat) : Fld := ⟨R.DFL_INB n, 0, 32⟩
def R.DFL_OUTB (n : Nat) : Nat := 0x110010 + n * 0x20
def F.DFL_OUTB.COUNT (n : Nat) : Fld := ⟨R.DFL_OUTB n, 0, 32⟩
def R.DFL_NBLK (n : Nat) : Nat := 0x110014 + n * 0x20
def F.DFL_NBLK.COUNT (n : Nat) : Fld := ⟨R.DFL_NBLK n, 0, 32⟩
def R.DFL_DSTAT : Nat := 0x110100
def F.DFL_DSTAT.RESULT : Fld := ⟨R.DFL_DSTAT, 28, 4⟩
def F.DFL_DSTAT.BUSY : Fld := ⟨R.DFL_DSTAT, 0, 1⟩
def R.DFL_DOFS : Nat := 0x110104
def F.DFL_DOFS.OFS : Fld := ⟨R.DFL_DOFS, 0, 32⟩
def R.DFL_DCNT : Nat := 0x110108
def F.DFL_DCNT.COUNT : Fld := ⟨R.DFL_DCNT, 0, 32⟩
def R.SEC_STAT : Nat := 0x120000
def F.SEC_STAT.ARBPEND : Fld := ⟨R.SEC_STAT, 6, 1⟩
def F.SEC_STAT.DBGUSED : Fld := ⟨R.SEC_STAT, 5, 1⟩
def F.SEC_STAT.MONSESS : Fld := ⟨R.SEC_STAT, 4, 1⟩
def F.SEC_STAT.CHAL : Fld := ⟨R.SEC_STAT, 3, 1⟩
def F.SEC_STAT.DRBGERR : Fld := ⟨R.SEC_STAT, 2, 1⟩
def F.SEC_STAT.LIFE : Fld := ⟨R.SEC_STAT, 0, 2⟩
def R.SEC_IMGSTAT : Nat := 0x120004
def F.SEC_IMGSTAT.RESULT : Fld := ⟨R.SEC_IMGSTAT, 28, 4⟩
def F.SEC_IMGSTAT.SLOT : Fld := ⟨R.SEC_IMGSTAT, 26, 2⟩
def F.SEC_IMGSTAT.ENC : Fld := ⟨R.SEC_IMGSTAT, 25, 1⟩
def F.SEC_IMGSTAT.KEYSRC : Fld := ⟨R.SEC_IMGSTAT, 24, 1⟩
def F.SEC_IMGSTAT.SVN : Fld := ⟨R.SEC_IMGSTAT, 8, 7⟩
def R.SEC_DEVID_LO : Nat := 0x120008
def F.SEC_DEVID_LO.ID_LO : Fld := ⟨R.SEC_DEVID_LO, 0, 32⟩
def R.SEC_DEVID_HI : Nat := 0x12000C
def F.SEC_DEVID_HI.ID_HI : Fld := ⟨R.SEC_DEVID_HI, 0, 32⟩
def R.SEC_AUTH : Nat := 0x120010
def F.SEC_AUTH.MONOK : Fld := ⟨R.SEC_AUTH, 8, 8⟩
def F.SEC_AUTH.MONF : Fld := ⟨R.SEC_AUTH, 0, 8⟩
def R.SEC_FPCMD : Nat := 0x120060
def F.SEC_FPCMD.GO : Fld := ⟨R.SEC_FPCMD, 8, 1⟩
def F.SEC_FPCMD.OP : Fld := ⟨R.SEC_FPCMD, 4, 3⟩
def F.SEC_FPCMD.SLOT : Fld := ⟨R.SEC_FPCMD, 0, 2⟩
def R.SEC_FPSTAT : Nat := 0x120064
def F.SEC_FPSTAT.RESULT : Fld := ⟨R.SEC_FPSTAT, 4, 4⟩
def F.SEC_FPSTAT.BUSY : Fld := ⟨R.SEC_FPSTAT, 0, 1⟩
def R.SEC_FPDATA (n : Nat) : Nat := 0x120080 + n * 0x4
def F.SEC_FPDATA.DATA (n : Nat) : Fld := ⟨R.SEC_FPDATA n, 0, 32⟩
def R.SEC_IDPUB (n : Nat) : Nat := 0x120100 + n * 0x4
def F.SEC_IDPUB.Q (n : Nat) : Fld := ⟨R.SEC_IDPUB n, 0, 32⟩
def R.SEC_IHASH (n : Nat) : Nat := 0x120180 + n * 0x4
def F.SEC_IHASH.HASH (n : Nat) : Fld := ⟨R.SEC_IHASH n, 0, 32⟩
def R.FUSE_SEC : Nat := 0x140040
def F.FUSE_SEC.FLEET : Fld := ⟨R.FUSE_SEC, 21, 1⟩
def F.FUSE_SEC.JTAG_LOCK : Fld := ⟨R.FUSE_SEC, 20, 1⟩
def F.FUSE_SEC.SPOILED : Fld := ⟨R.FUSE_SEC, 16, 4⟩
def F.FUSE_SEC.REVOKED : Fld := ⟨R.FUSE_SEC, 12, 4⟩
def F.FUSE_SEC.VALID : Fld := ⟨R.FUSE_SEC, 8, 4⟩
def F.FUSE_SEC.ARB : Fld := ⟨R.FUSE_SEC, 0, 7⟩
def R.FUSE_KEYH (x n : Nat) : Nat := 0x140100 + x * 0x40 + n * 0x4
def F.FUSE_KEYH.HASH (x n : Nat) : Fld := ⟨R.FUSE_KEYH x n, 0, 32⟩
def R.HLTH_CFG : Nat := 0x130000
def F.HLTH_CFG.FAILWIN : Fld := ⟨R.HLTH_CFG, 24, 8⟩
def F.HLTH_CFG.FAILLIM : Fld := ⟨R.HLTH_CFG, 16, 4⟩
def F.HLTH_CFG.LSHEN : Fld := ⟨R.HLTH_CFG, 8, 1⟩
def F.HLTH_CFG.SHDWIN : Fld := ⟨R.HLTH_CFG, 0, 8⟩
def R.HLTH_STAT : Nat := 0x130004
def F.HLTH_STAT.ALERT : Fld := ⟨R.HLTH_STAT, 7, 1⟩
def F.HLTH_STAT.ALATCH : Fld := ⟨R.HLTH_STAT, 6, 1⟩
def F.HLTH_STAT.TBUSY : Fld := ⟨R.HLTH_STAT, 5, 1⟩
def F.HLTH_STAT.BRIDEF : Fld := ⟨R.HLTH_STAT, 4, 1⟩
def F.HLTH_STAT.FABF : Fld := ⟨R.HLTH_STAT, 3, 1⟩
def F.HLTH_STAT.UNSERVED : Fld := ⟨R.HLTH_STAT, 2, 1⟩
def F.HLTH_STAT.LOST : Fld := ⟨R.HLTH_STAT, 1, 1⟩
def F.HLTH_STAT.FENCED : Fld := ⟨R.HLTH_STAT, 0, 1⟩
def R.HLTH_LANE : Nat := 0x130008
def F.HLTH_LANE.WINRND : Fld := ⟨R.HLTH_LANE, 24, 8⟩
def F.HLTH_LANE.SHLL : Fld := ⟨R.HLTH_LANE, 8, 5⟩
def F.HLTH_LANE.SHADOW : Fld := ⟨R.HLTH_LANE, 7, 1⟩
def F.HLTH_LANE.SPARE : Fld := ⟨R.HLTH_LANE, 0, 6⟩
def R.HLTH_LFENCE0 : Nat := 0x13000C
def F.HLTH_LFENCE0.FENCE : Fld := ⟨R.HLTH_LFENCE0, 0, 32⟩
def R.HLTH_LFENCE1 : Nat := 0x130010
def F.HLTH_LFENCE1.FENCE32 : Fld := ⟨R.HLTH_LFENCE1, 0, 1⟩
def R.HLTH_UNSRV : Nat := 0x130014
def F.HLTH_UNSRV.LL : Fld := ⟨R.HLTH_UNSRV, 0, 32⟩
def R.HLTH_TCMD : Nat := 0x130020
def F.HLTH_TCMD.GO : Fld := ⟨R.HLTH_TCMD, 31, 1⟩
def F.HLTH_TCMD.INTRUSIVE : Fld := ⟨R.HLTH_TCMD, 8, 1⟩
def F.HLTH_TCMD.UNIT : Fld := ⟨R.HLTH_TCMD, 0, 8⟩
def R.HLTH_TSTAT : Nat := 0x130024
def F.HLTH_TSTAT.RESULT : Fld := ⟨R.HLTH_TSTAT, 28, 4⟩
def F.HLTH_TSTAT.UNIT : Fld := ⟨R.HLTH_TSTAT, 8, 8⟩
def F.HLTH_TSTAT.BUSY : Fld := ⟨R.HLTH_TSTAT, 0, 1⟩
def R.HLTH_EVSEQ : Nat := 0x130028
def F.HLTH_EVSEQ.SEQ : Fld := ⟨R.HLTH_EVSEQ, 0, 32⟩
def R.HLTH_EVCNT : Nat := 0x13002C
def F.HLTH_EVCNT.COUNT : Fld := ⟨R.HLTH_EVCNT, 0, 32⟩
def R.HLTH_HBMISS : Nat := 0x130030
def F.HLTH_HBMISS.BRIDE : Fld := ⟨R.HLTH_HBMISS, 16, 16⟩
def F.HLTH_HBMISS.FABRIC : Fld := ⟨R.HLTH_HBMISS, 0, 16⟩
def R.HLTH_UIDX : Nat := 0x130040
def F.HLTH_UIDX.UNIT : Fld := ⟨R.HLTH_UIDX, 0, 8⟩
def R.HLTH_USTAT : Nat := 0x130044
def F.HLTH_USTAT.FAILS : Fld := ⟨R.HLTH_USTAT, 20, 4⟩
def F.HLTH_USTAT.HELD : Fld := ⟨R.HLTH_USTAT, 19, 1⟩
def F.HLTH_USTAT.STATE : Fld := ⟨R.HLTH_USTAT, 16, 3⟩
def F.HLTH_USTAT.FAULT : Fld := ⟨R.HLTH_USTAT, 0, 8⟩
def R.SYS_CAUSE : Nat := 0x0
def F.SYS_CAUSE.IMG : Fld := ⟨R.SYS_CAUSE, 8, 1⟩
def F.SYS_CAUSE.MGMT : Fld := ⟨R.SYS_CAUSE, 7, 1⟩
def F.SYS_CAUSE.MON : Fld := ⟨R.SYS_CAUSE, 6, 1⟩
def F.SYS_CAUSE.LOCK : Fld := ⟨R.SYS_CAUSE, 5, 1⟩
def F.SYS_CAUSE.WDT : Fld := ⟨R.SYS_CAUSE, 4, 1⟩
def F.SYS_CAUSE.THERM : Fld := ⟨R.SYS_CAUSE, 3, 1⟩
def F.SYS_CAUSE.PIN : Fld := ⟨R.SYS_CAUSE, 2, 1⟩
def F.SYS_CAUSE.BOR : Fld := ⟨R.SYS_CAUSE, 1, 1⟩
def F.SYS_CAUSE.POR : Fld := ⟨R.SYS_CAUSE, 0, 1⟩
def R.SYS_REACH : Nat := 0x4
def F.SYS_REACH.EPIS : Fld := ⟨R.SYS_REACH, 24, 8⟩
def F.SYS_REACH.DEEPENED : Fld := ⟨R.SYS_REACH, 8, 1⟩
def F.SYS_REACH.LAST : Fld := ⟨R.SYS_REACH, 0, 3⟩
def R.SYS_OPT : Nat := 0x8
def F.SYS_OPT.VLD : Fld := ⟨R.SYS_OPT, 31, 1⟩
def F.SYS_OPT.OPTERR : Fld := ⟨R.SYS_OPT, 30, 1⟩
def F.SYS_OPT.OPT_OK : Fld := ⟨R.SYS_OPT, 19, 1⟩
def F.SYS_OPT.BAUD : Fld := ⟨R.SYS_OPT, 17, 2⟩
def F.SYS_OPT.MAINT : Fld := ⟨R.SYS_OPT, 16, 1⟩
def F.SYS_OPT.VOLT : Fld := ⟨R.SYS_OPT, 4, 12⟩
def F.SYS_OPT.BAND : Fld := ⟨R.SYS_OPT, 0, 4⟩
def R.SYS_RTBL : Nat := 0xC
def F.SYS_RTBL.IMG : Fld := ⟨R.SYS_RTBL, 21, 3⟩
def F.SYS_RTBL.MGMT : Fld := ⟨R.SYS_RTBL, 18, 3⟩
def F.SYS_RTBL.MON : Fld := ⟨R.SYS_RTBL, 15, 3⟩
def F.SYS_RTBL.LOCK : Fld := ⟨R.SYS_RTBL, 12, 3⟩
def F.SYS_RTBL.WDT : Fld := ⟨R.SYS_RTBL, 9, 3⟩
def F.SYS_RTBL.THERM : Fld := ⟨R.SYS_RTBL, 6, 3⟩
def F.SYS_RTBL.PIN : Fld := ⟨R.SYS_RTBL, 3, 3⟩
def F.SYS_RTBL.BOR : Fld := ⟨R.SYS_RTBL, 0, 3⟩
def R.SYS_BOOT : Nat := 0x10
def F.SYS_BOOT.PHASE : Fld := ⟨R.SYS_BOOT, 28, 4⟩
def F.SYS_BOOT.BOOTMS : Fld := ⟨R.SYS_BOOT, 0, 24⟩
def R.SYS_BOOTCFG : Nat := 0x14
def F.SYS_BOOTCFG.AUTO_B : Fld := ⟨R.SYS_BOOTCFG, 1, 1⟩
def F.SYS_BOOTCFG.AUTO_A : Fld := ⟨R.SYS_BOOTCFG, 0, 1⟩
def R.SYS_RAIL : Nat := 0x18
def F.SYS_RAIL.LOSS : Fld := ⟨R.SYS_RAIL, 8, 7⟩
def F.SYS_RAIL.GOOD : Fld := ⟨R.SYS_RAIL, 0, 7⟩
def R.SYS_IMG : Nat := 0x20
def F.SYS_IMG.RUN : Fld := ⟨R.SYS_IMG, 30, 2⟩
def F.SYS_IMG.FAILA : Fld := ⟨R.SYS_IMG, 29, 1⟩
def F.SYS_IMG.FAILB : Fld := ⟨R.SYS_IMG, 28, 1⟩
def F.SYS_IMG.APPLYERR : Fld := ⟨R.SYS_IMG, 24, 4⟩
def F.SYS_IMG.XAUTH : Fld := ⟨R.SYS_IMG, 20, 4⟩
def F.SYS_IMG.DEFER : Fld := ⟨R.SYS_IMG, 16, 1⟩
def F.SYS_IMG.RECIDX : Fld := ⟨R.SYS_IMG, 0, 16⟩
def R.SYS_XFER : Nat := 0x24
def F.SYS_XFER.OPEN : Fld := ⟨R.SYS_XFER, 31, 1⟩
def F.SYS_XFER.DEST : Fld := ⟨R.SYS_XFER, 29, 2⟩
def F.SYS_XFER.BUSY : Fld := ⟨R.SYS_XFER, 28, 1⟩
def F.SYS_XFER.RESULT : Fld := ⟨R.SYS_XFER, 24, 4⟩
def F.SYS_XFER.NEXT : Fld := ⟨R.SYS_XFER, 0, 24⟩
def R.SYS_FLASH : Nat := 0x28
def F.SYS_FLASH.MODE : Fld := ⟨R.SYS_FLASH, 30, 2⟩
def F.SYS_FLASH.DTR : Fld := ⟨R.SYS_FLASH, 29, 1⟩
def F.SYS_FLASH.SIZE : Fld := ⟨R.SYS_FLASH, 24, 5⟩
def F.SYS_FLASH.LOGDROP : Fld := ⟨R.SYS_FLASH, 16, 8⟩
def F.SYS_FLASH.CALNEW : Fld := ⟨R.SYS_FLASH, 2, 1⟩
def F.SYS_FLASH.CAL1 : Fld := ⟨R.SYS_FLASH, 1, 1⟩
def F.SYS_FLASH.CAL0 : Fld := ⟨R.SYS_FLASH, 0, 1⟩
def R.SYS_GEN : Nat := 0x2C
def F.SYS_GEN.GEN : Fld := ⟨R.SYS_GEN, 0, 32⟩
def R.FLT_FIR_IDX : Nat := 0x70220
def F.FLT_FIR_IDX.PRESET : Fld := ⟨R.FLT_FIR_IDX, 8, 2⟩
def F.FLT_FIR_IDX.TAP : Fld := ⟨R.FLT_FIR_IDX, 0, 7⟩
def R.FLT_FIR_DATA : Nat := 0x70224
def F.FLT_FIR_DATA.H : Fld := ⟨R.FLT_FIR_DATA, 0, 20⟩

end Sys2Proof.Machine
end

