-- ==== Sys2Proof/Machine/Maps.lean ====
section
/-!
DEFINITION. Sparse maps with natural keys, kept in one canonical form: keys strictly rising, and no entry equal to what
an unlisted key reads as. The register file and every indexed piece of internal state use them.
-/
namespace Sys2Proof.Machine

/-- Insert a key that the list does not hold, before the first greater key. -/
def mapInsert {α : Type} (k : Nat) (v : α) : List (Nat × α) → List (Nat × α)
  | [] => [(k, v)]
  | p :: t => if k < p.1 then (k, v) :: p :: t else p :: mapInsert k v t

/-- Remove a key. -/
def mapErase {α : Type} (k : Nat) (m : List (Nat × α)) : List (Nat × α) := m.filter (fun p => p.1 != k)

/-- The value at a key; `d` gives what an unlisted key reads as. -/
def mapGet {α : Type} (d : Nat → α) (m : List (Nat × α)) (k : Nat) : α :=
  match m with
  | [] => d k
  | p :: t => if p.1 = k then p.2 else mapGet d t k

/-- Write a key: the value an unlisted key reads as removes the entry, so that equal maps are equal lists. -/
def mapSet {α : Type} [DecidableEq α] (d : Nat → α) (m : List (Nat × α)) (k : Nat) (v : α) : List (Nat × α) :=
  if v = d k then mapErase k m else mapInsert k v (mapErase k m)

/-- Keys strictly rising. -/
def mapSorted {α : Type} : List (Nat × α) → Bool
  | [] => true
  | [_] => true
  | p :: q :: t => decide (p.1 < q.1) && mapSorted (q :: t)

/-- The canonical form: keys strictly rising and no entry equal to what an unlisted key reads as. -/
def mapWf {α : Type} [DecidableEq α] (d : Nat → α) (m : List (Nat × α)) : Bool :=
  mapSorted m && m.all (fun p => decide (p.2 ≠ d p.1))

end Sys2Proof.Machine
end

