-- ==== Sys2Proof/Machine/Numeric.lean ====
section
/-!
DEFINITION. Arithmetic shared by the blocks: signed readings of fields, rounding to nearest with halves away from zero
(R90, R183), saturation, wrapping, and the real functions the spec names, computed in 64-bit binary fractions.
-/
namespace Sys2Proof.Machine

/-- The two's-complement reading of the low `w` bits of `v`. -/
def sgn (w v : Nat) : Int :=
  let u := v % 2 ^ w
  if u < 2 ^ (w - 1) then (u : Int) else (u : Int) - 2 ^ w

/-- The two's-complement code of `v` in `w` bits. -/
def unsgn (w : Nat) (v : Int) : Nat := (v % (2 ^ w : Int)).toNat

/-- Nearest integer to `n / d`, halves away from zero (R90, R183); `d` is positive. (DEDUCED, assumption 72.) -/
def rndDiv (n d : Int) : Int :=
  if 0 ≤ n then (2 * n + d) / (2 * d) else -((-2 * n + d) / (2 * d))

/-- Nearest integer to a rational, halves away from zero. -/
def rndRat (q : Rat) : Int := rndDiv q.num q.den

/-- Limit to `lo`..`hi`. -/
def clampI (lo hi v : Int) : Int := if v < lo then lo else if hi < v then hi else v

/-- Saturate to a `w`-bit two's-complement range. -/
def satI (w : Nat) (v : Int) : Int := clampI (-(2 ^ (w - 1))) (2 ^ (w - 1) - 1) v

/-- Saturate to an unsigned `w`-bit range. -/
def satN (w v : Nat) : Nat := if v < 2 ^ w then v else 2 ^ w - 1

/-- Reduce to the `w`-bit two's-complement range. -/
def wrapI (w : Nat) (v : Int) : Int := sgn w (unsgn w v)

/-- Quotient rounded up. -/
def ceilDiv (a b : Nat) : Nat := (a + b - 1) / b

/-- Limit a rational. -/
def clampRat (lo hi v : Rat) : Rat := if v < lo then lo else if hi < v then hi else v

/-- One, in the 64-bit binary fractions of the real functions below. -/
def fxOne : Int := 2 ^ 64

/-- π with 64 fraction bits. -/
def fxPi : Int := 0x3_243F_6A88_85A3_08D3

/-- ln 2 with 64 fraction bits. -/
def fxLn2 : Int := 0xB172_17F7_D1CF_79AC

def fxMul (a b : Int) : Int := rndDiv (a * b) fxOne
def fxDiv (a b : Int) : Int := if b = 0 then 0 else if 0 < b then rndDiv (a * fxOne) b else rndDiv (-a * fxOne) (-b)

/-- Power series by fuel: `t` is the running term, `x2` the squared argument, `k` the next divisor. -/
def fxSeries (x2 : Int) : Nat → Int → Nat → Int → Int
  | 0, _, _, acc => acc
  | n + 1, t, k, acc =>
    let t' := rndDiv (fxMul t x2) ((k * (k + 1) : Nat) : Int)
    fxSeries x2 n (-t') (k + 2) (acc - t')

/-- Cosine and sine of an angle of at most a quarter turn either way. -/
def fxCosSmall (x : Int) : Int := fxSeries (fxMul x x) 20 fxOne 1 fxOne
def fxSinSmall (x : Int) : Int := fxSeries (fxMul x x) 20 x 2 x

/-- Cosine of 2π·m/den, for a whole number of parts of a turn. -/
def fxCosTurn (m : Int) (den : Nat) : Int :=
  let r := m % (den : Int)
  let q := 4 * r / den
  let rest := 4 * r - q * den
  let ang := rndDiv (fxPi * rest) (2 * (den : Int))
  match q with
  | 0 => fxCosSmall ang
  | 1 => -fxSinSmall ang
  | 2 => -fxCosSmall ang
  | _ => fxSinSmall ang

/-- Sine of 2π·m/den. -/
def fxSinTurn (m : Int) (den : Nat) : Int := fxCosTurn (4 * m - den) (4 * den)

/-- Arctangent series for |x| ≤ 1/4. -/
def fxAtanSeries (x2 : Int) : Nat → Int → Nat → Int → Int
  | 0, _, _, acc => acc
  | n + 1, p, k, acc =>
    let p' := -(fxMul p x2)
    fxAtanSeries x2 n p' (k + 2) (acc + rndDiv p' (k : Int))

def fxAtanSmall (x : Int) : Int := fxAtanSeries (fxMul x x) 18 x 3 x

/-- Arctangent of y/x for 0 ≤ y ≤ x, x positive, by reduction through multiples of 1/4. -/
def fxAtanRatio (y x : Int) : Int :=
  let q := (8 * y + x) / (2 * x)          -- nearest multiple of 1/4, 0 to 4
  let num := 4 * y - q * x
  let den := 4 * x + q * y
  let base : Int :=
    match q with
    | 0 => 0
    | 1 => 0x3EB6_EBF2_5901_BAC5
    | 2 => 0x76B1_9C15_86ED_3DA3
    | 3 => 0xA4BC_7D19_34F7_0924
    | _ => 0xC90F_DAA2_2168_C235
  base + fxAtanSmall (fxDiv num den)

/-- atan2(y, x) in (−π, π], with 64 fraction bits; 0 at the origin. -/
def fxAtan2 (y x : Int) : Int :=
  let ax := x.natAbs
  let ay := y.natAbs
  if ax = 0 ∧ ay = 0 then 0
  else
    let t := if ay ≤ ax then fxAtanRatio ay ax else fxPi / 2 - fxAtanRatio ax ay
    let t := if x < 0 then fxPi - t else t
    if y < 0 then -t else t

/-- An angle of `bits` fraction-of-turn bits, in [−2^(bits−1), 2^(bits−1)), nearest to atan2(y, x). -/
def angleOf (bits : Nat) (y x : Int) : Int :=
  wrapI bits (rndDiv (fxAtan2 y x * 2 ^ (bits - 1)) fxPi)

/-- exp(x) for an argument with 64 fraction bits, by halving the argument eight times. -/
def fxExpSeries (x : Int) : Nat → Int → Nat → Int → Int
  | 0, _, _, acc => acc
  | n + 1, t, k, acc =>
    let t' := rndDiv (fxMul t x) (k : Int)
    fxExpSeries x n t' (k + 1) (acc + t')

def fxSquare : Nat → Int → Int
  | 0, v => v
  | n + 1, v => fxSquare n (fxMul v v)

def fxExp (x : Int) : Int :=
  let k := rndDiv x fxLn2
  let r := x - k * fxLn2
  let e := fxExpSeries r 24 fxOne 1 fxOne
  if 0 ≤ k then e * 2 ^ k.toNat else rndDiv e (2 ^ (-k).toNat)

/-- Series of 2·artanh for the logarithm. -/
def fxLnSeries (z2 : Int) : Nat → Int → Nat → Int → Int
  | 0, _, _, acc => acc
  | n + 1, p, k, acc =>
    let p' := fxMul p z2
    fxLnSeries z2 n p' (k + 2) (acc + rndDiv p' (k : Int))

/-- Natural logarithm of a positive integer, with 64 fraction bits. -/
def fxLnNat (n : Nat) : Int :=
  let k := Nat.log2 n
  let m : Int := rndDiv ((n : Int) * fxOne) (2 ^ k)      -- 1 ≤ m < 2
  let z := fxDiv (m - fxOne) (m + fxOne)
  (k : Int) * fxLn2 + 2 * fxLnSeries (fxMul z z) 30 z 3 z

/-- ln(a/b) of positive integers, with 64 fraction bits. -/
def fxLnRatio (a b : Nat) : Int := fxLnNat a - fxLnNat b

/-- 10·log10(a/b) in units of 1/16 dB, rounded. -/
def dB16 (a b : Nat) : Int :=
  if a = 0 ∨ b = 0 then 0 else rndDiv (160 * fxLnRatio a b) (fxLnNat 10)

/-- An integer within one of num/den, which the free value picks: three are where the quotient is whole, else two. (DESIGN CHOICE,
assumption 24.) -/
def within1 (free : Nat) (num den : Int) : Int :=
  if num % den = 0 then num / den + ((free % 3 : Nat) : Int) - 1 else num / den + ((free % 2 : Nat) : Int)

end Sys2Proof.Machine
end

