-- ==== Sys2Proof/Machine/RegMap.lean ====
section
/-!
DEFINITION. The register map: every register of the register index (R663) with its address, its copies and, field by
field, the access code of R8, the reset value, whether a host may write it at runtime (the union of R624) and the
values it admits (R617, R624, with the checked fields of R664 admitting all).
-/
namespace Sys2Proof.Machine

/-- Field access codes (R8). -/
inductive Acc where
  | rw | ro | wo | w1c | w1s | rc
deriving DecidableEq, Repr

/-- One field of a register: `ranges` are the admitted unsigned values, empty when every value is admitted. -/
structure FieldDef where
  name : String
  lo : Nat
  w : Nat
  acc : Acc
  reset : Nat
  host : Bool
  ranges : List (Nat × Nat)
deriving DecidableEq, Repr

/-- One register of R663: `n1` copies at stride `s1` inside `n2` copies at stride `s2`; `win` is the index register
through which a windowed register is reached. -/
structure RegDef where
  name : String
  base : Nat
  n1 : Nat
  s1 : Nat
  n2 : Nat
  s2 : Nat
  win : Option Nat
  fields : List FieldDef
deriving DecidableEq, Repr

/-- Registers of the SYS block. -/
def sysRegs : List RegDef :=
  [⟨"SYS_CAUSE", 0x0, 1, 0x4, 1, 0x4, none,
    [⟨"IMG", 8, 1, .w1c, 0, true, []⟩,
     ⟨"MGMT", 7, 1, .w1c, 0, true, []⟩,
     ⟨"MON", 6, 1, .w1c, 0, true, []⟩,
     ⟨"LOCK", 5, 1, .w1c, 0, true, []⟩,
     ⟨"WDT", 4, 1, .w1c, 0, true, []⟩,
     ⟨"THERM", 3, 1, .w1c, 0, true, []⟩,
     ⟨"PIN", 2, 1, .w1c, 0, true, []⟩,
     ⟨"BOR", 1, 1, .w1c, 0, true, []⟩,
     ⟨"POR", 0, 1, .w1c, 1, true, []⟩]⟩,
   ⟨"SYS_REACH", 0x4, 1, 0x4, 1, 0x4, none,
    [⟨"EPIS", 24, 8, .rc, 0, true, []⟩,
     ⟨"DEEPENED", 8, 1, .ro, 0, false, []⟩,
     ⟨"LAST", 0, 3, .ro, 1, false, []⟩]⟩,
   ⟨"SYS_OPT", 0x8, 1, 0x4, 1, 0x4, none,
    [⟨"VLD", 31, 1, .ro, 0, false, []⟩,
     ⟨"OPTERR", 30, 1, .ro, 0, false, []⟩,
     ⟨"OPT_OK", 19, 1, .ro, 0, false, []⟩,
     ⟨"BAUD", 17, 2, .ro, 0, false, []⟩,
     ⟨"MAINT", 16, 1, .ro, 0, false, []⟩,
     ⟨"VOLT", 4, 12, .ro, 0, false, []⟩,
     ⟨"BAND", 0, 4, .ro, 0, false, []⟩]⟩,
   ⟨"SYS_RTBL", 0xC, 1, 0x4, 1, 0x4, none,
    [⟨"IMG", 21, 3, .ro, 2, false, []⟩,
     ⟨"MGMT", 18, 3, .ro, 3, false, []⟩,
     ⟨"MON", 15, 3, .ro, 3, false, []⟩,
     ⟨"LOCK", 12, 3, .ro, 2, false, []⟩,
     ⟨"WDT", 9, 3, .ro, 2, false, []⟩,
     ⟨"THERM", 6, 3, .ro, 2, false, []⟩,
     ⟨"PIN", 3, 3, .ro, 2, false, []⟩,
     ⟨"BOR", 0, 3, .ro, 2, false, []⟩]⟩,
   ⟨"SYS_BOOT", 0x10, 1, 0x4, 1, 0x4, none,
    [⟨"PHASE", 28, 4, .ro, 0, false, []⟩,
     ⟨"BOOTMS", 0, 24, .ro, 0, false, []⟩]⟩,
   ⟨"SYS_BOOTCFG", 0x14, 1, 0x4, 1, 0x4, none,
    [⟨"AUTO_B", 1, 1, .rw, 0, false, []⟩,
     ⟨"AUTO_A", 0, 1, .rw, 0, false, []⟩]⟩,
   ⟨"SYS_RAIL", 0x18, 1, 0x4, 1, 0x4, none,
    [⟨"LOSS", 8, 7, .w1c, 0, true, []⟩,
     ⟨"GOOD", 0, 7, .ro, 0, false, []⟩]⟩,
   ⟨"SYS_IMG", 0x20, 1, 0x4, 1, 0x4, none,
    [⟨"RUN", 30, 2, .ro, 3, false, []⟩,
     ⟨"FAILA", 29, 1, .ro, 0, false, []⟩,
     ⟨"FAILB", 28, 1, .ro, 0, false, []⟩,
     ⟨"APPLYERR", 24, 4, .ro, 0, false, []⟩,
     ⟨"XAUTH", 20, 4, .ro, 0, false, []⟩,
     ⟨"DEFER", 16, 1, .ro, 0, false, []⟩,
     ⟨"RECIDX", 0, 16, .ro, 0, false, []⟩]⟩,
   ⟨"SYS_XFER", 0x24, 1, 0x4, 1, 0x4, none,
    [⟨"OPEN", 31, 1, .ro, 0, false, []⟩,
     ⟨"DEST", 29, 2, .ro, 0, false, []⟩,
     ⟨"BUSY", 28, 1, .ro, 0, false, []⟩,
     ⟨"RESULT", 24, 4, .ro, 0, false, []⟩,
     ⟨"NEXT", 0, 24, .ro, 0, false, []⟩]⟩,
   ⟨"SYS_FLASH", 0x28, 1, 0x4, 1, 0x4, none,
    [⟨"MODE", 30, 2, .ro, 0, false, []⟩,
     ⟨"DTR", 29, 1, .ro, 0, false, []⟩,
     ⟨"SIZE", 24, 5, .ro, 0, false, []⟩,
     ⟨"LOGDROP", 16, 8, .ro, 0, false, []⟩,
     ⟨"CALNEW", 2, 1, .ro, 0, false, []⟩,
     ⟨"CAL1", 1, 1, .ro, 0, false, []⟩,
     ⟨"CAL0", 0, 1, .ro, 0, false, []⟩]⟩,
   ⟨"SYS_GEN", 0x2C, 1, 0x4, 1, 0x4, none,
    [⟨"GEN", 0, 32, .ro, 0, false, []⟩]⟩]

/-- Registers of the CLK block. -/
def clkRegs : List RegDef :=
  [⟨"CLK_STAT", 0x10000, 1, 0x4, 1, 0x4, none,
    [⟨"NET_LOST", 10, 1, .w1c, 0, true, []⟩,
     ⟨"MEM_LOST", 9, 1, .w1c, 0, true, []⟩,
     ⟨"ROOT_LOST", 8, 1, .w1c, 0, true, []⟩,
     ⟨"NET_LOCK", 3, 1, .ro, 0, false, []⟩,
     ⟨"MEM_LOCK", 2, 1, .ro, 0, false, []⟩,
     ⟨"ROOT_LOCK", 1, 1, .ro, 0, false, []⟩,
     ⟨"REF_PRES", 0, 1, .ro, 0, false, []⟩]⟩,
   ⟨"CLK_TB_CTL", 0x10010, 1, 0x4, 1, 0x4, none,
    [⟨"PPS_WIDTH", 8, 8, .rw, 0x64, false, []⟩,
     ⟨"PPS_IN_POL", 3, 1, .rw, 0, false, []⟩,
     ⟨"PPS_OUT_EN", 2, 1, .rw, 0, false, []⟩,
     ⟨"SRC", 0, 2, .rw, 0, false, []⟩]⟩,
   ⟨"CLK_TB_CMD", 0x10014, 1, 0x4, 1, 0x4, none,
    [⟨"SET", 2, 1, .w1s, 0, true, []⟩,
     ⟨"STEP", 1, 1, .w1s, 0, true, []⟩,
     ⟨"CAPTURE", 0, 1, .w1s, 0, true, []⟩]⟩,
   ⟨"CLK_TB_CAP_FRAC", 0x10018, 1, 0x4, 1, 0x4, none,
    [⟨"FRAC", 0, 16, .ro, 0, false, []⟩]⟩,
   ⟨"CLK_TB_CAP_LO", 0x1001C, 1, 0x4, 1, 0x4, none,
    [⟨"NS_LO", 0, 32, .ro, 0, false, []⟩]⟩,
   ⟨"CLK_TB_CAP_HI", 0x10020, 1, 0x4, 1, 0x4, none,
    [⟨"NS_HI", 0, 32, .ro, 0, false, []⟩]⟩,
   ⟨"CLK_TB_RATE", 0x10024, 1, 0x4, 1, 0x4, none,
    [⟨"RATE", 0, 32, .rw, 0, true, []⟩]⟩,
   ⟨"CLK_TB_STEP_NS", 0x10028, 1, 0x4, 1, 0x4, none,
    [⟨"STEP", 0, 32, .rw, 0, true, [(0, 0x7FFFFFFF), (0x80000001, 0xFFFFFFFF)]⟩]⟩,
   ⟨"CLK_TB_SET_LO", 0x10030, 1, 0x4, 1, 0x4, none,
    [⟨"SET_LO", 0, 32, .rw, 0, true, []⟩]⟩,
   ⟨"CLK_TB_SET_HI", 0x10034, 1, 0x4, 1, 0x4, none,
    [⟨"SET_HI", 0, 32, .rw, 0, true, []⟩]⟩,
   ⟨"CLK_TB_STAT", 0x10038, 1, 0x4, 1, 0x4, none,
    [⟨"OFFSET", 16, 16, .ro, 0, false, []⟩,
     ⟨"PPS_REJ", 3, 1, .w1c, 0, true, []⟩,
     ⟨"STEPPED", 2, 1, .w1c, 0, true, []⟩,
     ⟨"STATE", 0, 2, .ro, 0, false, []⟩]⟩]

/-- Registers of the SHOT block. -/
def shotRegs : List RegDef :=
  [⟨"SHOT_NG", 0x20000, 1, 0x4, 2, 0x80, none,
    [⟨"NG", 0, 18, .rw, 0x23D84, false, []⟩]⟩,
   ⟨"SHOT_LRP", 0x20004, 1, 0x4, 2, 0x80, none,
    [⟨"DELAY", 0, 16, .rw, 0, false, []⟩]⟩,
   ⟨"SHOT_PEAK", 0x2001C, 1, 0x4, 2, 0x80, none,
    [⟨"VLD", 31, 1, .ro, 0, false, []⟩,
     ⟨"POINT", 0, 20, .ro, 0, false, []⟩]⟩,
   ⟨"SHOT_FLEN", 0x20008, 1, 0x4, 2, 0x80, none,
    [⟨"LEN", 0, 20, .rw, 0, false, []⟩]⟩,
   ⟨"SHOT_CHAN", 0x2000C, 1, 0x4, 2, 0x80, none,
    [⟨"PP", 16, 2, .rw, 0, false, []⟩,
     ⟨"GAUGE", 8, 8, .rw, 0xA, false, []⟩,
     ⟨"PITCH", 0, 8, .rw, 0xA, false, []⟩]⟩,
   ⟨"SHOT_CSTART", 0x20010, 1, 0x4, 2, 0x80, none,
    [⟨"START", 0, 20, .rw, 0, false, []⟩]⟩,
   ⟨"SHOT_NCH", 0x20014, 1, 0x4, 2, 0x80, none,
    [⟨"COUNT", 0, 19, .rw, 0, false, [(0, 262144)]⟩]⟩,
   ⟨"SHOT_GSTAT", 0x20018, 1, 0x4, 2, 0x80, none,
    [⟨"ERR", 20, 4, .ro, 0, false, []⟩,
     ⟨"NCH_ACT", 0, 19, .ro, 0, false, []⟩]⟩,
   ⟨"SHOT_TSET", 0x20020, 1, 0x4, 2, 0x80, none,
    [⟨"NT", 0, 2, .rw, 0, true, []⟩]⟩,
   ⟨"SHOT_TFREQ01", 0x20024, 1, 0x4, 2, 0x80, none,
    [⟨"F1", 16, 9, .rw, 0xC8, true, []⟩,
     ⟨"F0", 0, 9, .rw, 0x64, true, []⟩]⟩,
   ⟨"SHOT_TFREQ23", 0x20028, 1, 0x4, 2, 0x80, none,
    [⟨"F3", 16, 9, .rw, 0x190, true, []⟩,
     ⟨"F2", 0, 9, .rw, 0x12C, true, []⟩]⟩,
   ⟨"SHOT_GUARD", 0x20040, 1, 0x4, 2, 0x80, none,
    [⟨"GUARD", 0, 16, .rw, 0x2710, false, [(1000, 65535)]⟩]⟩] ++
  [⟨"SHOT_PERIOD", 0x20044, 1, 0x4, 2, 0x80, none,
    [⟨"TR", 0, 21, .rw, 0, true, []⟩]⟩,
   ⟨"SHOT_TRPER", 0x20054, 1, 0x4, 2, 0x80, none,
    [⟨"TR_ACT", 0, 21, .ro, 0, false, []⟩]⟩,
   ⟨"SHOT_RAMAN", 0x2004C, 1, 0x4, 2, 0x80, none,
    [⟨"DIV", 8, 8, .rw, 1, true, []⟩,
     ⟨"SLOT", 4, 2, .rw, 0, true, []⟩,
     ⟨"MODE", 0, 2, .rw, 0, true, []⟩]⟩,
   ⟨"SHOT_TRIG", 0x20050, 1, 0x4, 2, 0x80, none,
    [⟨"TSKEW", 16, 8, .rw, 0, true, []⟩,
     ⟨"TWIDTH", 0, 10, .rw, 0xA, true, []⟩]⟩,
   ⟨"SHOT_STAT", 0x20058, 1, 0x4, 2, 0x80, none,
    [⟨"RUNRND", 16, 8, .ro, 0, false, []⟩,
     ⟨"OVERLEN", 5, 1, .ro, 0, false, []⟩,
     ⟨"SEEDED", 4, 1, .ro, 0, false, []⟩,
     ⟨"STATE", 0, 3, .ro, 0, false, []⟩]⟩,
   ⟨"SHOT_SEQ_LO", 0x20060, 1, 0x4, 2, 0x80, none,
    [⟨"SEQ_LO", 0, 32, .ro, 0, false, []⟩]⟩,
   ⟨"SHOT_SEQ_HI", 0x20064, 1, 0x4, 2, 0x80, none,
    [⟨"SEQ_HI", 0, 16, .ro, 0, false, []⟩]⟩,
   ⟨"SHOT_STAGE", 0x2005C, 1, 0x4, 2, 0x80, none,
    [⟨"CODE", 4, 4, .ro, 0, true, []⟩,
     ⟨"SRC", 2, 1, .ro, 0, true, []⟩,
     ⟨"PEND", 1, 1, .ro, 0, true, []⟩,
     ⟨"GO", 0, 1, .w1s, 0, true, []⟩]⟩,
   ⟨"SHOT_PULSE", 0x2002C, 1, 0x4, 2, 0x80, none,
    [⟨"CHIPS", 24, 6, .rw, 0, true, []⟩,
     ⟨"CODE", 20, 1, .rw, 0, true, []⟩,
     ⟨"ROLL", 16, 4, .rw, 0, true, []⟩,
     ⟨"SHAPE", 12, 2, .rw, 0, true, []⟩,
     ⟨"WIDTH", 0, 10, .rw, 0x64, true, []⟩]⟩,
   ⟨"SHOT_CODE_LO", 0x20030, 1, 0x4, 2, 0x80, none,
    [⟨"CODE_LO", 0, 32, .rw, 0, true, []⟩]⟩,
   ⟨"SHOT_CODE_HI", 0x20034, 1, 0x4, 2, 0x80, none,
    [⟨"CODE_HI", 0, 32, .rw, 0, true, []⟩]⟩,
   ⟨"SHOT_AMP01", 0x20038, 1, 0x4, 2, 0x80, none,
    [⟨"A1", 16, 11, .rw, 0, true, []⟩,
     ⟨"A0", 0, 11, .rw, 0, true, []⟩]⟩] ++
  [⟨"SHOT_AMP23", 0x2003C, 1, 0x4, 2, 0x80, none,
    [⟨"A3", 16, 11, .rw, 0, true, []⟩,
     ⟨"A2", 0, 11, .rw, 0, true, []⟩]⟩,
   ⟨"SHOT_SYNOFS", 0x20070, 1, 0x4, 2, 0x80, none,
    [⟨"OFS_Q", 16, 12, .rw, 0, true, []⟩,
     ⟨"OFS_I", 0, 12, .rw, 0, true, []⟩]⟩,
   ⟨"SHOT_SYNTRIM", 0x20074, 1, 0x4, 2, 0x80, none,
    [⟨"QPHASE", 16, 8, .rw, 0, true, []⟩,
     ⟨"QGAIN", 0, 8, .rw, 0, true, []⟩]⟩,
   ⟨"SHOT_SYNEN", 0x20078, 1, 0x4, 2, 0x80, none,
    [⟨"EN", 0, 1, .rw, 0, false, []⟩]⟩,
   ⟨"SHOT_GATE", 0x20048, 1, 0x4, 2, 0x80, none,
    [⟨"GLAG", 16, 8, .rw, 0xA, true, []⟩,
     ⟨"GLEAD", 8, 8, .rw, 0xA, true, []⟩,
     ⟨"GSKEW", 0, 8, .rw, 0, true, []⟩]⟩]

/-- Registers of the SRC block. -/
def srcRegs : List RegDef :=
  [⟨"SRC_EMIT", 0x30104, 1, 0x4, 1, 0x4, none,
    [⟨"EMIT_LOST", 15, 1, .w1c, 0, true, []⟩,
     ⟨"PERMIT_B", 8, 1, .ro, 0, false, []⟩,
     ⟨"PERMIT_A", 7, 1, .ro, 0, false, []⟩,
     ⟨"OPT_OK", 6, 1, .ro, 0, false, []⟩,
     ⟨"EMIT_IN", 5, 1, .ro, 0, false, []⟩,
     ⟨"LATCHED", 4, 1, .ro, 0, false, []⟩,
     ⟨"REARM", 3, 1, .w1s, 0, true, []⟩,
     ⟨"EMLATCH", 2, 1, .rw, 1, false, []⟩,
     ⟨"ALLOW_B", 1, 1, .rw, 0, false, []⟩,
     ⟨"ALLOW_A", 0, 1, .rw, 0, false, []⟩]⟩,
   ⟨"SRC_CFG", 0x30000, 8, 0x20, 1, 0x4, none,
    [⟨"RSNS", 16, 10, .rw, 0x64, false, [(100, 1000)]⟩,
     ⟨"SNEN", 11, 1, .rw, 0, false, []⟩,
     ⟨"SNSEL", 8, 3, .rw, 0, false, []⟩,
     ⟨"GROUP", 4, 2, .rw, 0, false, []⟩,
     ⟨"SEED", 2, 2, .rw, 1, false, []⟩,
     ⟨"EN", 0, 1, .rw, 0, false, []⟩]⟩,
   ⟨"SRC_LIMIT", 0x30004, 8, 0x20, 1, 0x4, none,
    [⟨"SMAX", 16, 16, .rw, 0, false, []⟩,
     ⟨"IDLE", 0, 16, .rw, 0, false, []⟩]⟩,
   ⟨"SRC_PROT", 0x30008, 8, 0x20, 1, 0x4, none,
    [⟨"SEEDLOSS", 16, 16, .rw, 0x9C4, false, [(10, 65535)]⟩,
     ⟨"OCLIM", 0, 8, .rw, 0xFF, false, [(16, 255)]⟩]⟩,
   ⟨"SRC_SET", 0x3000C, 8, 0x20, 1, 0x4, none,
    [⟨"SETPOINT", 0, 16, .rw, 0, true, []⟩]⟩,
   ⟨"SRC_FADE", 0x30010, 8, 0x20, 1, 0x4, none,
    [⟨"EXP", 16, 1, .rw, 0, true, []⟩,
     ⟨"FADE_MS", 0, 16, .rw, 0x3E8, true, [(1, 65535)]⟩]⟩,
   ⟨"SRC_SYNC", 0x30100, 1, 0x4, 1, 0x4, none,
    [⟨"RNDSEL", 4, 2, .rw, 0, true, [(0, 2)]⟩,
     ⟨"PEND", 2, 1, .ro, 0, true, []⟩,
     ⟨"ARMRND", 1, 1, .w1s, 0, true, []⟩,
     ⟨"GO", 0, 1, .w1s, 0, true, []⟩]⟩,
   ⟨"SRC_STAT", 0x30014, 8, 0x20, 1, 0x4, none,
    [⟨"NOW", 16, 16, .ro, 0, false, []⟩,
     ⟨"FAULT", 13, 3, .ro, 0, false, []⟩,
     ⟨"THMODE", 11, 1, .ro, 1, false, []⟩,
     ⟨"THLIM", 10, 1, .ro, 0, false, []⟩,
     ⟨"UNSEED", 9, 1, .ro, 0, false, []⟩,
     ⟨"HELD", 8, 1, .ro, 0, false, []⟩,
     ⟨"FADING", 7, 1, .ro, 0, false, []⟩,
     ⟨"STAGED", 6, 1, .ro, 0, false, []⟩]⟩,
   ⟨"SRC_THERM", 0x30108, 1, 0x4, 1, 0x4, none,
    [⟨"KNEE", 16, 16, .rw, 0x1C2, false, []⟩,
     ⟨"DERATE", 8, 8, .rw, 0x14, false, []⟩]⟩,
   ⟨"SRC_TBL_IDX", 0x3010C, 1, 0x4, 1, 0x4, none,
    [⟨"INDEX", 0, 6, .rw, 0, false, []⟩]⟩,
   ⟨"SRC_TBL_DATA", 0x30110, 1, 0x4, 1, 0x4, some 0x3010C,
    [⟨"TEMP", 16, 16, .rw, 0, false, []⟩,
     ⟨"LIMIT", 0, 16, .rw, 0, false, []⟩]⟩,
   ⟨"SRC_GATEGRP", 0x30114, 1, 0x4, 1, 0x4, none,
    [⟨"TRIG_B", 6, 2, .rw, 0, false, []⟩,
     ⟨"TRIG_A", 4, 2, .rw, 0, false, []⟩,
     ⟨"GATE_B", 2, 2, .rw, 0, false, []⟩,
     ⟨"GATE_A", 0, 2, .rw, 0, false, []⟩]⟩] ++
  [⟨"SRC_GRP_CMD", 0x30118, 1, 0x4, 1, 0x4, none,
    [⟨"REARM", 0, 4, .w1s, 0, true, []⟩]⟩,
   ⟨"SRC_GRP", 0x30120, 4, 0x4, 1, 0x4, none,
    [⟨"CAUSE", 12, 4, .ro, 0, false, []⟩,
     ⟨"MEMBER", 8, 4, .ro, 0, false, []⟩,
     ⟨"SHUT", 1, 1, .ro, 0, false, []⟩,
     ⟨"MODE", 0, 1, .rw, 0, false, []⟩]⟩,
   ⟨"SRC_PLOSS", 0x30200, 1, 0x4, 2, 0x80, none,
    [⟨"PDMIN", 24, 8, .rw, 0, false, []⟩,
     ⟨"PDSEL", 16, 6, .rw, 0, false, [(0, 39)]⟩,
     ⟨"PDEN", 15, 1, .rw, 0, false, []⟩,
     ⟨"TLOWCNT", 10, 2, .ro, 0, false, []⟩,
     ⟨"LOWCNT", 8, 2, .ro, 0, false, []⟩,
     ⟨"LESUSP", 0, 1, .ro, 0, false, []⟩]⟩,
   ⟨"SRC_LEBASE", 0x30204, 1, 0x4, 2, 0x80, none,
    [⟨"BASE", 0, 32, .ro, 0, false, []⟩]⟩,
   ⟨"SRC_SELV", 0x30208, 1, 0x4, 2, 0x80, none,
    [⟨"PSCALE", 24, 8, .rw, 0x10, false, [(1, 255)]⟩,
     ⟨"ABSDB", 16, 8, .rw, 0xA, false, []⟩,
     ⟨"GTHR", 8, 8, .rw, 6, false, []⟩,
     ⟨"FRES", 0, 8, .rw, 0x32, false, []⟩]⟩,
   ⟨"SRC_SELVST", 0x3020C, 1, 0x4, 2, 0x80, none,
    [⟨"STATE", 29, 3, .ro, 0, false, []⟩,
     ⟨"CAUSE", 26, 3, .ro, 0, false, []⟩,
     ⟨"POINT", 0, 21, .ro, 0, false, []⟩]⟩]

/-- Registers of the SLC block. -/
def slcRegs : List RegDef :=
  [⟨"SLC_FGAIN", 0x40500, 1, 0x4, 1, 0x4, none,
    [⟨"REF_Q", 15, 3, .rw, 0, false, [(0, 5)]⟩,
     ⟨"REF_I", 12, 3, .rw, 0, false, [(0, 5)]⟩,
     ⟨"ST_B", 9, 3, .rw, 0, false, [(0, 5)]⟩,
     ⟨"AS_B", 6, 3, .rw, 0, false, [(0, 5)]⟩,
     ⟨"ST_A", 3, 3, .rw, 0, false, [(0, 5)]⟩,
     ⟨"AS_A", 0, 3, .rw, 0, false, [(0, 5)]⟩]⟩,
   ⟨"SLC_PROF", 0x40400, 8, 0x4, 2, 0x80, none,
    [⟨"EN", 31, 1, .rw, 1, true, []⟩,
     ⟨"GAIN", 24, 3, .rw, 0, true, []⟩,
     ⟨"OFFSET", 0, 21, .rw, 0, true, [(0, 1999984)]⟩]⟩,
   ⟨"SLC_PSTAGE", 0x40420, 1, 0x4, 2, 0x80, none,
    [⟨"NACT", 8, 4, .ro, 1, true, []⟩,
     ⟨"CODE", 4, 4, .ro, 0, true, []⟩,
     ⟨"TRUNC", 2, 1, .ro, 0, true, []⟩,
     ⟨"PEND", 1, 1, .ro, 0, true, []⟩,
     ⟨"GO", 0, 1, .w1s, 0, true, []⟩]⟩,
   ⟨"SLC_CALOFS", 0x40008, 15, 0x40, 1, 0x4, none,
    [⟨"CALTEMP", 16, 16, .ro, 0, false, []⟩,
     ⟨"OFS", 0, 16, .ro, 0, false, []⟩]⟩,
   ⟨"SLC_CALSKEW", 0x4000C, 15, 0x40, 1, 0x4, none,
    [⟨"SKEW", 0, 8, .ro, 0, false, []⟩]⟩,
   ⟨"SLC_GCAL_IDX", 0x40520, 1, 0x4, 1, 0x4, none,
    [⟨"INDEX", 0, 7, .rw, 0, true, []⟩]⟩,
   ⟨"SLC_GCAL_DATA", 0x40524, 1, 0x4, 1, 0x4, some 0x40520,
    [⟨"MAG", 16, 16, .ro, 0x8000, false, []⟩,
     ⟨"DELAY", 0, 16, .ro, 0, false, []⟩]⟩,
   ⟨"SLC_SPARE", 0x40518, 1, 0x4, 1, 0x4, none,
    [⟨"STHR", 24, 8, .rw, 0x28, false, []⟩,
     ⟨"CALAGE", 16, 8, .rw, 0x18, false, []⟩,
     ⟨"CALDT", 12, 4, .rw, 5, false, []⟩,
     ⟨"AUTOCAL", 11, 1, .rw, 1, false, []⟩,
     ⟨"SHDW_RND", 0, 8, .rw, 0x40, false, [(0, 0), (16, 255)]⟩]⟩,
   ⟨"SLC_CAL_CMD", 0x40510, 1, 0x4, 1, 0x4, none,
    [⟨"INTRUSIVE", 9, 1, .rw, 0, true, []⟩,
     ⟨"KEEP", 8, 1, .rw, 0, true, []⟩,
     ⟨"SLICE", 4, 4, .rw, 0, true, [(0, 14)]⟩,
     ⟨"ABORT", 1, 1, .w1s, 0, true, []⟩,
     ⟨"START", 0, 1, .w1s, 0, true, []⟩]⟩,
   ⟨"SLC_CAL_STAT", 0x40514, 1, 0x4, 1, 0x4, none,
    [⟨"RESULT", 28, 4, .ro, 0, false, []⟩,
     ⟨"SLICE", 24, 4, .ro, 0, false, []⟩,
     ⟨"PHASE", 21, 3, .ro, 0, false, []⟩,
     ⟨"BUSY", 0, 1, .ro, 0, false, []⟩]⟩,
   ⟨"SLC_STAT", 0x40000, 15, 0x40, 1, 0x4, none,
    [⟨"FUNC", 28, 4, .ro, 0, false, []⟩,
     ⟨"MODE", 25, 3, .ro, 7, false, []⟩,
     ⟨"GAIN", 22, 3, .ro, 0, false, []⟩,
     ⟨"FAULT", 19, 3, .ro, 0, false, []⟩,
     ⟨"OVRLONG", 3, 1, .w1c, 0, true, []⟩,
     ⟨"OVR", 2, 1, .w1c, 0, true, []⟩]⟩,
   ⟨"SLC_OVRCNT", 0x40004, 15, 0x40, 1, 0x4, none,
    [⟨"COUNT", 0, 32, .rc, 0, true, []⟩]⟩] ++
  [⟨"SLC_ROLE0", 0x40504, 1, 0x4, 1, 0x4, none,
    [⟨"F7", 28, 4, .ro, 7, false, []⟩,
     ⟨"F6", 24, 4, .ro, 6, false, []⟩,
     ⟨"F5", 20, 4, .ro, 5, false, []⟩,
     ⟨"F4", 16, 4, .ro, 4, false, []⟩,
     ⟨"F3", 12, 4, .ro, 3, false, []⟩,
     ⟨"F2", 8, 4, .ro, 2, false, []⟩,
     ⟨"F1", 4, 4, .ro, 1, false, []⟩,
     ⟨"F0", 0, 4, .ro, 0, false, []⟩]⟩,
   ⟨"SLC_ROLE1", 0x40508, 1, 0x4, 1, 0x4, none,
    [⟨"SPARE", 24, 4, .ro, 0xE, false, []⟩,
     ⟨"F13", 20, 4, .ro, 0xD, false, []⟩,
     ⟨"F12", 16, 4, .ro, 0xC, false, []⟩,
     ⟨"F11", 12, 4, .ro, 0xB, false, []⟩,
     ⟨"F10", 8, 4, .ro, 0xA, false, []⟩,
     ⟨"F9", 4, 4, .ro, 9, false, []⟩,
     ⟨"F8", 0, 4, .ro, 8, false, []⟩]⟩]

/-- Registers of the FRP block. -/
def frpRegs : List RegDef :=
  [⟨"FRP_CFG", 0x50000, 1, 0x4, 2, 0x80, none,
    [⟨"FABS", 24, 6, .rw, 0x10, true, [(0, 49)]⟩,
     ⟨"FTH", 16, 8, .rw, 0x20, true, []⟩,
     ⟨"STSH", 8, 4, .rw, 6, true, []⟩,
     ⟨"AID", 4, 1, .rw, 1, false, []⟩,
     ⟨"POLMODE", 0, 2, .rw, 0, false, [(0, 2)]⟩]⟩,
   ⟨"FRP_CDT", 0x50004, 1, 0x4, 2, 0x80, none,
    [⟨"EMIT", 16, 16, .rw, 0, false, []⟩,
     ⟨"RXSKEW", 0, 8, .rw, 0, false, []⟩]⟩,
   ⟨"FRP_SCALE", 0x50008, 1, 0x4, 2, 0x80, none,
    [⟨"XI", 21, 11, .rw, 0x30C, false, [(500, 1000)]⟩,
     ⟨"LAMBDA", 0, 21, .rw, 0x17A6B0, false, [(1260000, 1675000)]⟩]⟩,
   ⟨"FRP_HM0", 0x50010, 1, 0x4, 2, 0x80, none,
    [⟨"NDB", 16, 16, .ro, 0, false, []⟩,
     ⟨"MDB", 0, 16, .ro, 0, false, []⟩]⟩,
   ⟨"FRP_HM1", 0x50014, 1, 0x4, 2, 0x80, none,
    [⟨"GDB", 16, 16, .ro, 0, false, []⟩,
     ⟨"EDB", 0, 16, .ro, 0, false, []⟩]⟩,
   ⟨"FRP_NF", 0x50018, 1, 0x4, 2, 0x80, none,
    [⟨"VLD", 16, 1, .ro, 0, false, []⟩,
     ⟨"NFDB", 0, 16, .ro, 0, false, []⟩]⟩,
   ⟨"FRP_STAT", 0x5001C, 1, 0x4, 2, 0x80, none,
    [⟨"SATSEEN", 3, 1, .w1c, 0, true, []⟩,
     ⟨"YDROP", 2, 1, .ro, 0, false, []⟩,
     ⟨"XDROP", 1, 1, .ro, 0, false, []⟩,
     ⟨"ACTIVE", 0, 1, .ro, 0, false, []⟩]⟩,
   ⟨"FRP_CD_CFG", 0x50100, 1, 0x4, 1, 0x4, none,
    [⟨"EN", 31, 1, .rw, 1, false, []⟩,
     ⟨"CSGN", 30, 1, .rw, 0, false, []⟩,
     ⟨"CTC", 20, 4, .rw, 0xA, false, []⟩,
     ⟨"DREF", 0, 13, .rw, 0x32, false, [(8, 4096)]⟩]⟩,
   ⟨"FRP_CD_LOCK", 0x50104, 1, 0x4, 1, 0x4, none,
    [⟨"LOCKMIN", 0, 16, .rw, 0x400, false, []⟩]⟩,
   ⟨"FRP_CD_STAT", 0x50108, 1, 0x4, 1, 0x4, none,
    [⟨"AMP", 16, 16, .ro, 0, false, []⟩,
     ⟨"SLIP", 2, 1, .w1c, 0, true, []⟩,
     ⟨"LOST", 1, 1, .w1c, 0, true, []⟩,
     ⟨"LOCK", 0, 1, .ro, 0, false, []⟩]⟩]

/-- Registers of the CMT block. -/
def cmtRegs : List RegDef :=
  [⟨"CMT_STAT", 0x60000, 1, 0x4, 2, 0x80, none,
    [⟨"HELDRUN", 7, 1, .ro, 0, false, []⟩,
     ⟨"OVERLEN", 3, 1, .ro, 0, false, []⟩,
     ⟨"STATE", 0, 3, .ro, 0, false, []⟩]⟩,
   ⟨"CMT_CRND", 0x60004, 1, 0x4, 2, 0x80, none,
    [⟨"RND", 0, 32, .ro, 0, false, []⟩]⟩,
   ⟨"CMT_BAD", 0x60008, 1, 0x4, 2, 0x80, none,
    [⟨"COUNT", 0, 32, .rc, 0, true, []⟩]⟩,
   ⟨"CMT_ROLL", 0x6000C, 1, 0x4, 2, 0x80, none,
    [⟨"COUNT", 0, 32, .rc, 0, true, []⟩]⟩,
   ⟨"CMT_ERASE", 0x60010, 1, 0x4, 2, 0x80, none,
    [⟨"COUNT", 0, 32, .rc, 0, true, []⟩]⟩,
   ⟨"CMT_TBAD", 0x60024, 1, 0x4, 2, 0x80, none,
    [⟨"COUNT", 0, 32, .rc, 0, true, []⟩]⟩,
   ⟨"CMT_LAST", 0x60014, 1, 0x4, 2, 0x80, none,
    [⟨"RND", 16, 16, .ro, 0, false, []⟩,
     ⟨"PART", 15, 1, .ro, 0, false, []⟩,
     ⟨"TONE", 12, 2, .ro, 0, false, []⟩,
     ⟨"CAUSE", 0, 9, .ro, 0, false, []⟩]⟩,
   ⟨"CMT_LSEQ_LO", 0x60018, 1, 0x4, 2, 0x80, none,
    [⟨"SEQ_LO", 0, 32, .ro, 0, false, []⟩]⟩,
   ⟨"CMT_LSEQ_HI", 0x6001C, 1, 0x4, 2, 0x80, none,
    [⟨"SEQ_HI", 0, 16, .ro, 0, false, []⟩]⟩,
   ⟨"CMT_RPL", 0x60020, 1, 0x4, 2, 0x80, none,
    [⟨"RPLMAX", 0, 16, .rc, 0, true, []⟩]⟩]

/-- Registers of the FLT block. -/
def fltRegs : List RegDef :=
  [⟨"FLT_DSCFG", 0x70000, 2, 0x10, 2, 0x80, none,
    [⟨"EN", 31, 1, .rw, 0, true, []⟩,
     ⟨"PRESET", 18, 2, .rw, 0, true, []⟩,
     ⟨"RATIO", 0, 18, .rw, 1, true, [(1, 131072)]⟩]⟩,
   ⟨"FLT_DSGDLY", 0x70004, 2, 0x10, 2, 0x80, none,
    [⟨"GDLY", 0, 23, .ro, 0, false, []⟩]⟩,
   ⟨"FLT_DSGDUS", 0x70008, 2, 0x10, 2, 0x80, none,
    [⟨"GDUS", 0, 32, .ro, 0, false, []⟩]⟩,
   ⟨"FLT_DSSTAT", 0x7000C, 2, 0x10, 2, 0x80, none,
    [⟨"SAT", 31, 1, .w1c, 0, true, []⟩,
     ⟨"LASTRST", 20, 4, .ro, 0, false, []⟩,
     ⟨"UNSET", 0, 19, .ro, 0, false, []⟩]⟩,
   ⟨"FLT_AUX_IDX", 0x70200, 1, 0x4, 1, 0x4, none,
    [⟨"INDEX", 0, 6, .rw, 0, true, []⟩]⟩,
   ⟨"FLT_AUX_CFG", 0x70204, 1, 0x4, 1, 0x4, some 0x70200,
    [⟨"EN", 31, 1, .rw, 0, true, []⟩,
     ⟨"PRESET", 18, 2, .rw, 0, true, []⟩,
     ⟨"RATIO", 0, 18, .rw, 1, true, [(1, 131072)]⟩]⟩,
   ⟨"FLT_AUX_GDLY", 0x70208, 1, 0x4, 1, 0x4, some 0x70200,
    [⟨"GDLY", 0, 23, .ro, 0, false, []⟩]⟩,
   ⟨"FLT_AUX_STAT", 0x7020C, 1, 0x4, 1, 0x4, some 0x70200,
    [⟨"SCNT", 8, 23, .ro, 0, false, []⟩,
     ⟨"LASTRST", 4, 4, .ro, 0, false, []⟩,
     ⟨"STALE", 2, 1, .ro, 1, false, []⟩,
     ⟨"STATE", 0, 2, .ro, 0, false, []⟩]⟩,
   ⟨"FLT_AUX_VAL", 0x70210, 1, 0x4, 1, 0x4, some 0x70200,
    [⟨"PICOT", 16, 16, .ro, 0, false, []⟩,
     ⟨"HOLD", 0, 16, .ro, 0, false, []⟩]⟩,
   ⟨"FLT_FIR_IDX", 0x70220, 1, 0x4, 1, 0x4, none,
    [⟨"PRESET", 8, 2, .rw, 1, true, []⟩,
     ⟨"TAP", 0, 7, .rw, 0, true, []⟩]⟩,
   ⟨"FLT_FIR_DATA", 0x70224, 1, 0x4, 1, 0x4, none,
    [⟨"H", 0, 20, .ro, 0, false, []⟩]⟩]

/-- Registers of the LANE block. -/
def laneRegs : List RegDef :=
  [⟨"LANE_STAT", 0x80000, 1, 0x4, 33, 0x1000, none,
    [⟨"MODE", 29, 3, .ro, 0, false, []⟩,
     ⟨"LL", 24, 5, .ro, 0, false, []⟩,
     ⟨"FAULT", 20, 4, .ro, 0, false, []⟩,
     ⟨"TRAP", 16, 4, .ro, 0, false, []⟩,
     ⟨"OVERRUN", 3, 1, .w1c, 0, true, []⟩,
     ⟨"WAIT", 2, 1, .ro, 0, false, []⟩,
     ⟨"PROG", 0, 1, .ro, 0, false, []⟩]⟩,
   ⟨"LANE_PC", 0x80004, 1, 0x4, 33, 0x1000, none,
    [⟨"FL", 16, 6, .ro, 0, false, []⟩,
     ⟨"PC", 0, 12, .ro, 0, false, []⟩]⟩,
   ⟨"LANE_UTIL", 0x80008, 1, 0x4, 33, 0x1000, none,
    [⟨"UDECL", 16, 16, .ro, 0, false, []⟩,
     ⟨"UCUR", 0, 16, .ro, 0, false, []⟩]⟩,
   ⟨"LANE_UPEAK", 0x8000C, 1, 0x4, 33, 0x1000, none,
    [⟨"UPEAK", 0, 16, .rc, 0, true, []⟩]⟩,
   ⟨"LANE_CYCMAX", 0x80010, 1, 0x4, 33, 0x1000, none,
    [⟨"CYC", 0, 32, .rc, 0, true, []⟩]⟩,
   ⟨"LANE_ECC", 0x80014, 1, 0x4, 33, 0x1000, none,
    [⟨"CORR", 0, 16, .rc, 0, true, []⟩]⟩,
   ⟨"LANE_CKPT", 0x80018, 1, 0x4, 33, 0x1000, none,
    [⟨"NEWEST", 16, 16, .ro, 0, false, []⟩,
     ⟨"HELD", 0, 4, .ro, 0, false, []⟩]⟩,
   ⟨"LANE_INCFG", 0x80020, 4, 0x10, 33, 0x1000, none,
    [⟨"EN", 31, 1, .ro, 0, false, []⟩,
     ⟨"SHIFT", 24, 5, .ro, 0, false, []⟩,
     ⟨"BOBBIN", 16, 7, .ro, 0, false, []⟩]⟩,
   ⟨"LANE_INFST", 0x80024, 4, 0x10, 33, 0x1000, none,
    [⟨"FIRST", 0, 19, .ro, 0, false, []⟩]⟩,
   ⟨"LANE_INCNT", 0x80028, 4, 0x10, 33, 0x1000, none,
    [⟨"COUNT", 0, 19, .ro, 0, false, []⟩]⟩,
   ⟨"LANE_INCYC", 0x8002C, 4, 0x10, 33, 0x1000, none,
    [⟨"CYC", 0, 32, .ro, 0, false, []⟩]⟩,
   ⟨"LANE_OUT", 0x80060, 4, 0x4, 33, 0x1000, none,
    [⟨"EN", 31, 1, .ro, 0, false, []⟩,
     ⟨"BOBBIN", 0, 7, .ro, 0, false, []⟩]⟩] ++
  [⟨"LANE_K", 0x80080, 8, 0x4, 33, 0x1000, none,
    [⟨"VALUE", 0, 32, .rw, 0, true, []⟩]⟩,
   ⟨"LANE_KSTAT", 0x800A0, 1, 0x4, 33, 0x1000, none,
    [⟨"PEND", 0, 1, .ro, 0, false, []⟩]⟩]

/-- Registers of the DTS block. -/
def dtsRegs : List RegDef :=
  [⟨"DTS_CFG", 0xA1000, 1, 0x4, 2, 0x80, none,
    [⟨"EN", 31, 1, .rw, 0, false, []⟩,
     ⟨"DUAL", 30, 1, .rw, 0, false, []⟩,
     ⟨"FIXED", 29, 1, .rw, 0, false, []⟩,
     ⟨"LL", 24, 5, .rw, 0, false, []⟩,
     ⟨"AVGEXP", 16, 5, .rw, 0x10, false, []⟩,
     ⟨"SNSEL", 12, 3, .rw, 0, false, []⟩,
     ⟨"WB", 0, 9, .rw, 0xA, false, []⟩]⟩,
   ⟨"DTS_START", 0xA1004, 1, 0x4, 2, 0x80, none,
    [⟨"START", 0, 20, .rw, 0, false, []⟩]⟩,
   ⟨"DTS_NBIN", 0xA1008, 1, 0x4, 2, 0x80, none,
    [⟨"COUNT", 0, 18, .rw, 0, false, [(0, 131072)]⟩]⟩,
   ⟨"DTS_RLRP", 0xA100C, 1, 0x4, 2, 0x80, none,
    [⟨"DELAY", 0, 16, .rw, 0, false, []⟩]⟩,
   ⟨"DTS_REF", 0xA1010, 1, 0x4, 2, 0x80, none,
    [⟨"REFCNT", 20, 12, .rw, 0, false, []⟩,
     ⟨"REFSTART", 0, 17, .rw, 0, false, []⟩]⟩,
   ⟨"DTS_COEF", 0xA1014, 1, 0x4, 2, 0x80, none,
    [⟨"DALPHA", 16, 16, .rw, 0, true, []⟩,
     ⟨"GAMMA", 0, 16, .rw, 0xF776, true, [(50000, 70000)]⟩]⟩,
   ⟨"DTS_LNC", 0xA1018, 1, 0x4, 2, 0x80, none,
    [⟨"LNC", 0, 32, .rw, 0, true, []⟩]⟩,
   ⟨"DTS_LNCACT", 0xA1024, 1, 0x4, 2, 0x80, none,
    [⟨"LNCACT", 0, 32, .ro, 0, false, []⟩]⟩,
   ⟨"DTS_BOB", 0xA101C, 1, 0x4, 2, 0x80, none,
    [⟨"OUT", 8, 7, .rw, 0, false, []⟩,
     ⟨"RAW", 0, 7, .rw, 0, false, []⟩]⟩,
   ⟨"DTS_STAT", 0xA1020, 1, 0x4, 2, 0x80, none,
    [⟨"ERR", 28, 4, .ro, 0, false, []⟩,
     ⟨"STATE", 26, 2, .ro, 0, false, []⟩,
     ⟨"REFHOLD", 25, 1, .ro, 0, false, []⟩,
     ⟨"LOSTSEEN", 24, 1, .w1c, 0, true, []⟩,
     ⟨"NBACT", 0, 18, .ro, 0, false, []⟩]⟩,
   ⟨"DTS_PER", 0xA1028, 1, 0x4, 2, 0x80, none,
    [⟨"K", 0, 32, .ro, 0, false, []⟩]⟩,
   ⟨"DTS_GOOD", 0xA102C, 1, 0x4, 2, 0x80, none,
    [⟨"GOOD", 0, 25, .ro, 0, false, []⟩]⟩] ++
  [⟨"DTS_LOOP", 0xA1100, 1, 0x4, 1, 0x4, none,
    [⟨"LOOP", 0, 20, .rw, 0, false, []⟩]⟩]

/-- Registers of the HK block. -/
def hkRegs : List RegDef :=
  [⟨"HK_CTL", 0xB0000, 1, 0x4, 1, 0x4, none,
    [⟨"TLEN", 24, 6, .rw, 0, false, []⟩,
     ⟨"VNOM", 12, 12, .rw, 0, false, []⟩,
     ⟨"REFSEL", 8, 2, .rw, 0, false, [(0, 2)]⟩,
     ⟨"MONEN", 4, 1, .rw, 1, false, []⟩,
     ⟨"MODE", 0, 1, .rw, 1, false, []⟩]⟩,
   ⟨"HK_RCFG", 0xB0004, 1, 0x4, 1, 0x4, none,
    [⟨"DLY", 16, 16, .rw, 0, false, []⟩,
     ⟨"SRC", 8, 4, .rw, 0, false, [(0, 9)]⟩,
     ⟨"LEN", 0, 6, .rw, 0, false, [(0, 32)]⟩]⟩,
   ⟨"HK_ICFG", 0xB0008, 1, 0x4, 1, 0x4, none,
    [⟨"DLY", 16, 16, .rw, 0, false, []⟩,
     ⟨"SRC", 8, 4, .rw, 0, false, [(0, 9)]⟩,
     ⟨"LEN", 0, 6, .rw, 0, false, [(0, 8)]⟩]⟩,
   ⟨"HK_TIMER", 0xB000C, 1, 0x4, 1, 0x4, none,
    [⟨"PERIOD", 0, 32, .rw, 0x7D0, false, [(20, 4294967295)]⟩]⟩,
   ⟨"HK_SWTRIG", 0xB0010, 1, 0x4, 1, 0x4, none,
    [⟨"IGO", 1, 1, .w1s, 0, true, []⟩,
     ⟨"RGO", 0, 1, .w1s, 0, true, []⟩]⟩,
   ⟨"HK_STAT", 0xB0014, 1, 0x4, 1, 0x4, none,
    [⟨"EYERR", 16, 1, .w1c, 0, true, []⟩,
     ⟨"REFERR", 15, 1, .w1c, 0, true, []⟩,
     ⟨"IOVR", 14, 1, .w1c, 0, true, []⟩,
     ⟨"ROVR", 13, 1, .w1c, 0, true, []⟩,
     ⟨"SHMIS", 12, 1, .w1c, 0, true, []⟩,
     ⟨"IDLEST", 9, 3, .ro, 0, false, []⟩,
     ⟨"ACTIVE", 8, 1, .ro, 0, false, []⟩,
     ⟨"REF_OK", 4, 1, .ro, 0, false, []⟩,
     ⟨"RUN", 0, 2, .ro, 3, false, []⟩]⟩,
   ⟨"HK_RSEQ", 0xB0100, 32, 0x4, 1, 0x4, none,
    [⟨"SMPX", 8, 4, .rw, 0, false, []⟩,
     ⟨"INPUT", 0, 6, .rw, 0, false, [(0, 39)]⟩]⟩,
   ⟨"HK_ISEQ", 0xB0180, 8, 0x4, 1, 0x4, none,
    [⟨"SMPX", 8, 4, .rw, 0, false, []⟩,
     ⟨"INPUT", 0, 6, .rw, 0, false, [(0, 39)]⟩]⟩,
   ⟨"HK_TBL_IDX", 0xB0018, 1, 0x4, 1, 0x4, none,
    [⟨"INDEX", 0, 6, .rw, 0, false, []⟩]⟩,
   ⟨"HK_TBL_DATA", 0xB001C, 1, 0x4, 1, 0x4, some 0xB0018,
    [⟨"DELAY", 16, 16, .rw, 0, false, []⟩,
     ⟨"REPEAT", 12, 4, .rw, 1, false, []⟩,
     ⟨"SLOT", 6, 6, .rw, 0, false, [(0, 39)]⟩,
     ⟨"INPUT", 0, 6, .rw, 0, false, [(0, 39)]⟩]⟩,
   ⟨"HK_CAL", 0xB0020, 1, 0x4, 1, 0x4, none,
    [⟨"PER", 24, 8, .rw, 0x3C, false, []⟩,
     ⟨"DT", 20, 4, .rw, 5, false, []⟩,
     ⟨"RESULT", 12, 4, .ro, 0, false, []⟩,
     ⟨"AUTOCAL", 2, 1, .rw, 1, false, []⟩,
     ⟨"INTRUSIVE", 1, 1, .rw, 0, true, []⟩,
     ⟨"START", 0, 1, .w1s, 0, true, []⟩]⟩,
   ⟨"HK_COEF_A", 0xB0024, 1, 0x4, 1, 0x4, none,
    [⟨"GAIN", 16, 16, .ro, 0x8000, false, []⟩,
     ⟨"OFS", 0, 16, .ro, 0, false, []⟩]⟩] ++
  [⟨"HK_COEF_B", 0xB0028, 1, 0x4, 1, 0x4, none,
    [⟨"GAIN", 16, 16, .ro, 0x8000, false, []⟩,
     ⟨"OFS", 0, 16, .ro, 0, false, []⟩]⟩,
   ⟨"HK_PDDLY", 0xB002C, 1, 0x4, 1, 0x4, none,
    [⟨"DLY_B", 16, 16, .rw, 0x14, false, []⟩,
     ⟨"DLY_A", 0, 16, .rw, 0x14, false, []⟩]⟩,
   ⟨"HK_AIN", 0xB0030, 1, 0x4, 1, 0x4, none,
    [⟨"CLAMP", 8, 8, .w1c, 0, true, []⟩,
     ⟨"RANGE", 0, 8, .rw, 0, false, []⟩]⟩,
   ⟨"HK_EYE", 0xB0034, 1, 0x4, 1, 0x4, none,
    [⟨"DIV", 12, 2, .rw, 0, true, [(0, 2)]⟩,
     ⟨"CODE", 0, 12, .rw, 0x800, true, []⟩]⟩,
   ⟨"HK_TEST", 0xB0038, 1, 0x4, 1, 0x4, none,
    [⟨"TPER", 24, 8, .rw, 0xA, false, []⟩,
     ⟨"TOL", 16, 8, .rw, 5, false, []⟩,
     ⟨"GO", 15, 1, .w1s, 0, true, []⟩,
     ⟨"BUSY", 14, 1, .ro, 0, false, []⟩,
     ⟨"INPUT", 0, 6, .rw, 0, true, [(0, 31)]⟩]⟩,
   ⟨"HK_TFAIL", 0xB003C, 1, 0x4, 1, 0x4, none,
    [⟨"FAIL", 0, 32, .w1c, 0, true, []⟩]⟩,
   ⟨"HK_RES", 0xB0200, 40, 0x4, 1, 0x4, none,
    [⟨"NEW", 31, 1, .rc, 0, true, []⟩,
     ⟨"OVR", 30, 1, .ro, 0, false, []⟩,
     ⟨"CLAMP", 29, 1, .ro, 0, false, []⟩,
     ⟨"DISC", 28, 1, .ro, 0, false, []⟩,
     ⟨"DELAYED", 27, 1, .ro, 0, false, []⟩,
     ⟨"CONV", 26, 1, .ro, 0, false, []⟩,
     ⟨"QUAL", 16, 8, .ro, 0, false, []⟩,
     ⟨"VALUE", 0, 16, .ro, 0, false, []⟩]⟩,
   ⟨"HK_MON", 0xB0300, 7, 0x4, 1, 0x4, none,
    [⟨"NEW", 31, 1, .rc, 0, true, []⟩,
     ⟨"OVR", 30, 1, .ro, 0, false, []⟩,
     ⟨"CLAMP", 29, 1, .ro, 0, false, []⟩,
     ⟨"DISC", 28, 1, .ro, 0, false, []⟩,
     ⟨"DELAYED", 27, 1, .ro, 0, false, []⟩,
     ⟨"CONV", 26, 1, .ro, 0, false, []⟩,
     ⟨"QUAL", 16, 8, .ro, 0, false, []⟩,
     ⟨"VALUE", 0, 16, .ro, 0, false, []⟩]⟩,
   ⟨"HK_PDRES", 0xB0040, 2, 0x4, 1, 0x4, none,
    [⟨"NEW", 31, 1, .rc, 0, true, []⟩,
     ⟨"OVR", 30, 1, .ro, 0, false, []⟩,
     ⟨"CLAMP", 29, 1, .ro, 0, false, []⟩,
     ⟨"DISC", 28, 1, .ro, 0, false, []⟩,
     ⟨"DELAYED", 27, 1, .ro, 0, false, []⟩,
     ⟨"CONV", 26, 1, .ro, 0, false, []⟩,
     ⟨"QUAL", 16, 8, .ro, 0, false, []⟩,
     ⟨"VALUE", 0, 16, .ro, 0, false, []⟩]⟩]

/-- Registers of the SEN block. -/
def senRegs : List RegDef :=
  [⟨"SEN_CFG", 0xC0000, 8, 0x20, 1, 0x4, none,
    [⟨"EN", 31, 1, .rw, 0, false, []⟩,
     ⟨"WIRE", 29, 2, .rw, 0, false, [(0, 2)]⟩,
     ⟨"CONV", 27, 2, .rw, 0, false, [(0, 2)]⟩,
     ⟨"CHKEN", 26, 1, .rw, 0, false, []⟩]⟩,
   ⟨"SEN_EXC", 0xC0004, 8, 0x20, 1, 0x4, none,
    [⟨"EXON", 11, 1, .rw, 0, true, []⟩,
     ⟨"GAIN", 8, 3, .rw, 0, true, []⟩,
     ⟨"POL", 3, 1, .rw, 0, true, []⟩,
     ⟨"ISEL", 0, 3, .rw, 0, true, []⟩]⟩,
   ⟨"SEN_LEAD", 0xC0008, 8, 0x20, 1, 0x4, none,
    [⟨"RMEAS", 16, 16, .ro, 0, false, []⟩,
     ⟨"RCFG", 0, 16, .rw, 0, false, []⟩]⟩,
   ⟨"SEN_ZLIM", 0xC000C, 8, 0x20, 1, 0x4, none,
    [⟨"ZMAX", 16, 16, .rw, 0xFFFF, false, []⟩,
     ⟨"ZMIN", 0, 16, .rw, 0, false, []⟩]⟩,
   ⟨"SEN_STAT", 0xC0010, 8, 0x20, 1, 0x4, none,
    [⟨"ZMEAS", 16, 16, .ro, 0, false, []⟩,
     ⟨"IMPF", 7, 1, .w1c, 0, true, []⟩,
     ⟨"CLAMP", 6, 1, .w1c, 0, true, []⟩,
     ⟨"OOR", 5, 1, .w1c, 0, true, []⟩,
     ⟨"PROV", 4, 1, .ro, 0, false, []⟩,
     ⟨"CHK", 3, 1, .ro, 0, false, []⟩,
     ⟨"DISC", 2, 1, .ro, 0, false, []⟩]⟩,
   ⟨"SEN_OUT", 0xC0014, 8, 0x20, 1, 0x4, none,
    [⟨"QUAL", 16, 8, .ro, 0, false, []⟩,
     ⟨"VALUE", 0, 16, .ro, 0, false, []⟩]⟩,
   ⟨"SEN_CHK", 0xC0100, 1, 0x4, 1, 0x4, none,
    [⟨"CHKPER", 0, 8, .rw, 0xA, false, []⟩]⟩]

/-- Registers of the LOOP block. -/
def loopRegs : List RegDef :=
  [⟨"LOOP_CFG", 0xD0000, 8, 0x20, 1, 0x4, none,
    [⟨"EN", 31, 1, .rw, 0, false, []⟩,
     ⟨"MODE", 29, 2, .rw, 0, false, []⟩,
     ⟨"FDIR", 28, 1, .rw, 0, false, []⟩,
     ⟨"RBEN", 27, 1, .rw, 0, false, []⟩,
     ⟨"ZLAST", 16, 10, .rw, 0, false, []⟩,
     ⟨"ZFIRST", 0, 10, .rw, 0, false, []⟩]⟩,
   ⟨"LOOP_CUR0", 0xD0004, 8, 0x20, 1, 0x4, none,
    [⟨"I_W", 16, 16, .rw, 0x6F97, false, []⟩,
     ⟨"I_N", 0, 16, .rw, 0x690, false, []⟩]⟩,
   ⟨"LOOP_CUR1", 0xD0008, 8, 0x20, 1, 0x4, none,
    [⟨"FIX", 16, 16, .rw, 0, true, []⟩,
     ⟨"I_A", 0, 16, .rw, 0xD89D, false, []⟩]⟩,
   ⟨"LOOP_RNG", 0xD000C, 8, 0x20, 1, 0x4, none,
    [⟨"HI", 16, 16, .rw, 0xFFFF, false, []⟩,
     ⟨"LO", 0, 16, .rw, 0, false, []⟩]⟩,
   ⟨"LOOP_STAT", 0xD0010, 8, 0x20, 1, 0x4, none,
    [⟨"NOW", 16, 16, .ro, 0, false, []⟩,
     ⟨"RBTOL", 8, 8, .rw, 0x14, false, []⟩,
     ⟨"BLANK", 4, 1, .ro, 0, false, []⟩,
     ⟨"DEV", 3, 1, .w1c, 0, true, []⟩,
     ⟨"OPEN", 2, 1, .w1c, 0, true, []⟩,
     ⟨"WORST", 0, 2, .ro, 3, false, []⟩]⟩,
   ⟨"LOOP_ZSRC", 0xD0100, 1, 0x4, 1, 0x4, none,
    [⟨"BOB0", 0, 7, .rw, 0, false, []⟩,
     ⟨"EN0", 7, 1, .rw, 0, false, []⟩,
     ⟨"BOB1", 8, 7, .rw, 0, false, []⟩,
     ⟨"EN1", 15, 1, .rw, 0, false, []⟩,
     ⟨"BOB2", 16, 7, .rw, 0, false, []⟩,
     ⟨"EN2", 23, 1, .rw, 0, false, []⟩,
     ⟨"BOB3", 24, 7, .rw, 0, false, []⟩,
     ⟨"EN3", 31, 1, .rw, 0, false, []⟩]⟩,
   ⟨"LOOP_ZIDX", 0xD0110, 1, 0x4, 1, 0x4, none,
    [⟨"INDEX", 0, 10, .rw, 0, true, []⟩]⟩,
   ⟨"LOOP_ZCFG0", 0xD0114, 1, 0x4, 1, 0x4, some 0xD0110,
    [⟨"EN", 31, 1, .rw, 0, false, []⟩,
     ⟨"FIBRE", 30, 1, .rw, 0, false, []⟩,
     ⟨"CLASS", 18, 4, .rw, 0, false, []⟩,
     ⟨"FIRST", 0, 18, .rw, 0, false, []⟩]⟩,
   ⟨"LOOP_ZCFG1", 0xD0118, 1, 0x4, 1, 0x4, some 0xD0110,
    [⟨"COUNT", 0, 19, .rw, 1, false, [(1, 262144)]⟩]⟩,
   ⟨"LOOP_ZST", 0xD011C, 1, 0x4, 1, 0x4, some 0xD0110,
    [⟨"LEVEL", 16, 16, .ro, 0, false, []⟩,
     ⟨"LATCHED", 2, 1, .ro, 0, false, []⟩,
     ⟨"STATE", 0, 2, .ro, 3, false, []⟩]⟩,
   ⟨"LOOP_ACK", 0xD0120, 1, 0x4, 1, 0x4, none,
    [⟨"ALL", 1, 1, .w1s, 0, true, []⟩,
     ⟨"ONE", 0, 1, .w1s, 0, true, []⟩]⟩,
   ⟨"LOOP_CIDX", 0xD0130, 1, 0x4, 1, 0x4, none,
    [⟨"INDEX", 0, 4, .rw, 0, true, []⟩]⟩] ++
  [⟨"LOOP_CTH0", 0xD0134, 1, 0x4, 1, 0x4, some 0xD0130,
    [⟨"W_ON", 16, 16, .rw, 0xFFFF, false, []⟩,
     ⟨"W_OFF", 0, 16, .rw, 0xFFFE, false, []⟩]⟩,
   ⟨"LOOP_CTH1", 0xD0138, 1, 0x4, 1, 0x4, some 0xD0130,
    [⟨"A_ON", 16, 16, .rw, 0xFFFF, false, []⟩,
     ⟨"A_OFF", 0, 16, .rw, 0xFFFE, false, []⟩]⟩,
   ⟨"LOOP_CTIM", 0xD013C, 1, 0x4, 1, 0x4, some 0xD0130,
    [⟨"RECALL", 30, 1, .rw, 0, false, []⟩,
     ⟨"ALERT", 29, 1, .rw, 0, false, []⟩,
     ⟨"LATCH", 28, 1, .rw, 0, false, []⟩,
     ⟨"TMO", 16, 12, .rw, 0x3E8, false, [(1, 4095)]⟩,
     ⟨"OFF_CNT", 8, 8, .rw, 1, false, []⟩,
     ⟨"ON_CNT", 0, 8, .rw, 1, false, []⟩]⟩,
   ⟨"LOOP_ALERT", 0xD0140, 1, 0x4, 1, 0x4, none,
    [⟨"LPACT", 3, 1, .ro, 0, false, []⟩,
     ⟨"ZACT", 2, 1, .ro, 0, false, []⟩,
     ⟨"LPEN", 1, 1, .rw, 1, false, []⟩,
     ⟨"ZEN", 0, 1, .rw, 1, false, []⟩]⟩]

/-- Registers of the GND block. -/
def gndRegs : List RegDef :=
  [⟨"GND_CFG", 0xE0000, 1, 0x4, 1, 0x4, none,
    [⟨"AGELIM", 0, 16, .rw, 0x3E8, false, []⟩]⟩,
   ⟨"GND_STAT", 0xE0004, 1, 0x4, 1, 0x4, none,
    [⟨"ERR", 28, 4, .ro, 0, false, []⟩,
     ⟨"RPLB", 2, 1, .ro, 0, false, []⟩,
     ⟨"RPLA", 1, 1, .ro, 0, false, []⟩,
     ⟨"READY", 0, 1, .ro, 0, false, []⟩]⟩,
   ⟨"GND_TOTAL", 0xE0008, 1, 0x4, 1, 0x4, none,
    [⟨"TOTAL", 0, 23, .ro, 0, false, []⟩]⟩,
   ⟨"GND_FREE", 0xE000C, 1, 0x4, 1, 0x4, none,
    [⟨"FREE", 0, 23, .ro, 0, false, []⟩]⟩,
   ⟨"GND_SETBOB", 0xE0010, 1, 0x4, 1, 0x4, none,
    [⟨"DS1B", 24, 8, .rw, 0, false, []⟩,
     ⟨"DS0B", 16, 8, .rw, 0, false, []⟩,
     ⟨"DS1A", 8, 8, .rw, 0, false, []⟩,
     ⟨"DS0A", 0, 8, .rw, 0, false, []⟩]⟩,
   ⟨"GND_AUXBOB", 0xE0014, 1, 0x4, 1, 0x4, none,
    [⟨"EN", 7, 1, .rw, 0, false, []⟩,
     ⟨"BOB", 0, 7, .rw, 0, false, []⟩]⟩,
   ⟨"GND_BUDGET", 0xE0018, 1, 0x4, 1, 0x4, none,
    [⟨"DW", 16, 16, .ro, 0, false, []⟩,
     ⟨"DT", 0, 16, .ro, 0, false, []⟩]⟩,
   ⟨"GND_LATE", 0xE001C, 1, 0x4, 1, 0x4, none,
    [⟨"COUNT", 0, 32, .rc, 0, true, []⟩]⟩,
   ⟨"GND_BIDX", 0xE0020, 1, 0x4, 1, 0x4, none,
    [⟨"INDEX", 0, 7, .rw, 0, true, []⟩]⟩,
   ⟨"GND_BCFG", 0xE0024, 1, 0x4, 1, 0x4, some 0xE0020,
    [⟨"EN", 31, 1, .rw, 0, false, []⟩,
     ⟨"PLACE", 30, 1, .rw, 0, false, []⟩,
     ⟨"POLICY", 29, 1, .rw, 0, false, []⟩,
     ⟨"QUOTA", 0, 23, .rw, 0, false, []⟩]⟩,
   ⟨"GND_BSTAT", 0xE0028, 1, 0x4, 1, 0x4, some 0xE0020,
    [⟨"READERS", 28, 4, .ro, 0, false, []⟩,
     ⟨"OVRATE", 27, 1, .w1c, 0, true, []⟩,
     ⟨"PAGES", 0, 23, .ro, 0, false, []⟩]⟩,
   ⟨"GND_BCLAIM", 0xE002C, 1, 0x4, 1, 0x4, some 0xE0020,
    [⟨"CLAIM", 0, 16, .ro, 1, false, []⟩]⟩] ++
  [⟨"GND_BDROP", 0xE0030, 1, 0x4, 1, 0x4, some 0xE0020,
    [⟨"COUNT", 0, 32, .rc, 0, true, []⟩]⟩,
   ⟨"GND_RCFG", 0xE0040, 1, 0x4, 1, 0x4, none,
    [⟨"EN", 31, 1, .rw, 0, false, []⟩,
     ⟨"FIBRE", 30, 1, .rw, 0, false, []⟩,
     ⟨"SET", 29, 1, .rw, 0, false, []⟩,
     ⟨"EXPBOB", 8, 7, .rw, 0, false, []⟩,
     ⟨"PRE", 0, 7, .rw, 0x4B, false, [(0, 100)]⟩]⟩,
   ⟨"GND_RPAGES", 0xE0044, 1, 0x4, 1, 0x4, none,
    [⟨"RPAGES", 0, 23, .rw, 0, false, []⟩]⟩,
   ⟨"GND_RCMD", 0xE0048, 1, 0x4, 1, 0x4, none,
    [⟨"EXPORT", 2, 1, .w1s, 0, true, []⟩,
     ⟨"RELEASE", 1, 1, .w1s, 0, true, []⟩,
     ⟨"TRIG", 0, 1, .w1s, 0, true, []⟩]⟩,
   ⟨"GND_RSTAT", 0xE004C, 1, 0x4, 1, 0x4, none,
    [⟨"TRIGLOST", 24, 8, .rc, 0, true, []⟩,
     ⟨"EXPBUSY", 13, 1, .ro, 0, false, []⟩,
     ⟨"CAUSE", 2, 11, .ro, 0, false, []⟩,
     ⟨"STATE", 0, 2, .ro, 0, false, []⟩]⟩]

/-- Registers of the MEMC block. -/
def memcRegs : List RegDef :=
  [⟨"MEMC_CFG", 0xF0000, 1, 0x4, 1, 0x4, none,
    [⟨"SCRUBPER", 8, 8, .rw, 0x18, false, []⟩,
     ⟨"BOOTFSP", 4, 2, .rw, 0, false, [(0, 2)]⟩,
     ⟨"RANKS", 2, 1, .rw, 0, false, []⟩,
     ⟨"DENS", 0, 2, .rw, 0, false, [(0, 2)]⟩]⟩,
   ⟨"MEMC_STAT", 0xF0004, 1, 0x4, 1, 0x4, none,
    [⟨"ERR", 28, 4, .ro, 0, false, []⟩,
     ⟨"THOT", 11, 1, .ro, 0, false, []⟩,
     ⟨"TRK1", 10, 1, .ro, 0, false, []⟩,
     ⟨"TRK0", 9, 1, .ro, 0, false, []⟩,
     ⟨"CHG", 8, 1, .ro, 0, false, []⟩,
     ⟨"PEND", 7, 1, .ro, 0, false, []⟩,
     ⟨"TRAIN", 6, 1, .ro, 0, false, []⟩,
     ⟨"VALID", 3, 3, .ro, 0, false, []⟩,
     ⟨"LIVE", 0, 2, .ro, 2, false, []⟩]⟩,
   ⟨"MEMC_FREQ", 0xF0008, 1, 0x4, 1, 0x4, none,
    [⟨"RESULT", 4, 4, .ro, 0, false, []⟩,
     ⟨"GO", 2, 1, .w1s, 0, true, []⟩,
     ⟨"TARGET", 0, 2, .rw, 0, true, [(0, 2)]⟩]⟩,
   ⟨"MEMC_WBUF", 0xF000C, 1, 0x4, 1, 0x4, none,
    [⟨"PEAK", 23, 9, .rc, 0, true, []⟩,
     ⟨"HIWM", 8, 8, .rw, 0xC0, false, []⟩,
     ⟨"LOWM", 0, 8, .rw, 0x40, false, []⟩]⟩,
   ⟨"MEMC_REFSTAT", 0xF0010, 1, 0x4, 1, 0x4, none,
    [⟨"FORCED", 16, 16, .rc, 0, true, []⟩,
     ⟨"MAXPOST", 0, 4, .rc, 0, true, []⟩]⟩,
   ⟨"MEMC_TRK", 0xF0014, 1, 0x4, 1, 0x4, none,
    [⟨"PER", 16, 16, .rw, 0x64, false, [(10, 65535)]⟩,
     ⟨"DT", 12, 4, .rw, 2, false, [(1, 15)]⟩,
     ⟨"LASTNS", 0, 11, .ro, 0, false, []⟩]⟩,
   ⟨"MEMC_CE", 0xF0018, 1, 0x4, 1, 0x4, none,
    [⟨"COUNT", 0, 32, .rc, 0, true, []⟩]⟩,
   ⟨"MEMC_UE", 0xF001C, 1, 0x4, 1, 0x4, none,
    [⟨"COUNT", 0, 32, .rc, 0, true, []⟩]⟩,
   ⟨"MEMC_EADDR", 0xF0020, 1, 0x4, 1, 0x4, none,
    [⟨"UE", 31, 1, .ro, 0, false, []⟩,
     ⟨"SECTOR", 0, 26, .ro, 0, false, []⟩]⟩,
   ⟨"MEMC_TIMA", 0xF0100, 3, 0x10, 1, 0x4, none,
    [⟨"RCD", 24, 8, .rw, 0x12, false, []⟩,
     ⟨"RPPB", 16, 8, .rw, 0x12, false, []⟩,
     ⟨"RAS", 8, 8, .rw, 0x2A, false, []⟩,
     ⟨"RRD", 0, 8, .rw, 5, false, []⟩]⟩,
   ⟨"MEMC_TIMB", 0xF0104, 3, 0x10, 1, 0x4, none,
    [⟨"RFCPB", 16, 16, .rw, 0xBE, false, [(0, 400)]⟩,
     ⟨"FAW", 8, 8, .rw, 0x14, false, []⟩,
     ⟨"WR", 0, 8, .rw, 0x22, false, []⟩]⟩]

/-- Registers of the NET block. -/
def netRegs : List RegDef :=
  [⟨"NET_PCFG", 0x100000, 1, 0x4, 2, 0x40, none,
    [⟨"EN", 31, 1, .rw, 0, false, []⟩,
     ⟨"SPEED", 30, 1, .rw, 0, false, []⟩,
     ⟨"FEC", 29, 1, .rw, 0, false, []⟩,
     ⟨"MSEC", 27, 2, .rw, 0, false, [(0, 2)]⟩,
     ⟨"SUITE", 26, 1, .rw, 0, false, []⟩,
     ⟨"MTU", 0, 14, .rw, 0x5DC, false, [(1280, 9000)]⟩]⟩,
   ⟨"NET_PSTAT", 0x100004, 1, 0x4, 2, 0x40, none,
    [⟨"PNEXH", 7, 1, .ro, 0, false, []⟩,
     ⟨"LINKDN", 6, 1, .w1c, 0, true, []⟩,
     ⟨"AN", 4, 2, .ro, 0, false, []⟩,
     ⟨"MKA", 2, 2, .ro, 0, false, []⟩,
     ⟨"FECLOCK", 1, 1, .ro, 0, false, []⟩,
     ⟨"LINK", 0, 1, .ro, 0, false, []⟩]⟩,
   ⟨"NET_PVLAN", 0x100008, 1, 0x4, 2, 0x40, none,
    [⟨"VLAN", 15, 1, .rw, 0, false, []⟩,
     ⟨"PCP", 12, 3, .rw, 0, false, []⟩,
     ⟨"VID", 0, 12, .rw, 0, false, []⟩]⟩,
   ⟨"NET_PTX", 0x10000C, 1, 0x4, 2, 0x40, none,
    [⟨"COUNT", 0, 32, .rc, 0, true, []⟩]⟩,
   ⟨"NET_PRX", 0x100010, 1, 0x4, 2, 0x40, none,
    [⟨"COUNT", 0, 32, .rc, 0, true, []⟩]⟩,
   ⟨"NET_PDROP", 0x100014, 1, 0x4, 2, 0x40, none,
    [⟨"COUNT", 0, 32, .rc, 0, true, []⟩]⟩,
   ⟨"NET_PMSEC", 0x100018, 1, 0x4, 2, 0x40, none,
    [⟨"COUNT", 0, 32, .rc, 0, true, []⟩]⟩,
   ⟨"NET_PTPCFG", 0x100100, 1, 0x4, 1, 0x4, none,
    [⟨"TRANSPORT", 24, 2, .rw, 0, false, [(0, 2)]⟩,
     ⟨"DOMAIN", 16, 7, .rw, 0, false, []⟩,
     ⟨"ASYM", 0, 16, .rw, 0, false, []⟩]⟩,
   ⟨"NET_PTPSTAT", 0x100104, 1, 0x4, 1, 0x4, none,
    [⟨"MASTERS", 8, 4, .ro, 0, false, []⟩,
     ⟨"TWOSTEP", 4, 1, .ro, 0, false, []⟩,
     ⟨"PSTATE", 0, 4, .ro, 3, false, []⟩]⟩,
   ⟨"NET_MGMT", 0x100200, 1, 0x4, 1, 0x4, none,
    [⟨"ACLEN", 17, 1, .rw, 0, false, []⟩,
     ⟨"EN", 16, 1, .rw, 1, false, []⟩,
     ⟨"PORT", 0, 16, .rw, 0xC4F5, false, []⟩]⟩,
   ⟨"NET_MGMTSTAT", 0x100204, 1, 0x4, 1, 0x4, none,
    [⟨"QLEN", 24, 8, .ro, 0, false, []⟩,
     ⟨"QDROP", 16, 8, .rc, 0, true, []⟩,
     ⟨"ACL", 8, 8, .rc, 0, true, []⟩,
     ⟨"AUTHF", 0, 8, .rc, 0, true, []⟩]⟩,
   ⟨"NET_BUDGET", 0x100300, 1, 0x4, 1, 0x4, none,
    [⟨"ERR", 28, 4, .ro, 0, false, []⟩,
     ⟨"LOAD1", 14, 14, .ro, 0, false, []⟩,
     ⟨"LOAD0", 0, 14, .ro, 0, false, []⟩]⟩] ++
  [⟨"NET_SIDX", 0x100400, 1, 0x4, 1, 0x4, none,
    [⟨"INDEX", 0, 8, .rw, 0, true, []⟩]⟩,
   ⟨"NET_SCFG", 0x100404, 1, 0x4, 1, 0x4, some 0x100400,
    [⟨"EN", 31, 1, .rw, 0, true, []⟩,
     ⟨"PORTSEL", 29, 2, .rw, 0, false, []⟩,
     ⟨"LINKPOL", 28, 1, .rw, 0, false, []⟩,
     ⟨"QMODE", 26, 2, .rw, 1, false, [(0, 2)]⟩,
     ⟨"FORMAT", 15, 8, .rw, 0, false, [(1, 8), (10, 254)]⟩,
     ⟨"BOBBIN", 0, 7, .rw, 0, false, []⟩]⟩,
   ⟨"NET_SCFG2", 0x100408, 1, 0x4, 1, 0x4, some 0x100400,
    [⟨"DSCP", 8, 6, .rw, 0, false, []⟩,
     ⟨"SPF", 0, 8, .rw, 1, false, []⟩]⟩,
   ⟨"NET_SSTAT", 0x10040C, 1, 0x4, 1, 0x4, some 0x100400,
    [⟨"EPOCH", 16, 16, .ro, 0, false, []⟩,
     ⟨"OVRATE", 3, 1, .w1c, 0, true, []⟩,
     ⟨"ONNET1", 2, 1, .ro, 0, false, []⟩,
     ⟨"GAPSEEN", 1, 1, .w1c, 0, true, []⟩,
     ⟨"UNAVAIL", 0, 1, .ro, 0, false, []⟩]⟩,
   ⟨"NET_SSEQ", 0x100410, 1, 0x4, 1, 0x4, some 0x100400,
    [⟨"SEQ", 0, 32, .ro, 0, false, []⟩]⟩]

/-- Registers of the DFL block. -/
def dflRegs : List RegDef :=
  [⟨"DFL_CFG", 0x110000, 2, 0x20, 1, 0x4, none,
    [⟨"EN", 31, 1, .rw, 0, true, []⟩,
     ⟨"POLICY", 27, 2, .rw, 0, false, [(0, 2)]⟩,
     ⟨"PRECODE", 23, 2, .rw, 0, false, [(0, 2)]⟩,
     ⟨"OUTBOB", 8, 7, .rw, 0, false, []⟩,
     ⟨"INBOB", 0, 7, .rw, 0, false, []⟩]⟩,
   ⟨"DFL_BLK", 0x110004, 2, 0x20, 1, 0x4, none,
    [⟨"BLKTMO", 16, 16, .rw, 0x3E8, false, [(1, 65535)]⟩,
     ⟨"BLKSIZE", 0, 11, .rw, 0x400, false, [(16, 1536)]⟩]⟩,
   ⟨"DFL_STAT", 0x110008, 2, 0x20, 1, 0x4, none,
    [⟨"ERR", 28, 4, .ro, 0, false, []⟩,
     ⟨"ECCDISC", 3, 1, .w1c, 0, true, []⟩,
     ⟨"GAPSEEN", 2, 1, .w1c, 0, true, []⟩,
     ⟨"STALL", 1, 1, .ro, 0, false, []⟩,
     ⟨"OPEN", 0, 1, .ro, 0, false, []⟩]⟩,
   ⟨"DFL_INB", 0x11000C, 2, 0x20, 1, 0x4, none,
    [⟨"COUNT", 0, 32, .rc, 0, true, []⟩]⟩,
   ⟨"DFL_OUTB", 0x110010, 2, 0x20, 1, 0x4, none,
    [⟨"COUNT", 0, 32, .rc, 0, true, []⟩]⟩,
   ⟨"DFL_NBLK", 0x110014, 2, 0x20, 1, 0x4, none,
    [⟨"COUNT", 0, 32, .rc, 0, true, []⟩]⟩,
   ⟨"DFL_DSTAT", 0x110100, 1, 0x4, 1, 0x4, none,
    [⟨"RESULT", 28, 4, .ro, 0, false, []⟩,
     ⟨"BUSY", 0, 1, .ro, 0, false, []⟩]⟩,
   ⟨"DFL_DOFS", 0x110104, 1, 0x4, 1, 0x4, none,
    [⟨"OFS", 0, 32, .ro, 0, false, []⟩]⟩,
   ⟨"DFL_DCNT", 0x110108, 1, 0x4, 1, 0x4, none,
    [⟨"COUNT", 0, 32, .rc, 0, true, []⟩]⟩]

/-- Registers of the SEC block. -/
def secRegs : List RegDef :=
  [⟨"SEC_STAT", 0x120000, 1, 0x4, 1, 0x4, none,
    [⟨"ARBPEND", 6, 1, .ro, 0, false, []⟩,
     ⟨"DBGUSED", 5, 1, .ro, 0, false, []⟩,
     ⟨"MONSESS", 4, 1, .ro, 0, false, []⟩,
     ⟨"CHAL", 3, 1, .ro, 0, false, []⟩,
     ⟨"DRBGERR", 2, 1, .ro, 0, false, []⟩,
     ⟨"LIFE", 0, 2, .ro, 0, false, []⟩]⟩,
   ⟨"SEC_IMGSTAT", 0x120004, 1, 0x4, 1, 0x4, none,
    [⟨"RESULT", 28, 4, .ro, 0, false, []⟩,
     ⟨"SLOT", 26, 2, .ro, 0, false, []⟩,
     ⟨"ENC", 25, 1, .ro, 0, false, []⟩,
     ⟨"KEYSRC", 24, 1, .ro, 0, false, []⟩,
     ⟨"SVN", 8, 7, .ro, 0, false, []⟩]⟩,
   ⟨"SEC_DEVID_LO", 0x120008, 1, 0x4, 1, 0x4, none,
    [⟨"ID_LO", 0, 32, .ro, 0, false, []⟩]⟩,
   ⟨"SEC_DEVID_HI", 0x12000C, 1, 0x4, 1, 0x4, none,
    [⟨"ID_HI", 0, 32, .ro, 0, false, []⟩]⟩,
   ⟨"SEC_AUTH", 0x120010, 1, 0x4, 1, 0x4, none,
    [⟨"MONOK", 8, 8, .rc, 0, true, []⟩,
     ⟨"MONF", 0, 8, .rc, 0, true, []⟩]⟩,
   ⟨"SEC_FPCMD", 0x120060, 1, 0x4, 1, 0x4, none,
    [⟨"GO", 8, 1, .w1s, 0, true, []⟩,
     ⟨"OP", 4, 3, .rw, 0, true, [(1, 5)]⟩,
     ⟨"SLOT", 0, 2, .rw, 0, true, []⟩]⟩,
   ⟨"SEC_FPSTAT", 0x120064, 1, 0x4, 1, 0x4, none,
    [⟨"RESULT", 4, 4, .ro, 0, false, []⟩,
     ⟨"BUSY", 0, 1, .ro, 0, false, []⟩]⟩,
   ⟨"SEC_FPDATA", 0x120080, 12, 0x4, 1, 0x4, none,
    [⟨"DATA", 0, 32, .wo, 0, true, []⟩]⟩,
   ⟨"SEC_IDPUB", 0x120100, 24, 0x4, 1, 0x4, none,
    [⟨"Q", 0, 32, .ro, 0, false, []⟩]⟩,
   ⟨"SEC_IHASH", 0x120180, 12, 0x4, 1, 0x4, none,
    [⟨"HASH", 0, 32, .ro, 0, false, []⟩]⟩]

/-- Registers of the HLTH block. -/
def hlthRegs : List RegDef :=
  [⟨"HLTH_CFG", 0x130000, 1, 0x4, 1, 0x4, none,
    [⟨"FAILWIN", 24, 8, .rw, 0x18, false, [(1, 255)]⟩,
     ⟨"FAILLIM", 16, 4, .rw, 3, false, []⟩,
     ⟨"LSHEN", 8, 1, .rw, 1, false, []⟩,
     ⟨"SHDWIN", 0, 8, .rw, 0x40, false, [(16, 255)]⟩]⟩,
   ⟨"HLTH_STAT", 0x130004, 1, 0x4, 1, 0x4, none,
    [⟨"ALERT", 7, 1, .ro, 0, false, []⟩,
     ⟨"ALATCH", 6, 1, .w1c, 0, true, []⟩,
     ⟨"TBUSY", 5, 1, .ro, 0, false, []⟩,
     ⟨"BRIDEF", 4, 1, .ro, 0, false, []⟩,
     ⟨"FABF", 3, 1, .ro, 0, false, []⟩,
     ⟨"UNSERVED", 2, 1, .ro, 0, false, []⟩,
     ⟨"LOST", 1, 1, .ro, 0, false, []⟩,
     ⟨"FENCED", 0, 1, .ro, 0, false, []⟩]⟩,
   ⟨"HLTH_LANE", 0x130008, 1, 0x4, 1, 0x4, none,
    [⟨"WINRND", 24, 8, .ro, 0, false, []⟩,
     ⟨"SHLL", 8, 5, .ro, 0, false, []⟩,
     ⟨"SHADOW", 7, 1, .ro, 0, false, []⟩,
     ⟨"SPARE", 0, 6, .ro, 0x20, false, []⟩]⟩,
   ⟨"HLTH_LFENCE0", 0x13000C, 1, 0x4, 1, 0x4, none,
    [⟨"FENCE", 0, 32, .ro, 0, false, []⟩]⟩,
   ⟨"HLTH_LFENCE1", 0x130010, 1, 0x4, 1, 0x4, none,
    [⟨"FENCE32", 0, 1, .ro, 0, false, []⟩]⟩,
   ⟨"HLTH_UNSRV", 0x130014, 1, 0x4, 1, 0x4, none,
    [⟨"LL", 0, 32, .ro, 0, false, []⟩]⟩,
   ⟨"HLTH_TCMD", 0x130020, 1, 0x4, 1, 0x4, none,
    [⟨"GO", 31, 1, .w1s, 0, true, []⟩,
     ⟨"INTRUSIVE", 8, 1, .rw, 0, true, []⟩,
     ⟨"UNIT", 0, 8, .rw, 0, true, []⟩]⟩,
   ⟨"HLTH_TSTAT", 0x130024, 1, 0x4, 1, 0x4, none,
    [⟨"RESULT", 28, 4, .ro, 0, false, []⟩,
     ⟨"UNIT", 8, 8, .ro, 0, false, []⟩,
     ⟨"BUSY", 0, 1, .ro, 0, false, []⟩]⟩,
   ⟨"HLTH_EVSEQ", 0x130028, 1, 0x4, 1, 0x4, none,
    [⟨"SEQ", 0, 32, .ro, 0, false, []⟩]⟩,
   ⟨"HLTH_EVCNT", 0x13002C, 1, 0x4, 1, 0x4, none,
    [⟨"COUNT", 0, 32, .rc, 0, true, []⟩]⟩,
   ⟨"HLTH_HBMISS", 0x130030, 1, 0x4, 1, 0x4, none,
    [⟨"BRIDE", 16, 16, .rc, 0, true, []⟩,
     ⟨"FABRIC", 0, 16, .rc, 0, true, []⟩]⟩,
   ⟨"HLTH_UIDX", 0x130040, 1, 0x4, 1, 0x4, none,
    [⟨"UNIT", 0, 8, .rw, 0, true, []⟩]⟩] ++
  [⟨"HLTH_USTAT", 0x130044, 1, 0x4, 1, 0x4, none,
    [⟨"FAILS", 20, 4, .ro, 0, false, []⟩,
     ⟨"HELD", 19, 1, .ro, 0, false, []⟩,
     ⟨"STATE", 16, 3, .ro, 0, false, []⟩,
     ⟨"FAULT", 0, 8, .ro, 0, false, []⟩]⟩]

/-- Registers of the FUSE block. -/
def fuseRegs : List RegDef :=
  [⟨"FUSE_SEC", 0x140040, 1, 0x4, 1, 0x4, none,
    [⟨"FLEET", 21, 1, .ro, 0, false, []⟩,
     ⟨"JTAG_LOCK", 20, 1, .ro, 0, false, []⟩,
     ⟨"SPOILED", 16, 4, .ro, 0, false, []⟩,
     ⟨"REVOKED", 12, 4, .ro, 0, false, []⟩,
     ⟨"VALID", 8, 4, .ro, 0, false, []⟩,
     ⟨"ARB", 0, 7, .ro, 0, false, []⟩]⟩,
   ⟨"FUSE_KEYH", 0x140100, 12, 0x4, 4, 0x40, none,
    [⟨"HASH", 0, 32, .ro, 0, false, []⟩]⟩]

/-- The registers of a 64 KiB block (R7); the LANE windows run on into the block below DTS's first register. -/
def blockRegs (a : Nat) : List RegDef :=
  if a < 0x80000 then
    match a / 0x10000 with
    | 0 => sysRegs | 1 => clkRegs | 2 => shotRegs | 3 => srcRegs
    | 4 => slcRegs | 5 => frpRegs | 6 => cmtRegs | _ => fltRegs
  else if a < 0xA1000 then laneRegs
  else
    match a / 0x10000 with
    | 10 => dtsRegs | 11 => hkRegs | 12 => senRegs | 13 => loopRegs | 14 => gndRegs | 15 => memcRegs
    | 16 => netRegs | 17 => dflRegs | 18 => secRegs | 19 => hlthRegs | 20 => fuseRegs | _ => []

/-- Whether one of the register's copies lies at `a` (R663). -/
def RegDef.covers (r : RegDef) (a : Nat) : Bool :=
  if a < r.base then false
  else
    let d := a - r.base
    let i := if r.n2 = 1 then 0 else d / r.s2
    let e := d - i * r.s2
    decide (i < r.n2) && decide (e % r.s1 = 0) && decide (e / r.s1 < r.n1)

/-- The register at a bus address, if the address belongs to one (R10, R663). -/
def regDef? (a : Nat) : Option RegDef := (blockRegs a).find? (·.covers a)

/-- Bits of a field placed in a word. -/
def FieldDef.place (f : FieldDef) (v : Nat) : Nat := v % 2 ^ f.w * 2 ^ f.lo

/-- A field's bits of a word. -/
def FieldDef.pick (f : FieldDef) (v : Nat) : Nat := v / 2 ^ f.lo % 2 ^ f.w

/-- The word at bus address `a` after reset: the sum of the fields' reset values. Two registers reset per copy:
SLC_STAT_n.FUNC holds n, and 0xF for n = 14 (R178, R137); SLC_PROF_x_k.EN is 1 for k = 0 alone (R148). -/
def resetWord (a : Nat) : Word :=
  match regDef? a with
  | none => 0
  | some r =>
    let w := r.fields.foldl (fun acc f => acc + f.place f.reset) 0
    if r.base = 0x40000 then
      let n := (a - 0x40000) / 0x40
      BitVec.ofNat 32 (w + (if n = 14 then 0xF else n) * 2 ^ 28)
    else if r.base = 0x40400 ∧ (a - 0x40400) % 0x80 ≠ 0 then BitVec.ofNat 32 (w % 2 ^ 31)
    else BitVec.ofNat 32 w

end Sys2Proof.Machine
end

