-- ==== Sys2Proof/Machine/State.lean ====
section
/-!
DEFINITION. The machine's state: the register file, which is the one home of every register-visible value, and the
state behind the registers, one structure per block. Everything is plain data. Sparse maps are lists of key and value
kept in the canonical form of Machine/Maps.lean; a key of two indices is composed by the accessors of each family.
Times are SAMP nanoseconds since the model's start (`State.now`).
-/
namespace Sys2Proof.Machine

/-- No command of this model stops the machine with a fault: the spec gives every command an effect. -/
inductive Fault where
  /-- Raised by nothing: kept so that the outcome type has a fault. Safe. -/
  | none
deriving DecidableEq, Repr

/-- Why a command has no outcome. -/
inductive Refusal where
  /-- An arm of `exec` without a meaning yet answers it with its mnemonic; no arm is left so. Safe. -/
  | notModelled (mnemonic : String)
deriving DecidableEq, Repr

/-- The completion status of the last bus access or command (R495). -/
inductive Status where
  | ok | unmapped | align | refused | busy | denied | auth | unknown | malformed
deriving DecidableEq, Repr

/-- The status's code (R495). -/
def Status.code : Status → Nat
  | .ok => 0 | .unmapped => 1 | .align => 2 | .refused => 3 | .busy => 4
  | .denied => 5 | .auth => 6 | .unknown => 7 | .malformed => 8

/-! ## Timebase (R43–R58) -/

/-- Servo limits of the image's SERVO record (R46, R616). -/
structure ServoLimits where
  stepNs : Nat
  slewPpm : Nat
  lockCount : Nat
  holdoverMs : Nat
deriving DecidableEq, Repr

/-- The timebase and its servo. -/
structure Timebase where
  /-- Accumulator: nanoseconds with 32 fraction bits, modulo 2^96 (R3, R43). -/
  acc : Nat
  /-- Its value on the present TIME edge before a step or SET that takes effect on that edge (R48, R51). -/
  edge : Nat
  /-- The value on the TIME edge before the present one, before a step or SET that took effect on it, and what one TIME clock
  added from it (R51). -/
  prev : Nat
  prevInc : Nat
  /-- Counting: false from a reset's assertion to the root PLL's lock (R49). -/
  run : Bool
  /-- A STEP written and not yet in effect (R48). -/
  stepPend : Option Int
  /-- The SAMP instant of the last whole second passed by ordinary advance (R50), until PPS_OUT takes it. -/
  secAt : Option Nat
  /-- The servo's frequency term I (R46). -/
  servoI : Rat
  limits : ServoLimits
  /-- Consecutive updates within 100 ns (R46). -/
  inLock : Nat
  /-- SAMP instant of the last valid update, or of SRC leaving FREE. -/
  lastValid : Nat
  /-- No valid update yet since SRC left FREE. -/
  first : Bool
  /-- Consecutive PPS rejections (R47). -/
  rejects : Nat
deriving DecidableEq, Repr

/-! ## Records and bobbins (R285, R407–R419) -/

/-- A record of a bobbin: the header words' contents of R285 and the payload words, with its whole label in nanoseconds and
the round of the youngest shot that bears on its values, plus one (0 for none; R225, R230). -/
structure Record where
  kind : Nat
  fibre : Nat
  pic : Bool
  bad : Bool
  ns : Nat
  h1 : Word
  h2 : Word
  h3 : Word
  payload : List Word
  label : Nat
  born : Nat
deriving DecidableEq, Repr

/-- Page states of R410 that a bobbin's record can be in. -/
inductive PageState where
  | spec | queued | retained
deriving DecidableEq, Repr

/-- A record held for a bobbin: its place in the bobbin's order, its pages, for each fibre the round of the youngest shot
it derives from plus one (0 for none, R233), and the lane output it is (logical lane, port, number on that port). -/
structure Stored where
  idx : Nat
  data : Record
  pages : Nat
  /-- The pages themselves, of the memory that the bobbin is placed in. -/
  frames : List Nat
  st : PageState
  tags : Two Nat
  lane : Option (Nat × Nat × Nat)
  /-- The instant at which it joined its bobbin as committed data (R417), and the timebase then. -/
  freed : Nat
  tb : Nat
deriving DecidableEq, Repr

/-- Who may read a bobbin (R411). -/
inductive Reader where
  | lanePort (ll k : Nat)
  | alarmSlot (k : Nat)
  | stream (i : Nat)
  | comp (n : Nat)
  | supervisor
deriving DecidableEq, Repr

/-- A bobbin: its records oldest first, the next place, its readers' positions, the instant of its last drop and the
bytes a lane wrote to it since `rateFrom` (R301, R412, R413). -/
structure Bobbin where
  recs : List Stored
  next : Nat
  readers : List (Reader × Nat)
  lastDrop : Option Nat
  rateBytes : Nat
  rateFrom : Nat
deriving DecidableEq, Repr

/-- One record of the recall ring: label, bytes, payload as stored, page state SPEC (with its round) or RING. -/
structure RingRec where
  data : Record
  /-- Where its bytes begin in the ring's run of packed records. -/
  off : Nat
  bytes : Nat
  spec : Bool
  round : Nat
  label : Nat
deriving DecidableEq, Repr

/-- The recall window (R427–R432). -/
structure Recall where
  ring : List RingRec
  /-- Bytes committed since the trigger (R429). -/
  postBytes : Nat
  /-- Timebase when the trigger was taken (R431). -/
  trigAt : Nat
  /-- Records still to export, with release requested. -/
  exporting : List RingRec
  /-- The DRAM page that holds a page of the run. -/
  frames : List (Nat × Nat)
deriving DecidableEq, Repr

/-- States of a DRAM page that is not FREE (R410). -/
inductive PageUse where
  | spec | queued | retained | ring | held
deriving DecidableEq, Repr

/-- Where a quantum lies: a DRAM page, a page of the near store, or the staging of the calibration store and the event log. -/
inductive PageAt where
  | dram (j : Nat)
  | near (j : Nat)
  | staging
deriving DecidableEq, Repr

/-- A pending request of one 4 KiB quantum (R420), since the instant at which it arose. -/
structure Quantum where
  who : Requester
  write : Bool
  at_ : PageAt
  since : Nat
deriving DecidableEq, Repr

/-- The Ground behind its registers. -/
structure Ground where
  bobs : List (Nat × Bobbin)
  rcl : Recall
  /-- Pages of each fibre's replay ring (R409). -/
  replayPages : Two Nat
  /-- The instants at which requesters' age counters last restarted (R421). -/
  ages : List (Requester × Nat)
  /-- Requesters whose next quantum is served at level 2 (R421). -/
  promoted : List Requester
  /-- Pending requests, oldest first, and the requesters served, the latest last (R420). -/
  reqs : List Quantum
  turn : List Requester
  /-- The instant from which the arbiter serves the next DRAM quantum (R424). -/
  storeAt : Nat
  /-- The page table as it stands in DRAM, by page (R407, R410), and the sectors of it that are withdrawn (R445). -/
  table : List (Nat × PageUse)
  gone : List Nat
  /-- The fibre that holds the replay reads and what is left of its block in bytes, while both replay (R422). -/
  hold : Nat × Nat
deriving DecidableEq, Repr

/-! ## Health (R558–R581) -/

/-- A requested test in progress (R570, R571): the unit, and for an intrusive one each fibre's awaited start. -/
structure TestRun where
  unit : Nat
  intrusive : Bool
  /-- Started at this instant; none while it awaits its boundaries or its window. -/
  startAt : Option Nat
  goAt : Nat
deriving DecidableEq, Repr

/-- Heartbeat bookkeeping of one lane on one path (R560). -/
structure Beat where
  deadline : Nat
  missed : Nat
deriving DecidableEq, Repr

/-- The health monitor behind its registers. -/
structure Health where
  /-- Sequence number of the next event (R572). -/
  nextSeq : Nat
  /-- Failure instants of each unit, newest first (R563). -/
  fails : List (Nat × List Nat)
  /-- Units held fenced at their failure limit (R563). -/
  held : List Nat
  /-- Last fault code of each unit (R581). -/
  faults : List (Nat × Nat)
  /-- Beats keyed by 2·lane + path, path 0 the fabric and 1 the Bride ring. -/
  beats : List (Nat × Beat)
  /-- Instant since which every deadline of a faulted path was met (R561). -/
  pathClean : Two (Option Nat)
  test : Option TestRun
  /-- Front-pipeline residue mismatches of each fibre: their recent instants (R569). -/
  residues : Two (List Nat)
  /-- Slots of each fibre are dark for an intrusive test (R571). -/
  darkFor : Two Bool
  /-- The last 256 records of B127, oldest first, for the monitor (R635). -/
  recent : List Record
deriving DecidableEq, Repr

/-! ## Shot scheduling (R61–R100) -/

/-- What a slot carries: a DAS shot, a probe or sounding shot (R80, R81), or nothing (R77). -/
inductive SlotKind where
  | das | probe | sound | dark
deriving DecidableEq, Repr

/-- The verdict of a launched shot (R218). -/
inductive Verdict where
  | good | bad | part
deriving DecidableEq, Repr

/-- A span of slice-input time, both ends included, in which a function's samples are faulty (R174); `ref` marks a
reference function, whose spans bear on both fibres (R220). -/
structure Span where
  t0 : Nat
  t1 : Nat
  ref : Bool
deriving DecidableEq, Repr

/-- A pulse on the synthesizer outputs (R90–R92): start, width, tone, amplitude and shape as launched. -/
structure Pulse where
  tL : Nat
  w : Nat
  fMHz : Nat
  amp : Nat
  shape : Nat
  roll : Nat
  coded : Bool
  chips : Nat
  code : Nat
  ofsI : Int
  ofsQ : Int
  qgain : Int
  qphase : Int
deriving DecidableEq, Repr

/-- One slot of a round as the commit logic knows it, with the plan values in force at its launch. -/
structure Slot where
  kind : SlotKind
  round : Nat
  /-- Slot index, which is the tone index (R63). -/
  tone : Nat
  nT : Nat
  seq : Nat
  /-- Launch instant, or slot start of a dark slot (R229). -/
  tL : Nat
  /-- Timestamp in 2^-16 ns (R51). -/
  ts : Nat
  fMHz : Nat
  /-- Pulse width and chip duration in ns. -/
  w : Nat
  wc : Nat
  /-- Trace length T_min in ns (R67, R81). -/
  tmin : Nat
  gateUp : Nat
  gateDown : Nat
  /-- Cordonnet lock has held on every sample of the shot's span so far (R189). -/
  cordOk : Bool
  /-- The shot record has been delivered (R206). -/
  complete : Bool
  /-- SUBST and CAL flags of the record (R206). -/
  flags : Nat
  /-- E of R204, once point 200 is formed, and the record's Selvage flags FRESNEL, ABSENT, OVERLEN and BREAK, bit 0 up (R206). -/
  e : Option Nat
  selv : Nat
  /-- Bad inputs known, bit i per R243. -/
  causes : Nat
  spans : List Span
  verdict : Option Verdict
  /-- The slot is erased for every channel: dark, probe or sounding, or judged BAD (R228, R229). -/
  erased : Bool
  /-- Its fault spans have taken effect (R219, R220). -/
  spanSeen : Bool
  /-- The pulse as launched (R90–R92). -/
  pulse : Option Pulse
  /-- The point of the largest amplitude, once its record is complete (R24). -/
  peak : Option Nat
deriving DecidableEq, Repr

/-- The scheduler of one fibre behind its registers. -/
structure Sched where
  /-- t_B(0) of an acquisition whose first round has not begun (R79). -/
  startAt : Option Nat
  /-- Round count r, its boundary, its period and its tone count (R35). -/
  round : Nat
  tB : Nat
  tr : Nat
  nT : Nat
  /-- The next slot to evaluate (R77): its round and index. -/
  evalRound : Nat
  evalSlot : Nat
  /-- A slot evaluated as launched whose launch instant has not come. -/
  armed : Option (Nat × Nat × SlotKind)
  /-- Sequence number of the next launched shot (R3). -/
  nextSeq : Nat
  /-- A slot of the present round was dark (R78). -/
  darkRound : Bool
  /-- GO instant of the pending plan, and whether its check has passed (R84). -/
  goAt : Nat
  accepted : Bool
  /-- A stop awaits the boundary; a start awaits the drain (R79). -/
  stopReq : Bool
  startHeld : Bool
  /-- Held interval of a plan change or re-plan: t′ (R86). -/
  heldTo : Option Nat
  /-- Probing commanded, in force, and commanded to end (R80). -/
  probeReq : Bool
  probing : Bool
  probeEnd : Bool
  /-- Rounds since the last probe round (R80). -/
  probeAge : Nat
  /-- Sounding asked for and in progress; the measured end L_m in force or to adopt (R81). -/
  soundReq : Bool
  sounding : Bool
  lm : Option Nat
  replan : Bool
  /-- What the next round will be, once its slot 0 has been evaluated: 0 under the plan, 1 a PROBE round, 2 a sounding round. -/
  upcoming : Option Nat
  /-- Instant of the last Raman trigger; round, instant and width of a permitted trigger not yet sent (R73, R74, R87). -/
  ramanLast : Option Nat
  ramanRound : Option (Nat × Nat × Nat)
  /-- The gate window of the last slot evaluated as launched, a force or take-off that fell within it, since when GATE_x is held low
  by one, the synthesizer pulse of the last launched slot, and the trigger window (R73, R99, R101, R128). -/
  gate : Option (Nat × Nat)
  gateCut : Bool
  forcedAt : Option Nat
  pulse : Option Pulse
  trig : Option (Nat × Nat)
deriving DecidableEq, Repr

/-! ## Verdicts, stages 8 and 9, replay (R198–R245) -/

/-- What the commit logic keeps of a round: its boundary, period and tone count; the evaluation of R125 (`some true` for
low) and its Selvage condition (R132); the sum and count of its photodiode conversions (R125); whether it opens the acquisition
(R202, R259) or a tone-set change (R87); FRP_CFG and the words of both DAS sets in force for its shots (R208, R266). -/
structure RoundInfo where
  round : Nat
  tB : Nat
  tr : Nat
  nT : Nat
  low : Option Bool
  selv : Bool
  pdSum : Int
  pdCount : Nat
  opens : Bool
  toneset : Bool
  frp : Word
  ds : Two Word
deriving DecidableEq, Repr

/-- Stage 8 and 9 state of one tone of a channel: U_k and O_k in LSBs of R183, the latest A_k, and whether the tone has
delivered since the start (R199–R203). -/
structure Tone89 where
  u : Int
  o : Int
  amp : Nat
  seen : Bool
deriving DecidableEq, Repr

/-- A stitched sample on its way to the filter chains: the slot's round and tone, its timestamp, Δφ and quality bits. -/
structure Stitched where
  round : Nat
  tone : Nat
  ts : Nat
  dphi : Int
  q : Nat
  /-- The value saturated (R201). -/
  sat : Bool
deriving DecidableEq, Repr

/-- Stage 8 and 9 state of one channel: the checkpointed state of R223 and the erasure run of R230. -/
structure Core89 where
  tones : List Tone89
  v1 : Int
  v2 : Int
  /-- Stitched samples since the start, counted to two (R199). -/
  cnt : Nat
  /-- Consecutive faded or erased stitched samples (R203, R228). -/
  run : Nat
  /-- V(n_b) of the open erasure run, and its withheld samples (R230). -/
  vb : Int
  wait : List Stitched
  /-- V(n) of the withheld samples, under R228. -/
  waitV : List Int
  /-- The open run has passed its deadline and leaves as held fill. -/
  held : Bool
  /-- Round and tone of the last slot applied; none before the first. -/
  last : Option (Nat × Nat)
deriving DecidableEq, Repr

/-- One entry of the replay record (R224); `zero` says that D was 0, so that the channel is faded (R198). -/
structure Entry where
  round : Nat
  tone : Nat
  phi : Int
  amp : Nat
  q : Nat
  zero : Bool
  fault : Bool
deriving DecidableEq, Repr

/-- A channel: stages 8 and 9 now, checkpoints by round, and the replay record's entries, oldest first. -/
structure Chan where
  core : Core89
  cks : List (Nat × Core89)
  entries : List Entry
deriving DecidableEq, Repr

/-- Filter chain state (R249–R264), the checkpointed state of R223. -/
structure ChainCore where
  integ : List Int
  comb : List Int
  /-- CIC outputs, newest first, with 16 fraction bits. -/
  fir : List Int
  /-- Input index since the chain was cleared (R254). -/
  i : Nat
  /-- Timestamps of inputs, newest first, and that of input 1 (R255). -/
  ts : List Nat
  ts1 : Nat
  settled : Bool
  /-- Settling count, and whether it waits for an input that is not erased (R259, R260). -/
  count : Nat
  waitGood : Bool
  /-- Consecutive erased inputs (R260). -/
  erun : Nat
  /-- Picot window, newest first: value, timestamp and quality (R258). -/
  pic : List (Int × Nat × Nat)
  /-- For each quality bit, the input index of its last occurrence plus one (R257). -/
  lastQ : List Nat
deriving DecidableEq, Repr

/-- A DAS chain: its core, the set word it runs under, the round of its last input plus one (0 before the first), and the
slot at which it last detected a BURST, as 4·round + tone plus one (0 for none; R260, R270). -/
structure DasChain where
  core : ChainCore
  cfg : Word
  last : Nat
  burst : Nat
deriving DecidableEq, Repr

/-- A DAS chain with its checkpoints by round. -/
structure Chain where
  cur : DasChain
  cks : List (Nat × DasChain)
deriving DecidableEq, Repr

/-- One channel's sample of an output instant: channel, value, quality, and the round of the youngest shot that bears on it,
plus one; and the instant at which it left its chain. -/
structure SetSample where
  chan : Nat
  value : Int
  q : Nat
  born : Nat
  left : Nat
deriving DecidableEq, Repr

/-- The samples of one output instant of a DAS set, gathered until every channel has left its chain (R286) and kept until
their round commits: the slot that names the instant, as 4·round + tone, label, round, whether the record is written. -/
structure Gather where
  instant : Nat
  label : Nat
  round : Nat
  written : Bool
  samples : List SetSample
deriving DecidableEq, Repr

/-- A DAS set of a fibre: the configuration in force, a write awaiting its boundary, the first slot of its last restart of
cause ENABLE or TONESET, as 4·round, and the output instants not yet committed. -/
structure SetState where
  cfg : Word
  pend : Option (Word × Nat)
  rstAt : Nat
  open_ : List Gather
deriving DecidableEq, Repr

/-- The commit logic, stages 8 and 9 and filter chains of one fibre. -/
structure Commit where
  slots : List Slot
  rounds : List RoundInfo
  /-- The next round to commit (R60). -/
  nextCommit : Nat
  /-- Round of the last BAD or PARTIAL verdict (R238). -/
  lastBad : Option Nat
  /-- Target round and start of a running replay (R225), and the entries it has read (R226, R422). -/
  replay : Option (Nat × Nat)
  ran : Nat
  /-- The last round of a stopped acquisition and its boundary's successor (R237). -/
  stopped : Option (Nat × Nat)
  chans : List (Nat × Chan)
  /-- Chains keyed by 2·c + j. -/
  chains : List (Nat × Chain)
  sets : Two SetState
deriving DecidableEq, Repr

/-- An auxiliary chain: its core, the configuration in force and a write awaiting its next input (R266). -/
structure AuxChain where
  core : ChainCore
  cfg : Word
  pend : Option Word
deriving DecidableEq, Repr

/-! ## Sources (R101–R136) -/

/-- A fade of R113: from `v0` to `v1` over `len` updates, `k` of them done. -/
structure Fade where
  v0 : Nat
  v1 : Nat
  exp : Bool
  k : Nat
  len : Nat
deriving DecidableEq, Repr

/-- A source channel behind its registers. -/
structure SrcChan where
  /-- The fade value F and the setpoint fade in progress (R113). -/
  f : Nat
  fade : Option Fade
  /-- The ceiling at the last update, the fast fade to a lowered ceiling, and the rise after a raise: v_r and k (R107). -/
  ceil : Nat
  fast : Option Fade
  rise : Option (Nat × Nat)
  /-- DRVn driven low by an immediate action (R124). -/
  clamped : Bool
  /-- The sense current in codes and DRVn's share of its range in percent as last measured, and since when each condition of R124
  has held without a break: OVERCUR, SHORT and OPEN. -/
  sense : Nat
  drive : Nat
  overFrom : Option Nat
  shortFrom : Option Nat
  openFrom : Option Nat
  /-- Its sensor channel was faulty at the last look (R120). -/
  sensFault : Bool
deriving DecidableEq, Repr

/-- Launch-energy judgement of one fibre (R125–R127, R131–R133). -/
structure Energy where
  /-- Photodiode baseline P_B. -/
  pdBase : Int
  /-- Rounds for which judgement stays suspended. -/
  suspend : Nat
  /-- The same for Raman rounds, and the Raman baseline. -/
  ramanBase : Int
  ramanRounds : Nat
  ramanSuspend : Nat
  /-- Clean probe shots in succession (R133). -/
  clean : Nat
  /-- PULSE_LOSS latched on GATE_x and on TRIG_x in a group of mode OWN (R103, R128). -/
  gateLoss : Bool
  trigLoss : Bool
  /-- The last T0 shot showed BREAK (R134). -/
  broken : Bool
deriving DecidableEq, Repr

/-- Emission safety and source drive behind the registers. -/
structure Source where
  chans : List (Nat × SrcChan)
  /-- A SYNC tick due at this instant (R112), and whether the batch waits for seed-first (R114). -/
  tick : Option Nat
  armed : Bool
  deferred : Bool
  /-- EMIT_EN pin level, the instant its present low began or its filter started (R101, R102). -/
  emitSince : Option Nat
  emitLowAt : Option Nat
  forced : Bool
  /-- When the regulator's next update falls due (R106). -/
  updDue : Nat
  lastLaunch : Two (Option Nat)
  energy : Two Energy
deriving DecidableEq, Repr

/-! ## Pins and the flow of records (R1) -/

/-- Levels of the digital pins that no register shows. -/
structure Pins where
  emitEn : Bool
  resetN : Bool
  ppsOut : Bool
  /-- SAMP instant at which PPS_OUT falls (R50). -/
  ppsFall : Option Nat
deriving DecidableEq, Repr

/-! ## Worker lanes (R276–R310) -/

/-- An active hardware loop: first and last address of its body, and iterations left including the current one (R283). -/
structure Loop where
  first : Nat
  last : Nat
  left : Nat
deriving DecidableEq, Repr

/-- An input port: the bobbin place of the next record, and the unread payload of the current one, its first `samples`
words being sample words (R287, R288). -/
structure InPort where
  pos : Nat
  unread : List Word
  samples : Nat
deriving DecidableEq, Repr

/-- An output port: the words of the open record, the label and round words of the youngest input read since the last
SEND, its tags, and the records sent (R289). -/
structure OutPort where
  words : List Word
  h2 : Word
  h3 : Word
  tags : Two Nat
  sent : Nat
  /-- Label of the youngest input record read since the last SEND, plus one; 0 while there is none. -/
  young : Nat
deriving DecidableEq, Repr

/-- The checkpointed state of a logical lane (R223, R283, R302): pointers and offsets as their field codes. -/
structure LaneCore where
  d : List Word
  ac : List Int
  pt : List Nat
  off : List Nat
  md : List Nat
  ptcfg : Nat
  fl : Nat
  pc : Nat
  stack : List Nat
  /-- Active loops, innermost first. -/
  loops : List Loop
  x : List (Nat × Word)
  y : List (Nat × Word)
  k : List Word
  ins : List InPort
  outs : List OutPort
  /-- Youngest round read of each fibre, plus one; 0 for none (R233). -/
  seen : Two Nat
  trap : Nat
  /-- The residue mod 7 that each accumulator carries, and a check that failed (R295). -/
  res : List Nat
  err : Bool
deriving DecidableEq, Repr

/-- A checkpoint: the round it is named by and the state (R233). -/
structure LaneCk where
  round : Nat
  core : LaneCore
deriving DecidableEq, Repr

/-- A logical lane: what the image gives it, its state, and its bookkeeping. -/
structure Logical where
  prog : List Word
  xInit : List Word
  yInit : List Word
  cInit : List Word
  /-- LANE_INCFGk, LANE_INFSTk, LANE_INCNTk and LANE_INCYCk, four words a port (R308), and LANE_OUTk (R309). -/
  inCfg : List Word
  outCfg : List Word
  outRates : List Nat
  /-- Declared record rates of KIND 0x4 and 0x5 input ports, in mHz (R616). -/
  inRates : List Nat
  kInit : List Word
  core : LaneCore
  cks : List LaneCk
  /-- Staged parameters and the instant of the last write (R302). -/
  pendK : List (Nat × Word)
  pendAt : Nat
  /-- Parameters that a checkpoint applied, by the checkpoint's round, newest last (R302). -/
  appliedK : List (Nat × List (Nat × Word))
  /-- Records released from each output port (R234). -/
  released : List Nat
  /-- LANE clocks since the last SHDR, its port, and busy clocks in the present ms (R301, R306). -/
  clk : Nat
  clkPort : Nat
  busy : Nat
  /-- Data registers loaded, and accumulators written by a multiply, in the instruction just before (R293). -/
  loaded : List Nat
  macced : List Nat
  /-- Waiting on a port (R304), and a record over its cycle budget seen (R301). -/
  wait : Bool
  /-- Unserved since this instant (R564). -/
  unserved : Option Nat
  /-- Its checkpoints were discarded after 100 ms unserved (R564). -/
  lapsed : Bool
  /-- The instant of its last checkpoint of the 1 ms timer (R233). -/
  ckAt : Nat
  /-- Output ports whose next write carries the claim above the bobbin's (R419). -/
  bumps : List Nat
  /-- The instant at which an instruction last retired, or the lane began to serve (R296). -/
  retired : Nat
deriving DecidableEq, Repr

/-- A lane restore in progress (R564): the spare, its logical lane, and the instant of the declaration. -/
structure Take where
  lane : Nat
  ll : Nat
  at_ : Nat
deriving DecidableEq, Repr

/-- The lane set behind its registers. -/
structure Lanes where
  /-- Logical lanes LL0–LL31; an unlisted one is empty. -/
  ll : List (Nat × Logical)
  takes : List Take
  /-- Next logical lane of the shadow rotation, and a window aimed by a test request or return (R566–R570). -/
  nextShadow : Nat
  aim : Option Nat
  /-- A planned swap awaits the target's checkpoint (R568). -/
  swap : Bool
  /-- A mismatch being resolved: the logical lane, the former target and the lane that took over (R567). -/
  suspect : Option (Nat × Nat × Nat)
  /-- The window that runs: the instant its comparison began, and the round of its start checkpoint (R566). -/
  winAt : Nat
  winRound : Nat
  /-- Lanes under test: lane and start (R562). -/
  tests : List (Nat × Nat)
deriving DecidableEq, Repr

/-! ## Flash and its stores (R610–R630) -/

/-- A transfer in progress (R625): words received. -/
structure Transfer where
  dest : Nat
  length : Nat
  words : List Word
  /-- Sector erases or programs still running. -/
  ops : Nat
deriving DecidableEq, Repr

/-- A pending flash operation (R612): an erase or program of the open transfer, a log entry, or a write of the calibration store. -/
inductive FlashJob where
  | transfer | log | cal
deriving DecidableEq, Repr

/-- Contents of the flash and what waits for it: two image slots as words, two calibration copies as words, event log
entries oldest first, and FAULT records awaiting their entry. -/
structure Flash where
  slots : Two (List Word)
  cals : Two (List Word)
  log : List (List Byte)
  logQueue : List Record
  logSeq : Nat
  coldCount : Nat
  transfer : Option Transfer
  /-- Entry places of the event log region (R611). -/
  logPlaces : Nat
  /-- A completed calibration awaits its write to the calibration store (R622). -/
  calDirty : Bool
  /-- Pending operations in arrival order (R612). -/
  jobs : List FlashJob
deriving DecidableEq, Repr

/-! ## Network ports and streams (R467–R506) -/

/-- An IP address of a port: version, address, prefix length and gateway (R475). -/
structure Iface where
  addr : Nat
  pfx : Nat
  gw : Nat
deriving DecidableEq, Repr

/-- A next hop (R476): its address, its MAC once resolved, when it was first asked for and when it is next refreshed. -/
structure Hop where
  v6 : Bool
  addr : Nat
  mac : Option Nat
  asked : Nat
  refresh : Nat
  /-- Unresolved for 3 s. -/
  failed : Bool
deriving DecidableEq, Repr

/-- MACsec state of a port (R471–R474): the SAKs by association number, the PN of the next frame, the lowest PN not yet
received per association number, and the MKA exchange: member identifier, last MKPDU, next hello. -/
structure Secure where
  cak : List Word
  ckn : List Word
  priority : Nat
  ssci : Nat
  saks : List (Nat × Nat)
  txPn : Nat
  rxPn : List (Nat × Nat)
  server : Bool
  lastSeen : Option Nat
  hello : Nat
deriving DecidableEq, Repr

/-- What leaves a port. -/
inductive Out where
  /-- A UDP datagram to an address: DSCP, source and destination port, payload. -/
  | udp (v6 : Bool) (dst : Nat) (sport dport dscp : Nat) (payload : List Byte)
  /-- An EAPOL frame with its MKA body. -/
  | eapol (body : List Byte)
  | arpReply (target mac : Nat)
  | arpRequest (target : Nat)
  | neighbourAdvert (target mac : Nat)
  | neighbourSolicit (target : Nat)
  | echoReply (v6 : Bool) (dst : Nat) (payload : List Byte)
  /-- A PTP Delay_Req of this sequence number. -/
  | delayReq (seq : Nat)
deriving DecidableEq, Repr

/-- A network port behind its registers. -/
structure Port where
  mac : Nat
  ip4 : Option Iface
  ip6 : Option Iface
  window : Nat
  /-- ACL prefixes: IPv6, address, length (R491). -/
  acl : List (Bool × Nat × Nat)
  hops : List Hop
  sec : Secure
  /-- Accepted frames waiting for their processing, by kind (R470). -/
  mkaIn : List MkaMsg
  arpIn : List AddrMsg
  ndIn : List AddrMsg
  echoIn : List EchoMsg
  ptpIn : List PtpMsg
  /-- Start of the present second of echo answers and their count (R476). -/
  echoAt : Nat
  echoes : Nat
  /-- Frames handed to the port, oldest first, each with the stream it belongs to if any; the streams served, the latest last; and the
  instant at which the line is free (R487). -/
  txq : List (Option Nat × Out)
  turn : List Nat
  txAt : Nat
  /-- Datagrams that wait for their next hop, by destination (R476). -/
  held : List (Bool × Nat × Out)
deriving DecidableEq, Repr

/-- A stream's destination from the image (R478, R616). -/
structure Dest where
  v6 : Bool
  addr : Nat
  dport : Nat
  sport : Nat
  rate : Nat
deriving DecidableEq, Repr

/-- A record taken into a group: its bobbin place, when it became readable, and the timebase then. -/
structure Taken where
  idx : Nat
  data : Record
  at_ : Nat
  tb : Nat
deriving DecidableEq, Repr

/-- A stream behind its registers: its open group (records with the instants they became readable), whether the next data
frame carries GAP, whether a descriptor is due, the descriptor last sent, when the next periodic one falls due, and the
bytes of the present second. -/
structure Stream where
  group : List Taken
  gap : Bool
  needDesc : Bool
  desc : List Byte
  descAt : Nat
  rateFrom : Nat
  rateBytes : Nat
  enabled : Bool
  /-- Bobbin place after the last record taken. -/
  last : Nat
  /-- The open group closes early (R482): a stop or a reset of its source. -/
  cut : Bool
  /-- NET0 is available to the stream, and since when (R479). -/
  n0 : Bool
  n0At : Nat
deriving DecidableEq, Repr

/-- A frame sent: its port, its destination's MAC address, its 802.1Q tag as VID and PCP, the PN and association number it went under if
protected, and its content. -/
structure Sent where
  port : Nat
  dst : Nat
  tag : Option (Nat × Nat)
  pn : Option (Nat × Nat)
  what : Out
deriving DecidableEq, Repr

/-- A foreign master (R489): identity, announce data in comparison order, the last Announce, Announces counted. -/
structure Master where
  ident : Nat
  rank : Nat
  last : Nat
  count : Nat
  interval : Int
  delayInterval : Int
deriving DecidableEq, Repr

/-- The ordinary clock of R489: masters, the selected one, and the exchange in progress with times in ns. -/
structure Ptp where
  masters : List Master
  chosen : Option Nat
  /-- t1 and t2 of the last Sync with its interval, and the sequence number of a Sync awaiting its Follow_Up with its correction. -/
  t1 : Option Int
  t2 : Option Int
  syncInt : Int
  waiting : Option (Nat × Int)
  /-- Sequence number and transmit time of the last Delay_Req, and the measured mean path delay. -/
  req : Option (Nat × Int)
  reqSeq : Nat
  reqAt : Nat
  delay : Option Int
deriving DecidableEq, Repr

/-- A management request waiting at the supervisor (R496): its arrival port, the sender, and the datagram. -/
structure Request where
  port : Nat
  v6 : Bool
  src : Nat
  sport : Nat
  bytes : List Byte
deriving DecidableEq, Repr

/-- A READ or WRITE in progress: the request and its authorising slot, the next register's address, the registers left, and the words
read or still to write with the registers completed. -/
structure Progress where
  req : Request
  auth : Option Nat
  addr : Nat
  left : Nat
  words : List Word
  completed : Nat
deriving DecidableEq, Repr

/-- The network behind its registers. -/
structure Net where
  ports : Two Port
  dests : List (Nat × Dest)
  streams : List (Nat × Stream)
  /-- Management requests in arrival order (R496). -/
  queue : List Request
  /-- A READ or WRITE between two of its register accesses (R640). -/
  prog : Option Progress
  ptp : Ptp
  /-- Every frame sent, oldest first: the model's record of its outputs. -/
  sent : List Sent
deriving DecidableEq, Repr

/-! ## Housekeeping converters and sensor channels (R343–R385) -/

/-- A conversion pass: its next entry and the earliest start of that entry's slot (R348, R351). -/
structure Pass where
  entry : Nat
  start : Nat
deriving DecidableEq, Repr

/-- What a conversion is for: a photodiode at a launch of a round, an entry of the injected or regular sequence or the table with its
result slot, a monitor conversion, a sensor check conversion, one of the H32 series of R355, or H39 under an Eyelet test (R361). -/
inductive ConvFor where
  | photodiode (x : Fibre) (round : Nat)
  | injected (slot : Nat)
  | regular (slot : Nat)
  | table (slot : Nat)
  | monitor (k : Nat)
  | check (n : Nat)
  | verify
  | eyelet
deriving DecidableEq, Repr

/-- An Eyelet test in progress (R361): the input, conversions of H39 taken, sequencer conversions taken, and whether one
differed. -/
structure Eyelet where
  input : Nat
  pre : Nat
  taken : Nat
  bad : Bool
deriving DecidableEq, Repr

/-- The housekeeping converters behind their registers. -/
structure Hk where
  /-- The ROM table runs: no image applied since a WARM or deeper reset (R352). -/
  rom : Bool
  /-- The instant the multiplexer is free for another slot. -/
  free : Nat
  /-- Photodiode conversions due: earliest slot start, fibre and round of the launch (class 1). -/
  pds : List (Nat × Fibre × Nat)
  inj : List Pass
  reg : List Pass
  /-- Table entry, repetition and earliest start (R352). -/
  tblEntry : Nat
  tblRep : Nat
  tblStart : Nat
  /-- Class 3 conversions placed, with their due instants, and the instant at which the next monitor conversions fall due. -/
  placed : List (Nat × ConvFor)
  monDue : Nat
  /-- The verification series of R355: conversions left and the sums of both converters. -/
  verifyLeft : Nat
  verifySum : Two Int
  /-- Trigger events delivered and not yet recognised: code of R350 and delivered edge. -/
  trigs : List (Nat × Nat)
  timerAt : Nat
  /-- The previous conversion was clamped: one discard conversion precedes the next (R346). -/
  discard : Bool
  /-- Consecutive shadow mismatches (R355). -/
  mismatch : Nat
  /-- Reference selected, and the instant since which it is (R344). -/
  refSel : Nat
  refFrom : Nat
  /-- The instant of the last change of the active converter by a fault: results sampled up to it are lost (R356). -/
  lostAt : Option Nat
  /-- A calibration: its start, and whether it is intrusive (R357, R358). -/
  calAt : Option Nat
  calIntr : Bool
  /-- The swap that a UNIT reset of the active converter, or a calibration, awaits (R357, R359). -/
  resetReq : Bool
  /-- A built-in test of a fenced converter: its start. -/
  testAt : Option Nat
  lastCal : Nat
  calTemp : Int
  /-- Slots whose next result carries CAL, and SUBST in force (R354). -/
  calSlots : List Nat
  subst : Bool
  /-- A swap occupies the multiplexer up to this instant: what was due within it carries DELAYED (R349, R357). -/
  swapTo : Nat
  /-- The last change of the active converter. -/
  flipAt : Nat
  eyelet : Option Eyelet
  /-- Inputs reconnected after a test, whose next conversion carries ERASED (R361). -/
  eyeTail : List Nat
  lastTest : Nat
  rotate : Nat
deriving DecidableEq, Repr

/-- A sensor channel behind its registers. -/
structure Sensor where
  /-- Conversions still to discard after a switch, and the instant from which they count (R365). -/
  discard : Nat
  from_ : Nat
  /-- The first kept conversion since the switch or enable (R367). -/
  kept : Option Nat
  /-- The next periodic check, and the first check of R367. -/
  due : Option Nat
  first : Option Nat
  /-- The check in progress: its start, the check conversions placed and taken; sums of the codes in the high and low halves of the
  modulation and of the lead; clipping seen. -/
  check : Option Nat
  placed : Nat
  taken : Nat
  hi : Int
  lo : Int
  lead : Int
  clipped : Bool
  /-- Sequencer conversions after the check that still carry ERASED (R366). -/
  erase : Nat
deriving DecidableEq, Repr

/-! ## Converter slices (R137–R180) -/

/-- Why a slice is on the calibration source: an episode of R166, a spare, standby or idle-fibre calibration of R168, or the
intrusive one of R168. -/
inductive CalKind where
  | episode | direct | intrusive
deriving DecidableEq, Repr

/-- A calibration episode, requested or running: the fibre whose rounds it uses (2 for none), the request instant, rounds
compared in the present parallel run (none while it awaits its boundary), the calibration's start and whether it has
ended, whether ABORT ended it, whether the slice is reset at the first swap (R180), and the role registers at t_0. -/
structure SliceCal where
  kind : CalKind
  slice : Nat
  func : Nat
  fib : Nat
  keep : Bool
  goAt : Nat
  rounds : Option Nat
  calAt : Option Nat
  ended : Bool
  aborted : Bool
  unitReset : Bool
  role0 : Word
  role1 : Word
deriving DecidableEq, Repr

/-- A function served by a slice standing in for another (R140): its samples carry SUB from `start` to `stop`. -/
structure SubRun where
  func : Nat
  from_ : Nat
  start : Nat
  ending : Bool
  stop : Option Nat
deriving DecidableEq, Repr

/-- The slices behind their registers. -/
structure Slices where
  cal : Option SliceCal
  /-- Built-in tests running: slice and start (R562). -/
  tests : List (Nat × Nat)
  /-- Function shadowed, rounds of the window, and mismatch rounds in succession (R161, R162). -/
  shadowFn : Nat
  shadowRnd : Nat
  mism : Nat
  subs : List SubRun
  /-- Swaps: function, instant and the slice before (R167, R184), and fault spans (R174). -/
  swaps : List (Nat × Nat × Nat)
  spans : List (Nat × Span)
  /-- A mismatch being resolved: function, suspect, the slice that took over, and whether the second test runs (R163). -/
  suspect : Option (Nat × Nat × Nat × Bool)
  calTimes : List (Nat × Nat)
  /-- The timebase at each slice's last calibration (R621). -/
  calTb : List (Nat × Nat)
  /-- Pending profiles: GO instant and whether checked (R149). -/
  profGo : Two (Option (Nat × Bool))
  /-- The last profile switch at the slice inputs, and its round (R151). -/
  profAt : Two (Option Nat)
  profRound : Two (Option Nat)
  /-- The last sample that carried STEP on each fibre (R144). -/
  stepAt : Two (Option Nat)
  /-- The gain code in force on each fibre's coherent functions, and the changes that the slots of earlier rounds still give: instants
  at the slice inputs and codes (R144). -/
  gain : Two Nat
  late : Two (List (Nat × Nat))
  /-- Intrusive calibrations: function, start and end (R168). -/
  intrus : List (Nat × Nat × Nat)
  /-- Slices whose calibration a takeover cut short while they were the spare, for AUTOCAL to request again (R176). -/
  again : List Nat
  /-- The instant up to which each slice's over-range samples have been counted (R155). -/
  ovrAt : List (Nat × Nat)
deriving DecidableEq, Repr

/-! ## Cordonnet estimator (R186–R189) -/

/-- The reference estimator: β and B of the last sample, the slow mean, the instant of that sample, the values of ψ newest
first, samples since the present lock state began its history, low-amplitude samples in succession, clean samples in succession, the amplitudes of
the last 1,000 samples, and the intervals in which lock was false. -/
structure Cordonnet where
  beta : Int
  b : Int
  mean : Rat
  started : Bool
  at_ : Nat
  psi : List Int
  hist : Nat
  low : Nat
  clean : Nat
  amps : List Nat
  lost : List (Nat × Option Nat)
deriving DecidableEq, Repr


/-! ## Temperature sensing (R207, R311–R342) -/

/-- What the front stage forms of one Raman trace (R207, R312–R315): the bin sums of both functions, the OVR counts, the sums
of the dark windows, the launch energy of R127, and whether it meets the flags of its period. -/
structure TraceSum where
  as_ : List Int
  st : List Int
  ovr : List Nat
  darkAs : Int
  darkSt : Int
  e : Int
  dovr : Bool
  sub : Bool
  cal : Bool
deriving DecidableEq, Repr

/-- A Raman trace whose verdict is not final (R221): round, launch instant, timestamp, trigger width, trace length in points,
a bad input known, its sums once complete, and whether its Raman round was evaluated. -/
structure RamanTrace where
  round : Nat
  tRL : Nat
  ts : Nat
  width : Nat
  len : Nat
  bad : Bool
  sums : Option TraceSum
  judged : Bool
deriving DecidableEq, Repr

/-- The averaging period in progress (R316–R319): traces good and skipped, the sums, first and last timestamps of counted
traces, the instant and timestamp of its start. -/
structure Period where
  good : Nat
  bad : Nat
  sums : TraceSum
  first : Nat
  last : Nat
  startAt : Nat
  startTs : Nat
deriving DecidableEq, Repr

/-- A record of the temperature solution (R327): period index, record index, whether it ends the period, lnC for LNCACT, the record. -/
structure Sol where
  k : Nat
  m : Nat
  last : Bool
  lnC : Option Word
  data : Record
deriving DecidableEq, Repr

/-- A fibre's DTS behind its registers: open traces, the period, whether it runs, records of closed periods with the instants
at which they are complete, the solution's lnC with 64 fraction bits once formed, the coefficient words in force, written ones with their
instant, and whether the next period is the first to use a changed value (R325, R326). -/
structure Dts where
  traces : List RamanTrace
  period : Option Period
  run : Bool
  out : List (Nat × Record)
  /-- Records of the solution not yet written (R327). -/
  sols : List Sol
  /-- Period index and record index of what the solution's lane read last on IN0 and IN1, and the instant at which its SEND falls. -/
  got : Two (Option (Nat × Nat))
  solAt : Option Nat
  lnC : Option Int
  coef : Word
  lnc : Word
  pend : List (Nat × Bool × Word)
  changed : Bool
deriving DecidableEq, Repr


/-! ## Zone alarms and loop outputs (R386–R406) -/

/-- A zone behind its registers (R387, R388): the counters, and the instant of its last report or of the acquisition's start. -/
structure Zone where
  up : Nat
  dn : Nat
  at_ : Nat
deriving DecidableEq, Repr

/-- A loop's readback check (R394): when the commanded code last changed, and the open readbacks and deviations in succession. -/
structure Readback where
  changed : Option Nat
  opens : Nat
  devs : Nat
deriving DecidableEq, Repr

/-- The alarm unit: zones, loops, and whether a record beyond Z1023 has been seen. -/
structure Alarm where
  zones : List (Nat × Zone)
  loops : List (Nat × Readback)
  beyond : Bool
deriving DecidableEq, Repr

/-! ## Memory controller (R442–R466) -/

/-- Training in progress: at boot (R454), on demand of a target (R457), or as the test of unit 0x62 (R571). -/
inductive Training where
  | boot | demand (target : Nat) | test
deriving DecidableEq, Repr

/-- Commands of an access to a DRAM row (R444, R448, R451): bursts are numbered 0 to 63, and the last closes the row when it carries
auto-precharge. -/
inductive DramCmd where
  | activate (rank bank row : Nat)
  | read (burst : Nat) (precharge : Bool)
  | write (burst : Nat) (precharge : Bool)
  | refresh (rank bank : Nat)
deriving DecidableEq, Repr

/-- The memory controller behind its registers. -/
structure Memc where
  /-- The ranks are in self-refresh, or have not been trained since a COLD or FABRIC reset. -/
  selfRef : Bool
  /-- A WARM reach holds the ranks in self-refresh with their contents (R458). -/
  held : Bool
  /-- Postponed refreshes and the instant of the next refresh of a bank, keyed 32·port + 16·rank + bank (R451). -/
  post : List (Nat × Nat)
  nextRef : List (Nat × Nat)
  /-- Multiplier m of each rank, keyed 2·port + rank, and the instant of the last MR4 read. -/
  mult : List Nat
  mr4At : Nat
  /-- Sectors in each port's write buffer and waiting to be read, oldest first, and whether a drain runs (R449, R450). -/
  wbuf : Two (List Nat)
  rdq : Two (List Nat)
  drain : Two Bool
  /-- The commands of the access last issued on each port (R448), the instants of its last four ACTIVATEs, newest first, and the instant
  at which its data lines are free. -/
  issued : Two (List DramCmd)
  acts : Two (List Nat)
  portAt : Two Nat
  /-- The bank that each port wrote last, and the instants from which banks may be activated again, keyed as `post` (R450, R466). -/
  rot : Two Nat
  bankAt : List (Nat × Nat)
  /-- The sector that the scrub reads next, and when it is due (R446). -/
  scrub : Nat
  scrubAt : Nat
  /-- Next tracking instant of each port, the end of its last event with its duration, and the die temperature at it (R455). -/
  trkDue : Two Nat
  trkEnd : Two (Option Nat)
  trkNs : Two Nat
  trkTemp : Two Int
  /-- A change of set point: its target and start; the end of the last one (R456). -/
  change : Option (Nat × Nat)
  changeEnd : Option Nat
  /-- The latched request (R457). -/
  latched : Option Nat
  train : Option Training
  trainAt : Nat
  /-- The page table is being built since this instant (R454). -/
  table : Option Nat
  /-- Poisoned sectors (R445). -/
  poison : List Nat
deriving DecidableEq, Repr

/-! ## Compression (R507–R524, R544–R546) -/

/-- A block closed and not yet written: its records with the descriptor epoch's GAP mark and the timebase at its close (R511). -/
structure Block where
  recs : List Record
  gap : Bool
  at_ : Nat
deriving DecidableEq, Repr

/-- A closed link of a digest chain whose record is not yet written (R546). -/
structure Link where
  i : Nat
  at_ : Nat
  first : Nat
  count : Nat
  flags : Nat
  prev : List Byte
  value : List Byte
deriving DecidableEq, Repr

/-- A hash chain (R545): the next link and when it closes, D of the last link, and the interval so far: block index of the first
record covered, records covered, their bytes, and the flags of P6. -/
structure Chain384 where
  i : Nat
  due : Nat
  value : List Byte
  first : Nat
  count : Nat
  bytes : List Byte
  flags : Nat
  links : List Link
deriving DecidableEq, Repr

/-- A compressor behind its registers. -/
structure Comp where
  /-- Records of the open block, and the instant at which its first record became readable. -/
  recs : List Record
  openAt : Nat
  /-- The next block carries GAP. -/
  gap : Bool
  /-- Blocks closed and not yet written, the next block index. -/
  closed : List Block
  index : Nat
  /-- Bobbin place after the last record taken, and the source's descriptor state at it. -/
  last : Nat
  src : List Byte
  chain : Option Chain384
deriving DecidableEq, Repr

/-! ## Security (R525–R557) -/

/-- A fuse operation running (R534): OP, SLOT and the operand words. -/
structure FuseOp where
  op : Nat
  slot : Nat
  data : List Word
deriving DecidableEq, Repr

/-- Identity, keys and trust behind the registers. The FUSE registers themselves are the fuses' shadow. -/
structure Secu where
  /-- The fleet image key (R526), and whether its presence fuse is missing on blown data fuses. -/
  fleetKey : List Word
  fleetSpoiled : Bool
  /-- Operand words of SEC_FPDATA (R554). -/
  fpdata : List Word
  fuseOp : Option FuseOp
  /-- The outstanding challenge: nonce and expiry (R540). -/
  challenge : Option (List Byte × Nat)
  /-- The monitor session: its slot and the instant of its last command (R542). -/
  session : Option (Nat × Nat)
  /-- Programmed fields of the reach table: source and code (R589). -/
  reach : List (Nat × Nat)
  /-- The identity key is derived (R529). -/
  identity : Bool
  /-- Runtime DRBG (R531): requests since the last seed, the instant of that seed, and the next retry while in error. -/
  drbgReqs : Nat
  drbgAt : Nat
  retryAt : Nat
deriving DecidableEq, Repr

/-! ## The configuration image (R613–R627) -/

/-- A decoded record of an image: TYPE, INDEX and payload words after decryption and decompression (R614). -/
structure ImgRec where
  typ : Nat
  index : Nat
  words : List Word
deriving DecidableEq, Repr

/-- A running image (R618): slot, GENERATION, SVN, header flags, image hash and decoded records. -/
structure Image where
  slot : Nat
  gen : Nat
  svn : Nat
  flags : Nat
  ownerSlot : Nat
  hash : List Byte
  recs : List ImgRec
deriving DecidableEq, Repr

/-! ## Reset and boot (R582–R609) -/

/-- Reset and boot behind the SYS registers. Source codes are the bit numbers of SYS_CAUSE; reach codes those of SYS_REACH. -/
structure Boot where
  vaon : Bool
  /-- Asserted sources, a pulse source with the instant at which it ends. -/
  asserted : List (Nat × Option Nat)
  /-- Reach of the running episode, and the sources asserted in it (R590). -/
  episode : Option Nat
  sources : List Nat
  startAt : Nat
  /-- The release sequence of the episode runs since this instant (R591). -/
  release : Option Nat
  /-- The episode deepened a WARM reach to FABRIC (R588). -/
  deepened : Bool
  /-- The instant of the last release, from which BOOTMS counts, and whether the first commit since has come. -/
  bootAt : Nat
  counted : Bool
  /-- The boot sequence has stopped short of the image (R601). -/
  stopped : Bool
  /-- The decoded image awaiting its application, and the running image with its instant of application. -/
  loaded : Option Image
  image : Option Image
  appliedAt : Nat
  /-- A round of either fibre has been committed under the running image (R537). -/
  committed : Bool
  /-- The boot sequence, or an ACQ release, has come to the acquisition start of R600. -/
  autoDue : Bool
deriving DecidableEq, Repr

/-! ## The monitor (R631–R640) -/

/-- A monitor command with its arguments, parsed from its line (R635, R638). -/
inductive MonCmd where
  /-- The name asked for, if one is. -/
  | help (name : Option (List Byte))
  | id
  | stat
  | health (n : Nat)
  | challenge
  | auth (trailer : List Byte)
  /-- First address, count, and the words read so far. -/
  | peek (a n : Nat) (got : List Word)
  | poke (a : Nat) (w : Word)
  | log (n : Nat)
  | trace (func fibre start count : Nat)
  | cal (unit : Nat) (keep intr : Bool)
  | test (unit : Nat) (intr : Bool)
  | slot
  | slotOpen (dest len : Nat)
  | slotData (ofs : Nat) (ws : List Word)
  | slotClose
  | slotAbort
  | slotClear (k : Nat)
  | reset
  | resetUnit (unit : Nat)
deriving DecidableEq, Repr

/-- An armed capture (R639): function, or 15 for P14, fibre, first point, count, when it was armed, the instant from which a launch
counts, and for P14 whether the spare has left its rotation. -/
structure Trace where
  func : Nat
  fibre : Nat
  start : Nat
  count : Nat
  at_ : Nat
  from_ : Nat
  held : Bool
deriving DecidableEq, Repr

/-- The monitor: the line being received and whether it has failed, whether the last character was CR, a complete line, the parsed
command, characters buffered while a command runs with their framing errors, the armed capture, and everything printed, oldest
first. -/
structure Mon where
  line : List Byte
  bad : Bool
  cr : Bool
  entered : Option (List Byte × Bool)
  cmd : Option MonCmd
  buffer : List (Byte × Bool)
  trace : Option Trace
  out : List Byte
deriving DecidableEq, Repr

/-! ## The whole state -/

/-- The machine. `regs` is the register file: the word at a register key, unlisted keys reading their reset word. -/
structure State where
  regs : List (Nat × Word)
  /-- The holding register of R11. -/
  holding : Word
  /-- SAMP nanoseconds since the start of the model's time. -/
  now : Nat
  /-- The model's own counter of free values taken. (DESIGN CHOICE, assumption 6.) -/
  fresh : Nat
  /-- Completion status of the last access or command (R495), and the word the last read returned. -/
  status : Status
  value : Word
  tb : Timebase
  sched : Two Sched
  commit : Two Commit
  aux : List (Nat × AuxChain)
  src : Source
  slices : Slices
  cord : Cordonnet
  dts : Two Dts
  flash : Flash
  lanes : Lanes
  ground : Ground
  health : Health
  hk : Hk
  sensors : List (Nat × Sensor)
  alarm : Alarm
  memc : Memc
  comps : Two Comp
  secu : Secu
  boot : Boot
  mon : Mon
  net : Net
  pins : Pins
  /-- Commands waiting, first in first out. -/
  pending : List Instr
deriving DecidableEq, Repr

/-! ## The state after reset

Every register reads its reset word, as no register is listed. What the registers do not show is idle and empty. -/

def Sched.idle : Sched :=
  { startAt := none, round := 0, tB := 0, tr := 0, nT := 1, evalRound := 0, evalSlot := 0, armed := none, nextSeq := 0,
    darkRound := false, goAt := 0, accepted := false, stopReq := false, startHeld := false, heldTo := none, probeReq := false,
    probing := false, probeEnd := false, probeAge := 0, soundReq := false, sounding := false, lm := none, replan := false,
    upcoming := none, ramanLast := none, ramanRound := none, gate := none, gateCut := false, forcedAt := none,
    pulse := none, trig := none }

def SetState.off : SetState := { cfg := 1, pend := none, rstAt := 0, open_ := [] }

def Commit.idle : Commit :=
  { slots := [], rounds := [], nextCommit := 0, lastBad := none, replay := none, ran := 0, stopped := none, chans := [], chains := [],
    sets := ⟨SetState.off, SetState.off⟩ }

def Energy.unset : Energy :=
  { pdBase := 0, suspend := 0, ramanBase := 0, ramanRounds := 0, ramanSuspend := 0, clean := 0,
    gateLoss := false, trigLoss := false, broken := false }

def Source.idle : Source :=
  { chans := [], tick := none, armed := false, deferred := false, emitSince := none, emitLowAt := none, forced := true, updDue := 0,
    lastLaunch := ⟨none, none⟩, energy := ⟨Energy.unset, Energy.unset⟩ }

def Slices.idle : Slices :=
  { cal := none, tests := [], shadowFn := 0, shadowRnd := 0, mism := 0, subs := [], swaps := [], spans := [], suspect := none,
    calTimes := [], calTb := [], profGo := ⟨none, none⟩, profAt := ⟨none, none⟩, profRound := ⟨none, none⟩, stepAt := ⟨none, none⟩,
    gain := ⟨0, 0⟩, late := ⟨[], []⟩, intrus := [], again := [], ovrAt := [] }

def Cordonnet.idle : Cordonnet :=
  { beta := 0, b := 0, mean := 0, started := false, at_ := 0, psi := [], hist := 0, low := 0, clean := 0, amps := [],
    lost := [(0, none)] }

def Dts.idle : Dts :=
  { traces := [], period := none, run := false, out := [], sols := [], got := ⟨none, none⟩, solAt := none,
    lnC := none, coef := 0, lnc := 0, pend := [],
    changed := false }

def Lanes.empty : Lanes :=
  { ll := [], takes := [], nextShadow := 0, aim := none, swap := false, suspect := none, winAt := 0, winRound := 0, tests := [] }

def Ground.empty : Ground :=
  { bobs := [], rcl := { ring := [], postBytes := 0, trigAt := 0, exporting := [], frames := [] }, replayPages := ⟨0, 0⟩,
    ages := [], promoted := [], reqs := [], turn := [], storeAt := 0, table := [], gone := [], hold := (0, 0) }

def Health.fresh : Health :=
  { nextSeq := 0, fails := [], held := [], faults := [], beats := [], pathClean := ⟨none, none⟩, test := none,
    residues := ⟨[], []⟩, darkFor := ⟨false, false⟩, recent := [] }

def Hk.idle : Hk :=
  { rom := true, free := 0, pds := [], inj := [], reg := [], tblEntry := 0, tblRep := 0, tblStart := 0, placed := [],
    monDue := 0, verifyLeft := 0, verifySum := ⟨0, 0⟩, trigs := [], timerAt := 0, discard := false, mismatch := 0, refSel := 0,
    refFrom := 0,
    lostAt := none, calAt := none, calIntr := false, resetReq := false, testAt := none, lastCal := 0, calTemp := 0,
    calSlots := [], subst := false, swapTo := 0, flipAt := 0, eyelet := none, eyeTail := [], lastTest := 0, rotate := 0 }

def Secure.off : Secure :=
  { cak := [], ckn := [], priority := 0, ssci := 0, saks := [], txPn := 1, rxPn := [], server := false, lastSeen := none,
    hello := 0 }

def Port.off : Port :=
  { mac := 0, ip4 := none, ip6 := none, window := 0, acl := [], hops := [], sec := Secure.off, mkaIn := [], arpIn := [],
    ndIn := [], echoIn := [], ptpIn := [], echoAt := 0, echoes := 0, txq := [], turn := [], txAt := 0, held := [] }

def Ptp.idle : Ptp :=
  { masters := [], chosen := none, t1 := none, t2 := none, syncInt := 0, waiting := none, req := none, reqSeq := 0, reqAt := 0,
    delay := none }

def Net.idle : Net :=
  { ports := ⟨Port.off, Port.off⟩, dests := [], streams := [], queue := [], prog := none, ptp := Ptp.idle, sent := [] }

def Memc.untrained : Memc :=
  { selfRef := true, held := false, post := [], nextRef := [], mult := [1, 1, 1, 1], mr4At := 0, wbuf := ⟨[], []⟩, rdq := ⟨[], []⟩,
    drain := ⟨false, false⟩, issued := ⟨[], []⟩, acts := ⟨[], []⟩, portAt := ⟨0, 0⟩, rot := ⟨0, 0⟩, bankAt := [], scrub := 0,
    scrubAt := 0, trkDue := ⟨0, 0⟩,
    trkEnd := ⟨none, none⟩, trkNs := ⟨0, 0⟩, trkTemp := ⟨0, 0⟩, change := none, changeEnd := none, latched := none, train := none,
    trainAt := 0, table := none, poison := [] }

def Comp.idle : Comp :=
  { recs := [], openAt := 0, gap := false, closed := [], index := 0, last := 0, src := [], chain := none }

def Secu.fresh : Secu :=
  { fleetKey := [], fleetSpoiled := false, fpdata := List.replicate 12 0, fuseOp := none, challenge := none, session := none,
    reach := [], identity := false, drbgReqs := 0, drbgAt := 0, retryAt := 0 }

def Timebase.zero : Timebase :=
  { acc := 0, edge := 0, prev := 0, prevInc := 0, run := false, stepPend := none, secAt := none, servoI := 0,
    limits := { stepNs := 1_000_000, slewPpm := 100, lockCount := 8, holdoverMs := 3000 }, inLock := 0, lastValid := 0,
    first := true, rejects := 0 }

def Mon.idle : Mon :=
  { line := [], bad := false, cr := false, entered := none, cmd := none, buffer := [], trace := none, out := [] }

/-- Flash as delivered: erased, with room for the log entries of a 1 Gbit device (R610, R611). -/
def Flash.blank : Flash :=
  { slots := ⟨[], []⟩, cals := ⟨[], []⟩, log := [], logQueue := [], logSeq := 0, coldCount := 0, transfer := none,
    logPlaces := 1_040_384, calDirty := false, jobs := [] }

/-- Power has just come: POR asserted, its COLD episode begun, no rail good yet (R583, R587, R590). (DESIGN CHOICE, assumption 4.) -/
def Boot.powerOn : Boot :=
  { vaon := false, asserted := [(0, none), (1, none)], episode := some 1, sources := [0], startAt := 0,
    release := none, deepened := false, bootAt := 0, counted := false, stopped := false, loaded := none,
    image := none, appliedAt := 0, committed := false,
    autoDue := false }

/-- The machine right after power-on reset: every register at its reset word, every output in the state of R593, nothing in
progress, no command waiting. (DESIGN CHOICE, assumptions 4 and 5.) -/
def State.reset : State :=
  { regs := [], holding := 0, now := 0, fresh := 0, status := .ok, value := 0, tb := Timebase.zero,
    sched := ⟨Sched.idle, Sched.idle⟩, commit := ⟨Commit.idle, Commit.idle⟩, aux := [], src := Source.idle,
    slices := Slices.idle, cord := Cordonnet.idle, dts := ⟨Dts.idle, Dts.idle⟩, flash := Flash.blank, lanes := Lanes.empty,
    ground := Ground.empty, health := Health.fresh, hk := Hk.idle, sensors := [],
    alarm := { zones := [], loops := [], beyond := false }, memc := Memc.untrained, comps := ⟨Comp.idle, Comp.idle⟩,
    secu := Secu.fresh, boot := Boot.powerOn, mon := Mon.idle, net := Net.idle,
    pins := { emitEn := false, resetN := true, ppsOut := false, ppsFall := none }, pending := [] }

end Sys2Proof.Machine
end

