-- ==== Sys2Proof/Machine/Ops.lean ====
section
/-!
DEFINITION. The named operations over the register file, over queues and over time that every family uses.
-/
namespace Sys2Proof.Machine

/-! ## Named updates of the parts of the state -/

def State.modBoot (s : State) (f : Boot → Boot) : State := { s with boot := f s.boot }
def State.modFlash (s : State) (f : Flash → Flash) : State := { s with flash := f s.flash }
def State.modHealth (s : State) (f : Health → Health) : State := { s with health := f s.health }
def State.modHk (s : State) (f : Hk → Hk) : State := { s with hk := f s.hk }
def State.modLanes (s : State) (f : Lanes → Lanes) : State := { s with lanes := f s.lanes }
def State.modMemc (s : State) (f : Memc → Memc) : State := { s with memc := f s.memc }
def State.modMon (s : State) (f : Mon → Mon) : State := { s with mon := f s.mon }
def State.modNet (s : State) (f : Net → Net) : State := { s with net := f s.net }
def State.modSecu (s : State) (f : Secu → Secu) : State := { s with secu := f s.secu }
def State.modSrc (s : State) (f : Source → Source) : State := { s with src := f s.src }
def State.setSlices (s : State) (f : Slices → Slices) : State := { s with slices := f s.slices }
/-- Free values are taken. (DESIGN CHOICE, assumption 6.) -/
def State.spend (s : State) (n : Nat) : State := { s with fresh := s.fresh + n }

/-- SAMP nanoseconds pass. -/
def State.advance (s : State) (n : Nat) : State := { s with now := s.now + n }

def State.modTb (s : State) (f : Timebase → Timebase) : State := { s with tb := f s.tb }
def State.modGround (s : State) (f : Ground → Ground) : State := { s with ground := f s.ground }
def State.modPins (s : State) (f : Pins → Pins) : State := { s with pins := f s.pins }

/-- What an unlisted key of the register file reads as: the reset word of its bus address. The entries of GND_BCFG for
B125 to B127 read as R416 fixes them: enabled, NEAR, DROP_OLD, quotas 64, 64 and 256 pages. -/
def resetKey (k : Nat) : Word :=
  if k = R.GND_BCFG 125 then 0xC000_0040
  else if k = R.GND_BCFG 126 then 0xC000_0040
  else if k = R.GND_BCFG 127 then 0xC000_0100
  else resetWord (k % 0x100_0000)

/-- The word at a register key. (DESIGN CHOICE, assumption 7.) -/
def State.reg (s : State) (k : Nat) : Word := mapGet resetKey s.regs k

/-- Write the word at a register key. (DESIGN CHOICE, assumption 7.) -/
def State.setReg (s : State) (k : Nat) (v : Word) : State := { s with regs := mapSet resetKey s.regs k v }

/-- The bits of a field of a word. -/
def wordField (lo w : Nat) (v : Word) : Nat := v.toNat / 2 ^ lo % 2 ^ w

/-- A word with a field replaced. -/
def wordPut (lo w : Nat) (v : Word) (x : Nat) : Word :=
  BitVec.ofNat 32 (v.toNat / 2 ^ (lo + w) * 2 ^ (lo + w) + x % 2 ^ w * 2 ^ lo + v.toNat % 2 ^ lo)

/-- A field's value. -/
def State.rd (s : State) (f : Fld) : Nat := wordField f.lo f.w (s.reg f.reg)

/-- A field's value as a two's-complement number. -/
def State.rdI (s : State) (f : Fld) : Int := sgn f.w (s.rd f)

/-- Replace a field's value. -/
def State.wr (s : State) (f : Fld) (v : Nat) : State := s.setReg f.reg (wordPut f.lo f.w (s.reg f.reg) v)

/-- Replace a field by a signed value, in two's complement. -/
def State.wrI (s : State) (f : Fld) (v : Int) : State := s.wr f (unsgn f.w v)

/-- Add to a counting field, saturating. -/
def State.bumpBy (s : State) (f : Fld) (n : Nat) : State := s.wr f (satN f.w (s.rd f + n))

/-- Add one to a counting field, saturating. -/
def State.bump (s : State) (f : Fld) : State := s.bumpBy f 1

/-- A trigger of R350 is delivered to the housekeeping sequences at an edge; one that no sequence selects is not kept. -/
def State.hkNote (s : State) (code edge : Nat) : State :=
  if (s.rd F.HK_RCFG.SRC = code ∧ s.rd F.HK_RCFG.LEN ≠ 0) ∨ (s.rd F.HK_ICFG.SRC = code ∧ s.rd F.HK_ICFG.LEN ≠ 0) then
    { s with hk := { s.hk with trigs := s.hk.trigs ++ [(code, edge)] } }
  else s

/-- A list of updates of fields. -/
def State.wrs (s : State) : List (Fld × Nat) → State
  | [] => s
  | p :: t => (s.wr p.1 p.2).wrs t

/-- Copy a register word. -/
def State.copyReg (s : State) (src dst : Nat) : State := s.setReg dst (s.reg src)

/-- The timebase's nanosecond count (R3). -/
def State.tbNs (s : State) : Nat := s.tb.acc / 2 ^ 32

/-- Answer with a completion status (R495). -/
def State.answer (s : State) (st : Status) : State := { s with status := st }

/-- The outcome of every command of this model: a next state. -/
def done (s : State) : Host.Outcome State Fault Refusal := .next s

/-- An event whose condition holds changes the state; one whose condition does not hold leaves it as it is. (DESIGN CHOICE, assumption
3; DESIGN CHOICE, assumption 12.) -/
def onlyIf (b : Bool) (s t : State) : Host.Outcome State Fault Refusal := .next (if b then t else s)

/-- A reset of COLD, FABRIC or WARM reach runs (R593). -/
def State.inReset (s : State) : Bool := match s.boot.episode with
  | some r => decide (r ≤ 3)
  | none => false

/-- The control bus has a requester: no COLD, FABRIC or WARM episode runs. (DESIGN CHOICE, assumption 12.) -/
def State.busUp (s : State) : Bool := !s.inReset

/-- Scheduler, commit logic and energy judgement of a fibre. -/
def State.sch (s : State) (x : Fibre) : Sched := s.sched.at x.idx
def State.setSch (s : State) (x : Fibre) (v : Sched) : State := { s with sched := s.sched.upd x.idx v }
def State.cmt (s : State) (x : Fibre) : Commit := s.commit.at x.idx
def State.setCmt (s : State) (x : Fibre) (v : Commit) : State := { s with commit := s.commit.upd x.idx v }
def State.nrg (s : State) (x : Fibre) : Energy := s.src.energy.at x.idx
def State.setNrg (s : State) (x : Fibre) (v : Energy) : State :=
  { s with src := { s.src with energy := s.src.energy.upd x.idx v } }

/-! ## Slots and the causes of bad verdicts (R218, R243) -/

def causeLowRnd : Nat := 1
def causeSelv : Nat := 2
def causeOverlen : Nat := 4
def causeCord : Nat := 8
def causeNoWt : Nat := 16
def causeSpan : Nat := 32
def causeForced : Nat := 64
def causeIntru : Nat := 128
def causeProbe : Nat := 256

/-- Change the commit logic's record of a fibre. -/
def State.modCmt (s : State) (x : Fibre) (f : Commit → Commit) : State := s.setCmt x (f (s.cmt x))

/-- Change the slots of a fibre. -/
def State.mapSlots (s : State) (x : Fibre) (f : Slot → Slot) : State := s.modCmt x (fun c => { c with slots := c.slots.map f })

/-- A slot carries a launched shot. -/
def Slot.launched (sl : Slot) : Bool := sl.kind != .dark

/-- Add cause bits to the launched slots that meet a test and await their verdict. -/
def State.addCause (s : State) (x : Fibre) (bit : Nat) (p : Slot → Bool) : State :=
  s.mapSlots x (fun sl => if sl.launched && sl.verdict == none && p sl then { sl with causes := sl.causes ||| bit } else sl)

/-- Both fibres, A first (R38). -/
def fibres : List Fibre := [.a, .b]

/-- The fibre acquires: its scheduler is not IDLE (R82). -/
def State.acquiring (s : State) (x : Fibre) : Bool := s.rd (F.SHOT_STAT.STATE x.idx) != 0

/-- Some fibre acquires. -/
def State.anyAcquiring (s : State) : Bool := fibres.any s.acquiring

/-! ## Fault groups (R128, R129) -/

/-- Group of a member: 0 to 7 SC0–SC7, 8 and 9 GATE_A and GATE_B, 10 and 11 TRIG_A and TRIG_B. -/
def State.groupOf (s : State) (m : Nat) : Nat :=
  if m < 8 then s.rd (F.SRC_CFG.GROUP m)
  else match m with
    | 8 => s.rd F.SRC_GATEGRP.GATE_A
    | 9 => s.rd F.SRC_GATEGRP.GATE_B
    | 10 => s.rd F.SRC_GATEGRP.TRIG_A
    | _ => s.rd F.SRC_GATEGRP.TRIG_B

/-- A fault group is shut. -/
def State.groupShut (s : State) (g : Nat) : Bool := s.rd (F.SRC_GRP.SHUT g) == 1

/-- GATE_x is shut in its group (R128). -/
def State.gateShut (s : State) (x : Fibre) : Bool := s.groupShut (s.groupOf (8 + x.idx))

/-! ## Lists, words and bytes -/

/-- Fold a state change over a list. -/
def foldS {α : Type} (f : α → State → State) : List α → State → State
  | [], s => s
  | a :: t, s => foldS f t (f a s)

/-- Sum of a list of naturals. -/
def sumN (l : List Nat) : Nat := l.foldl (· + ·) 0

/-- Replace the element at a place. -/
def setAt {α : Type} : List α → Nat → α → List α
  | [], _, _ => []
  | _ :: t, 0, v => v :: t
  | a :: t, n + 1, v => a :: setAt t n v

def nthBit (v i : Nat) : Bool := v / 2 ^ i % 2 == 1
def setBit (v i : Nat) : Nat := v ||| 2 ^ i

/-- The word at a place of a list, 0 beyond its end. -/
def wordAt (l : List Word) (n : Nat) : Word := l.getD n 0

/-- The low 32 bits of a number, as a word. -/
def w32 (n : Nat) : Word := BitVec.ofNat 32 n

/-- The 32-bit two's-complement code of an integer. -/
def w32I (v : Int) : Word := BitVec.ofInt 32 v

/-- Little-endian bytes of a number. -/
def leBytes : Nat → Nat → List Byte
  | 0, _ => []
  | n + 1, v => BitVec.ofNat 8 v :: leBytes n (v / 256)

/-- The number that little-endian bytes spell. -/
def leNat : List Byte → Nat
  | [] => 0
  | b :: t => b.toNat + 256 * leNat t

/-- Big-endian bytes of a number. -/
def beBytes (n v : Nat) : List Byte := (leBytes n v).reverse

/-- Bytes of words, little-endian (R6). -/
def wordsToBytes (l : List Word) : List Byte := l.flatMap (fun w => leBytes 4 w.toNat)

/-- Words of bytes, little-endian, by fuel; a short last group is padded with zero bytes. -/
def bytesToWordsFuel : Nat → List Byte → List Word
  | 0, _ => []
  | n + 1, l => if l.isEmpty then [] else w32 (leNat (l.take 4)) :: bytesToWordsFuel n (l.drop 4)

def bytesToWords (l : List Byte) : List Word := bytesToWordsFuel l.length l

/-- The live plane of a staged field of fibre `x` (R62), or its shadow plane. -/
def planeFld (live : Bool) (f : Fld) : Fld := if live then f.live else f

end Sys2Proof.Machine
end

