-- ==== Sys2Proof/Machine/Store.lean ====
section
/-!
DEFINITION. The Ground's bobbins (R407–R419): records, pages, readers, quotas and gates. A record takes whole pages of its
own. Every producer writes through `bobWrite`.
-/
namespace Sys2Proof.Machine

/-- An unlisted bobbin: empty. -/
def emptyBobbin : Bobbin := { recs := [], next := 0, readers := [], lastDrop := none, rateBytes := 0, rateFrom := 0 }

def State.bob (s : State) (b : Nat) : Bobbin := mapGet (fun _ => emptyBobbin) s.ground.bobs b

def State.setBob (s : State) (b : Nat) (v : Bobbin) : State :=
  s.modGround (fun g => { g with bobs := mapSet (fun _ => emptyBobbin) g.bobs b v })

/-- Bytes of a record: a 16-byte header and its payload (R285). -/
def recBytes (r : Record) : Nat := 16 + 4 * r.payload.length

/-- Pages of a record, which begins on a page of its own. -/
def recPages (r : Record) : Nat := ceilDiv (recBytes r) 4096

/-! ## Pages (R407, R408, R410) -/

/-- The fixed parts of the near store in KiB (R408): writer assembly, writer elastic buffer, replay read buffer, network buffers,
compression buffers, lane port buffers, and the near pages. -/
def nearStore : List Nat := [768, 256, 512, 1024, 768, 1056, 3808]

/-- Pages for bobbins placed NEAR (R408). -/
def nearPages : Nat := 952

/-- The pages of the ring's run that a record lies on: records are packed across pages (R427). -/
def RingRec.pagesOf (r : RingRec) : List Nat :=
  List.range' (r.off / 4096) ((r.off + r.bytes + 4095) / 4096 - r.off / 4096)

/-- Pages of the run that the window holds, with the DRAM pages they lie in. -/
def Recall.run (v : Recall) : List (Nat × Nat) :=
  let held := (v.ring ++ v.exporting).flatMap RingRec.pagesOf
  v.frames.filter (fun p => held.contains p.1)

/-- The pages that a sector of the page table describes (R445). -/
def tableSpan (k : Nat) : List Nat := List.range' (128 * k) 128

/-- Pages of the DRAM, or of the near store, that are not FREE. -/
def State.usedPages (s : State) (near : Bool) : List Nat :=
  let bobs := s.ground.bobs.flatMap (fun p =>
    if (s.rd (F.GND_BCFG.PLACE p.1) == 1) = near then p.2.recs.flatMap (·.frames) else [])
  if near then bobs else bobs ++ s.ground.rcl.run.map (·.2) ++ s.ground.gone.flatMap tableSpan

/-- The lowest `n` pages that are FREE: the allocator's choice. (DESIGN CHOICE, assumption 103.) -/
def takeFree (used : List Nat) (n : Nat) : List Nat :=
  ((List.range (used.length + n)).filter (fun j => !used.contains j)).take n

/-! ## Requests (R420) -/

/-- Ask the arbiter for quanta. (DESIGN CHOICE, assumption 104.) -/
def State.request (s : State) (who : Requester) (write : Bool) (l : List PageAt) : State :=
  s.modGround (fun g => { g with reqs := g.reqs ++ l.map (fun p => { who := who, write := write, at_ := p, since := s.now }) })

/-- Where a page of a bobbin lies. -/
def State.pageOf (s : State) (b j : Nat) : PageAt := if s.rd (F.GND_BCFG.PLACE b) = 1 then .near j else .dram j

/-- The lane port that bobbin `b` is an output of. -/
def State.laneWriter (s : State) (b : Nat) : Option (Nat × Nat) :=
  s.lanes.ll.findSome? (fun p => ((List.range 4).find? (fun k =>
    wordField 31 1 (wordAt p.2.outCfg k) = 1 ∧ wordField 0 7 (wordAt p.2.outCfg k) = b)).map (fun k => (p.1, k)))

/-- Who writes a bobbin (R411, R420). -/
def State.writerOf (s : State) (b : Nat) : Requester :=
  if b = 127 then .health
  else if b = 126 then .mgmt
  else if b = 125 then .index
  else match s.laneWriter b with
    | some (ll, k) => .lanePort ll (4 + k)
    | none =>
      match [0, 1].find? (fun n => s.rd (F.DFL_CFG.EN n) = 1 ∧ s.rd (F.DFL_CFG.OUTBOB n) = b) with
      | some n => .comp n
      | none => if s.rd F.GND_RCFG.EN = 1 ∧ s.rd F.GND_RCFG.EXPBOB = b then .export_ else .front

/-- Whose request a reader's read is. -/
def State.readerWho (s : State) : Reader → Requester
  | .lanePort ll k => .lanePort ll k
  | .alarmSlot _ => .alarm
  | .stream i => .transmit (if s.rd (F.NET_SCFG.PORTSEL i) = 1 then 1 else 0)
  | .comp n => .comp n
  | .supervisor => .supervisor

/-- A reader reads the records of a bobbin from one place up to another. -/
def State.readPages (s : State) (b : Nat) (r : Reader) (from_ past : Nat) : State :=
  s.request (s.readerWho r) false (((s.bob b).recs.filter (fun q => decide (from_ ≤ q.idx ∧ q.idx < past))).flatMap
    (fun q => q.frames.map (s.pageOf b)))

/-! ## Quotas, policies and readers (R412, R413) -/

/-- SPEC and QUEUED pages of a bobbin, which count against its quota (R413). -/
def bobPages (b : Bobbin) : Nat := sumN (b.recs.map (fun r => if r.st = .retained then 0 else r.pages))

/-- A logical lane still needs a record of a bobbin (R235): a bound port of it stands at the record or before it, in a checkpoint that
it holds or, with `live`, now. -/
def laneHolds (live : Bool) (l : Logical) (b idx : Nat) : Bool :=
  let bound := (List.range 4).filter (fun k =>
    wordField 31 1 (wordAt l.inCfg (4 * k)) = 1 ∧ wordField 16 7 (wordAt l.inCfg (4 * k)) = b)
  let held (c : LaneCore) := bound.any (fun k => match c.ins[k]? with
    | some p => decide (p.pos ≤ idx)
    | none => false)
  !l.lapsed && ((live && held l.core) || l.cks.any (fun c => held c.core))

/-- Some lane's port or held checkpoint still needs the record (R235). -/
def State.laneNeeds (s : State) (b idx : Nat) : Bool := s.lanes.ll.any (fun p => laneHolds true p.2 b idx)

/-- Some lane's checkpoint needs the record. -/
def State.ckNeeds (s : State) (b idx : Nat) : Bool := s.lanes.ll.any (fun p => laneHolds false p.2 b idx)

/-- The lane ports of a logical lane that read bobbin `b` have all read past `idx`. -/
def laneReadPast (l : Logical) (b idx : Nat) : Bool :=
  l.lapsed || decide (l.core.trap ≠ 0) || (List.range 4).all (fun k =>
    if wordField 31 1 (wordAt l.inCfg (4 * k)) = 1 ∧ wordField 16 7 (wordAt l.inCfg (4 * k)) = b then
      match l.core.ins[k]? with
      | some p => decide (idx < p.pos)
      | none => true
    else true)

/-- Number of lane input ports bound to a bobbin. -/
def State.lanePorts (s : State) (b : Nat) : Nat :=
  sumN (s.lanes.ll.map (fun p => ((List.range 4).filter (fun k =>
    wordField 31 1 (wordAt p.2.inCfg (4 * k)) = 1 ∧ wordField 16 7 (wordAt p.2.inCfg (4 * k)) = b)).length))

/-- Readers that hold a position (R412). -/
def State.readerCount (s : State) (b : Nat) : Nat := (s.bob b).readers.length + s.lanePorts b

/-- Every reader has read past the record; a bobbin without readers keeps its records (R412). -/
def State.readPast (s : State) (b idx : Nat) : Bool :=
  decide (0 < s.readerCount b) && (s.bob b).readers.all (fun r => decide (idx < r.2)) &&
    s.lanes.ll.all (fun p => laneReadPast p.2 b idx)

/-- Records every reader has passed leave the bobbin: to RETAINED while a lane checkpoint needs them, else FREE, as does a
RETAINED record that no checkpoint needs any longer (R412). -/
def State.sweepBob (s : State) (b : Nat) : State :=
  let v := s.bob b
  let recs := v.recs.filterMap (fun r =>
    match r.st with
    | .spec => some r
    | .queued =>
      if s.readPast b r.idx then (if s.laneNeeds b r.idx then some { r with st := .retained } else none) else some r
    | .retained => if s.laneNeeds b r.idx then some r else none)
  s.setBob b { v with recs := recs }

/-- Remove the oldest committed record of a list, RETAINED if a lane needs it; none when no committed record is left. -/
def dropOldest (needs : Nat → Bool) : List Stored → Option (List Stored)
  | [] => none
  | r :: t =>
    if r.st = .queued then some (if needs r.idx then { r with st := .retained } :: t else t)
    else (dropOldest needs t).map (r :: ·)

/-- Drop committed records, oldest first, until the pages fit: the records left and the number dropped. -/
def dropUntil (needs : Nat → Bool) (quota need : Nat) : Nat → List Stored → List Stored × Nat
  | 0, l => (l, 0)
  | n + 1, l =>
    if sumN (l.map (fun r => if r.st = .retained then 0 else r.pages)) + need ≤ quota then (l, 0)
    else match dropOldest needs l with
      | none => (l, 0)
      | some l' => let (r, k) := dropUntil needs quota need n l'; (r, k + 1)

/-- The least idx still listed, or the next place: where a reader moved by a drop stands at least. -/
def firstIdx (v : Bobbin) : Nat :=
  match v.recs.find? (fun r => r.st ≠ .retained) with
  | some r => r.idx
  | none => v.next

/-- What a write through a bobbin's gate came to. -/
inductive Wrote where
  | stored | deferred | firstDrop
deriving DecidableEq, Repr

/-- Ports of logical lanes bound to a bobbin move past what has been dropped from it (R413). -/
def State.skipLanes (s : State) (b idx : Nat) : State :=
  let skip (l : Logical) : Logical := { l with core := { l.core with ins := l.core.ins.zipIdx.map (fun p =>
    if wordField 31 1 (wordAt l.inCfg (4 * p.2)) = 1 ∧ wordField 16 7 (wordAt l.inCfg (4 * p.2)) = b then
      { p.1 with pos := max p.1.pos idx } else p.1) } }
  s.modLanes (fun v => { v with ll := v.ll.map (fun p => (p.1, skip p.2)) })

/-- Append a record to a bobbin that has room for it: it takes free pages, and its producer writes them. -/
def State.append (s : State) (b : Nat) (r : Record) (st : PageState) (tags : Two Nat) (lane : Option (Nat × Nat × Nat)) : State :=
  let v := s.bob b
  let need := recPages r
  let fr := takeFree (s.usedPages (s.rd (F.GND_BCFG.PLACE b) == 1)) need
  let entry : Stored :=
    { idx := v.next, data := r, pages := need, frames := fr, st := st, tags := tags, lane := lane, freed := s.now,
      tb := s.tbNs }
  (s.setBob b { v with recs := v.recs ++ [entry], next := v.next + 1 }).request (s.writerOf b) true (fr.map (s.pageOf b))

/-- Append a record to bobbin `b` under its quota and policy (R413). A DEFER bobbin without room answers `deferred` and
keeps nothing; a first drop after 1 s without drops answers `firstDrop`. -/
def State.bobWrite (s : State) (b : Nat) (r : Record) (st : PageState) (tags : Two Nat)
    (lane : Option (Nat × Nat × Nat)) : State × Wrote :=
  let v := s.bob b
  let need := recPages r
  let quota := s.rd (F.GND_BCFG.QUOTA b)
  if bobPages v + need ≤ quota then (s.append b r st tags lane, .stored)
  else if s.rd (F.GND_BCFG.POLICY b) = 1 then (s, .deferred)
  else
    let (recs, k) := dropUntil (s.ckNeeds b) quota need v.recs.length v.recs
    let first := match v.lastDrop with
      | none => true
      | some t => decide (1_000_000_000 ≤ s.now - t)
    let v' := { v with recs := recs, lastDrop := if k = 0 then v.lastDrop else some s.now }
    let v' := { v' with readers := v'.readers.map (fun p => (p.1, max p.2 (firstIdx v'))) }
    let s1 := (s.bumpBy (F.GND_BDROP.COUNT b) k).setBob b v'
    -- no lane port reads B125 to B127 (R285)
    let s2 := if k = 0 ∨ 125 ≤ b then s1 else s1.skipLanes b (firstIdx v')
    (s2.append b r st tags lane, if k ≠ 0 ∧ first = true then .firstDrop else .stored)

/-- Tags of a record of fibre `x`, round `r`; and of a record that derives from no shot. -/
def tagOf (x r : Nat) : Two Nat := (Two.mk 0 0).upd x (r + 1)
def noTags : Two Nat := ⟨0, 0⟩

/-- The youngest round of each fibre that bears on a record, plus one (R233): its own, or the later shot its fill drew on. -/
def youngest (r : Stored) : Two Nat :=
  ⟨if r.tags.a = 0 then 0 else max r.tags.a r.data.born, if r.tags.b = 0 then 0 else max r.tags.b r.data.born⟩

/-- A claim `c` is higher than `b` (R418). (DEDUCED, assumption 51.) -/
def claimHigher (c b : Nat) : Bool :=
  let d := (c + 65536 - b % 65536) % 65536
  decide (1 ≤ d ∧ d ≤ 32767)

/-- The records a reader may take from its position on: committed ones, and for lane ports SPEC ones too (R410). -/
def nextRecord (v : Bobbin) (pos : Nat) (speculative : Bool) : Option Stored :=
  v.recs.find? (fun r => decide (pos ≤ r.idx) && (speculative || r.st ≠ .spec))

/-- A reader's position, if it holds one. -/
def State.readerPos (s : State) (b : Nat) (r : Reader) : Option Nat :=
  ((s.bob b).readers.find? (fun p => p.1 = r)).map (·.2)

/-- Bind a reader at the oldest record held, or only to what comes next (R412). -/
def State.bindReader (s : State) (b : Nat) (r : Reader) (oldest : Bool) : State :=
  let v := s.bob b
  let at_ := if oldest then firstIdx v else v.next
  s.setBob b { v with readers := (v.readers.filter (fun p => p.1 ≠ r)) ++ [(r, at_)] }

/-- Unbind a reader: it holds no position and no pages (R412). -/
def State.unbindReader (s : State) (b : Nat) (r : Reader) : State :=
  let v := s.bob b
  (s.setBob b { v with readers := v.readers.filter (fun p => p.1 ≠ r) }).sweepBob b

/-- Move a reader past a record: it reads the pages between. -/
def State.advanceReader (s : State) (b : Nat) (r : Reader) (past : Nat) : State :=
  let s := s.readPages b r ((s.readerPos b r).getD past) past
  let v := s.bob b
  (s.setBob b { v with readers := v.readers.map (fun p => if p.1 = r then (p.1, past) else p) }).sweepBob b

/-- Records of a fibre's round join their bobbins: SPEC becomes QUEUED (R417). Lane outputs await their own release. -/
def commitRecs (now tb x round : Nat) (l : List Stored) : List Stored :=
  l.map (fun r => if r.st = .spec ∧ r.tags.at x ≠ 0 ∧ r.tags.at x ≤ round + 1 ∧ r.lane = none then
    { r with st := .queued, freed := now, tb := tb } else r)

/-- Discard SPEC records of a fibre from a round on, lane outputs apart (R225). -/
def discardRecs (x round : Nat) (l : List Stored) : List Stored :=
  l.filter (fun r => ¬ (r.st = .spec ∧ r.tags.at x ≠ 0 ∧ (round + 1 ≤ r.tags.at x ∨ round + 1 ≤ r.data.born) ∧ r.lane = none))

/-- Change the records of every listed bobbin. -/
def State.mapBobs (s : State) (f : List Stored → List Stored) : State :=
  s.ground.bobs.foldl (fun t p => t.setBob p.1 { p.2 with recs := f p.2.recs }) s

end Sys2Proof.Machine
end

