-- ==== Sys2Proof/Machine/Event.lean ====
section
/-!
DEFINITION. Health events (R572–R574): every one is a record of B127, counted, latched and, when a FAULT, queued for the
event log.
-/
namespace Sys2Proof.Machine

/-- Severities of R572. -/
inductive Severity where
  | info | warn | fault | clear
deriving DecidableEq, Repr

def Severity.code : Severity → Nat
  | .info => 0 | .warn => 1 | .fault => 2 | .clear => 3

/-- The unit code that names no unit. -/
def noUnit : Nat := 0xFF

/-- The record of an event (R572). -/
def eventRecord (s : State) (code : Nat) (sev : Severity) (unit : Nat) (fib : Option Fibre) (seq : Nat)
    (v5 v6 v7 : Nat) : Record :=
  let t := s.tbNs
  { kind := 8, fibre := match fib with | some x => x.idx | none => 0, pic := false, bad := false, ns := 8,
    h1 := w32 code, h2 := w32 t,
    h3 := match fib with | some x => w32 (s.sch x).round | none => 0,
    payload := [w32 (code % 0x10000 + sev.code * 0x10000 + unit % 256 * 0x100_0000), w32 s.health.nextSeq, w32 t,
      w32 (t / 2 ^ 32), w32 seq, w32 v5, w32 v6, w32 v7],
    label := t, born := 0 }

/-- Up to 64 FAULT records wait for flash; one beyond is dropped and counted (R623). -/
def State.queueLog (s : State) (r : Record) : State :=
  if s.flash.logQueue.length < 64 then s.modFlash (fun f => { f with logQueue := f.logQueue ++ [r], jobs := f.jobs ++ [.log] })
  else s.bump F.SYS_FLASH.LOGDROP

/-- Write an event's record and its consequences, answering whether B127 began to drop. -/
def State.eventRaw (s : State) (code : Nat) (sev : Severity) (unit : Nat) (fib : Option Fibre) (seq : Nat)
    (v5 v6 v7 : Nat) : State × Wrote :=
  let r := eventRecord s code sev unit fib seq v5 v6 v7
  let s1 := (s.wr F.HLTH_EVSEQ.SEQ s.health.nextSeq).bump F.HLTH_EVCNT.COUNT
  let s2 := s1.modHealth (fun h => { h with nextSeq := (h.nextSeq + 1) % 2 ^ 32 })
  let s3 := if sev = .fault then (s2.wr F.HLTH_STAT.ALATCH 1).queueLog r else s2
  let s4 := s3.modHealth (fun h => { h with recent := (if h.recent.length < 256 then h.recent else h.recent.drop 1) ++ [r] })
  let (s5, o) := s4.bobWrite 127 r .queued noTags none
  -- the supervisor reads each record as it joins (R416)
  (s5.advanceReader 127 .supervisor (s5.bob 127).next, o)

/-- Raise a health event (R572). A first drop of B127 is itself an event (R413). (DESIGN CHOICE, assumption 17; DESIGN CHOICE,
assumption 61.) -/
def State.event (s : State) (code : Nat) (sev : Severity) (unit : Nat) (fib : Option Fibre) (seq v5 v6 v7 : Nat) : State :=
  let (s1, o) := s.eventRaw code sev unit fib seq v5 v6 v7
  if o = .firstDrop then (s1.eventRaw 0x0E01 .warn noUnit none 0 127 0 0).1 else s1

/-- A record into a bobbin, with the event of a first drop (R413); `false` when a DEFER bobbin had no room. -/
def State.produce (s : State) (b : Nat) (r : Record) (st : PageState) (tags : Two Nat)
    (lane : Option (Nat × Nat × Nat)) : State × Bool :=
  let (s1, o) := s.bobWrite b r st tags lane
  match o with
  | .stored => (s1, true)
  | .firstDrop => (s1.event 0x0E01 .warn noUnit none 0 b 0 0, true)
  | .deferred => (s1, false)

/-- A write through a bobbin's gate with a claim (R418): one that is neither the bobbin's nor higher is dropped, counted in
GND_LATE and reported with the bobbin and the physical unit. (DEDUCED, assumption 51.) -/
def State.gateWrite (s : State) (b claim unit : Nat) (r : Record) (st : PageState) (tags : Two Nat)
    (lane : Option (Nat × Nat × Nat)) : State × Bool :=
  let have_ := s.rd (F.GND_BCLAIM.CLAIM b)
  if claim = have_ then s.produce b r st tags lane
  else if claimHigher claim have_ then (s.wr (F.GND_BCLAIM.CLAIM b) claim).produce b r st tags lane
  else ((s.bump F.GND_LATE.COUNT).event 0x0E01 .warn unit none 0 b unit 0, true)

end Sys2Proof.Machine
end

