-- ==== Sys2Proof/Machine/Clock.lean ====
section
/-!
DEFINITION. The timebase, its servo and the PPS pins (R43–R58).
-/
namespace Sys2Proof.Machine

/-- The rate correction in force: CLK_TB_RATE saturated per R43. -/
def State.tbRate (s : State) : Int := clampI (-17179869) 17179869 (s.rdI F.CLK_TB_RATE.RATE)

/-- What one TIME clock adds, in 2^-32 ns (R43). -/
def State.tbInc (s : State) : Nat := (4 * 2 ^ 32 + s.tbRate).toNat

/-- First SAMP edge of a TIME clock, 1 to 4, at or after which the timebase has passed a whole second; none if an ordinary
advance from `v` by `inc` passes none (R50). The spec gives the count on TIME edges alone: between them its increment is spread
evenly over the four SAMP edges, as R51 spreads it. (DESIGN CHOICE, assumption 81.) -/
def secondEdge (v inc : Nat) : Option Nat :=
  let sec := 1_000_000_000 * 2 ^ 32
  if (v + inc) / sec = v / sec then none
  else ((List.range 4).map (· + 1)).find? (fun j => decide ((v + inc) / sec * sec ≤ v + inc * j / 4))

/-- Set CLK_TB_STAT.STATE, with the health event of a change (R58). -/
def State.setTbState (s : State) (v : Nat) : State :=
  if s.rd F.CLK_TB_STAT.STATE = v then s
  else (s.wr F.CLK_TB_STAT.STATE v).event 0x0102 .info noUnit none 0 v 0 0

/-- STEPPED and the health event of a step or SET: the step and, per fibre, the next shot's sequence number (R48). -/
def State.stepped (s : State) (by_ : Int) : State :=
  (s.wr F.CLK_TB_STAT.STEPPED 1).event 0x0102 .info noUnit none 0 (unsgn 32 by_) (s.sch .a).nextSeq (s.sch .b).nextSeq

/-- The SAMP instant of a whole second that the TIME clock from now passes by ordinary advance while PPS_OUT is enabled (R50): a
second passed while it is disabled gives no pulse. -/
def State.passedSecond (s : State) : Option Nat :=
  if s.rd F.CLK_TB_CTL.PPS_OUT_EN = 1 then
    match secondEdge s.tb.acc s.tbInc with
    | some j => some (s.now + j)
    | none => s.tb.secAt
  else none

/-- One TIME clock of the timebase: the ordinary advance, then a pending STEP (R43, R48, R50). (DESIGN CHOICE, assumption 2.) -/
def State.tbTick (s : State) : State :=
  if s.tb.run then
    let v : Nat := (s.tb.acc + s.tbInc) % 2 ^ 96
    let sec := s.passedSecond
    let s1 := (s.advance 4).modTb (fun q => { q with prev := q.edge, prevInc := s.tbInc, acc := v, edge := v, secAt := sec })
    match s.tb.stepPend with
    | none => s1
    | some d =>
      let v' := (((v : Int) + d * 4294967296) % 79228162514264337593543950336).toNat
      ((s1.modTb (fun q => { q with acc := v', stepPend := none }))).stepped d
  else s.advance 4

/-- The timebase is disciplined (R45). -/
def State.tbDisciplined (s : State) : Bool := s.rd F.CLK_TB_CTL.SRC != 0

/-- CLK_TB_CMD.SET (R46, R53): refused under PTP; under PPS the servo locks afresh. It acts at its command and leaves a STEP not yet
in effect to act after it at the next TIME clock. (DESIGN CHOICE, assumption 83.) -/
def tbSet (s : State) : State :=
  let src := s.rd F.CLK_TB_CTL.SRC
  if src = 1 ∨ src = 2 then s.answer .refused
  else
    let ns : Nat := s.rd F.CLK_TB_SET_HI.SET_HI * 2 ^ 32 + s.rd F.CLK_TB_SET_LO.SET_LO
    let d : Int := (ns : Int) - (s.tbNs : Int)
    let s1 := ((s.modTb (fun q => { q with acc := ns * 2 ^ 32 }))).stepped d
    (if src = 3 then ((s1.modTb (fun q => { q with inLock := 0, rejects := 0 }))).setTbState 1 else s1).answer .ok

/-- CLK_TB_CMD.STEP (R46, R48): refused while disciplined; a later STEP replaces one not yet in effect. -/
def tbStep (s : State) : State :=
  if s.tbDisciplined then s.answer .refused
  else ((s.modTb (fun q => { q with stepPend := some (s.rdI F.CLK_TB_STEP_NS.STEP) }))).answer .ok

/-- CLK_TB_CMD.CAPTURE (R48, R54): the value on the present TIME edge, before a step or SET on it. -/
def tbCapture (s : State) : State :=
  let v := s.tb.edge
  (s.wrs [(F.CLK_TB_CAP_FRAC.FRAC, v / 2 ^ 16 % 2 ^ 16), (F.CLK_TB_CAP_LO.NS_LO, v / 2 ^ 32 % 2 ^ 32),
    (F.CLK_TB_CAP_HI.NS_HI, v / 2 ^ 64)]).answer .ok

/-- Writes of the three bits of CLK_TB_CMD; none while an episode holds the timebase at 0 (R49). -/
def execClkTbSet (s : State) : Host.Outcome State Fault Refusal := onlyIf s.busUp s (tbSet s)
def execClkTbStep (s : State) : Host.Outcome State Fault Refusal := onlyIf s.busUp s (tbStep s)
def execCapture (s : State) : Host.Outcome State Fault Refusal := onlyIf s.busUp s (tbCapture s)

/-- The timebase at a SAMP instant `sub` edges after the present TIME edge, in 2^-32 ns (R51). -/
def State.tbAt (s : State) (sub : Nat) : Nat := (s.tb.edge + s.tbInc * sub / 4) % 2 ^ 96

/-- The slew limit as a fraction (R46). -/
def State.slewLimit (s : State) : Rat := (s.tb.limits.slewPpm : Rat) / 1_000_000

/-- RATE for a fractional frequency (R46): rnd(y × 4 × 2^32), saturated per R43. -/
def rateOf (y : Rat) : Int := clampI (-17179869) 17179869 (rndRat (y * 4 * 4294967296))

/-- The servo loop of R46 at a valid update with offset `o` ns, `dt` ns after the last. (DESIGN CHOICE, assumption 13.) -/
def servoUpdate (o : Int) (dt : Nat) (s : State) : State :=
  let lim := s.slewLimit
  let stepping := decide ((s.tb.limits.stepNs : Int) < o.natAbs)
  let o' : Int := if stepping then 0 else o
  let i' := clampRat (-lim) lim (s.tb.servoI - (o' : Rat) / (16 * dt))
  let y := clampRat (-lim) lim (i' - (o' : Rat) / (4 * dt))
  let n := if o.natAbs ≤ 100 then s.tb.inLock + 1 else 0
  let st := s.rd F.CLK_TB_STAT.STATE
  let n := if st = 3 ∨ st = 0 then (if o.natAbs ≤ 100 then 1 else 0) else n
  let s1 := s.wrI F.CLK_TB_STAT.OFFSET (clampI (-32767) 32767 o)
  let s2 := s1.modTb (fun q =>
    { q with stepPend := if stepping then some (-o) else q.stepPend, servoI := i', inLock := n, lastValid := s.now,
             first := false, rejects := 0 })
  let s3 := s2.wrI F.CLK_TB_RATE.RATE (rateOf y)
  let s4 := if st = 3 ∨ st = 0 then s3.setTbState 1 else s3
  if s4.rd F.CLK_TB_STAT.STATE = 1 ∧ s.tb.limits.lockCount ≤ n then s4.setTbState 2 else s4

/-- No valid update for the holdover time (R46): HOLDOVER, and RATE keeps the last filtered value. -/
def holdoverDue (s : State) : Bool :=
  s.tbDisciplined && (s.rd F.CLK_TB_STAT.STATE == 1 || s.rd F.CLK_TB_STAT.STATE == 2) &&
    decide (s.tb.lastValid + s.tb.limits.holdoverMs * 1_000_000 ≤ s.now)

def execServoHoldover (s : State) : Host.Outcome State Fault Refusal :=
  onlyIf (holdoverDue s) s
    ((((s.modTb (fun q => { q with inLock := 0 }))).wrI F.CLK_TB_RATE.RATE (rateOf s.tb.servoI)).setTbState 3)

/-- Offset of a time to the nearest whole second, in ns (R47). -/
def secondOffset (ns : Nat) : Int :=
  let r := ns % 1_000_000_000
  if r ≤ 500_000_000 then (r : Int) else (r : Int) - 1_000_000_000

/-- A PPS_IN edge, `sub` SAMP edges after the present TIME edge (R47, R52). While LOCKED, one more than 1 ms off is
rejected, and the third rejection in succession returns the servo to LOCKING. The servo's dt is counted in whole TIME clocks of SAMP
time, without the edge's part of a clock. (DESIGN CHOICE, assumption 82.) -/
def ppsInEdge (rising : Bool) (sub : Nat) (s : State) : State :=
  if s.rd F.CLK_TB_CTL.SRC = 3 ∧ (rising = true ↔ s.rd F.CLK_TB_CTL.PPS_IN_POL = 0) then
    let o := secondOffset (s.tbAt sub / 2 ^ 32)
    if s.rd F.CLK_TB_STAT.STATE = 2 ∧ 1_000_000 < o.natAbs then
      let s1 := (s.wr F.CLK_TB_STAT.PPS_REJ 1).wrI F.CLK_TB_STAT.OFFSET (clampI (-32767) 32767 o)
      if 3 ≤ s.tb.rejects + 1 then
        ((s1.modTb (fun q => { q with rejects := 0, inLock := 0 }))).setTbState 1
      else (s1.modTb (fun q => { q with rejects := s.tb.rejects + 1 }))
    else servoUpdate o (if s.tb.first then 1_000_000_000 else s.now - s.tb.lastValid) s
  else s

def execPpsInEdge (rising : Bool) (sub : Nat) (s : State) : Host.Outcome State Fault Refusal :=
  done (ppsInEdge rising sub s)

/-- PPS_OUT's high time in ms; a field of 0 acts as 1 (R52). -/
def State.ppsWidthMs (s : State) : Nat :=
  let w := s.rd F.CLK_TB_CTL.PPS_WIDTH
  if w = 0 then 1 else w

/-- PPS_OUT rises for a whole second passed by ordinary advance (R50). -/
def execPpsOutRise (s : State) : Host.Outcome State Fault Refusal :=
  match s.tb.secAt with
  | some t => onlyIf (s.rd F.CLK_TB_CTL.PPS_OUT_EN == 1) s
      ((s.modTb (fun q => { q with secAt := none })).modPins (fun q =>
        { q with ppsOut := true, ppsFall := some (t + s.ppsWidthMs * 1_000_000) }))
  | none => done s

/-- PPS_OUT falls PPS_WIDTH ms after its rise (R50). -/
def execPpsOutFall (s : State) : Host.Outcome State Fault Refusal :=
  match s.pins.ppsFall with
  | some t => onlyIf (decide (t ≤ s.now)) s (s.modPins (fun q => { q with ppsOut := false, ppsFall := none }))
  | none => done s

/-- The servo begins or ends as CLK_TB_CTL.SRC changes (R46): I takes RATE × 2^-32 / 4. -/
def State.tbSrcChanged (s : State) (old : Nat) : State :=
  let src := s.rd F.CLK_TB_CTL.SRC
  if src = old then s
  else if src = 0 then s.setTbState 0
  else
    (s.modTb (fun q =>
      { q with servoI := (s.tbRate : Rat) / (4 * 4294967296), first := true, inLock := 0, rejects := 0, lastValid := s.now })).setTbState 1

end Sys2Proof.Machine
end

