-- ==== Sys2Proof/Config.lean ====
section
/-!
DEFINITION. What the spec leaves open: constants with no body, so that no proof can see a value. Each is named in the
assumption log.
-/
namespace Sys2Proof.Config

/-- The word a read of LC gives with no loop active (R283 gives the content only for an active loop). -/
opaque noLoopCount : Word

/-- H2 (0) and H3 (1) of an output record when its port read no input record since its previous SEND (R289 states none): logical
lane, port, number of the record. (DESIGN CHOICE, assumption 112.) -/
opaque openHeader : Nat → Nat → Nat → Nat → Word

/-- The carry of a shift by 0, which shifts no bit out (R291). -/
opaque shiftZeroCarry : Word → Bool

/-- A fresh value each time: the argument is the machine's counter of free values taken. (DESIGN CHOICE, assumption 6.) -/
opaque freeNat : Nat → Nat

/-- Coefficient of the separation filter for point pitch P, `j` taps off its centre, in 2^-40 (R191 gives its structure and response
alone). (DESIGN CHOICE, assumption 23.) -/
opaque sepHalf : Nat → Nat → Int

/-- FIR coefficient h_j of a preset for j below the centre, the 20-bit code of a value in 2^-19 (R249, R666 give no values). (DESIGN
CHOICE, assumption 23.) -/
opaque firHalf : Nat → Nat → Fin 1048576

/-- ψ at an instant of which no reference sample was delivered to the model (R186). (DESIGN CHOICE, assumption 93.) -/
opaque openPsi : Nat → Int

/-- 10·log10 of 0 in 1/16 dB, of which R204 and R131 state no value. (DESIGN CHOICE, assumption 25.) -/
opaque dbZero : Int

/-- The trim of sensor channel n's excitation range from the fuses, relative to nominal (R362, R363). -/
opaque excTrim : Nat → Nat → Rat

/-- ln of a ratio of 0, of which R324 states no value. (DESIGN CHOICE, assumption 98.) -/
opaque lnZero : Int

/-- A trailer word of a temperature period for which R327 states no value: period index, and 0 for lnC or 1 for the loss. (DESIGN
CHOICE, assumption 98.) -/
opaque openTrailer : Nat → Nat → Word

/-- The binary32 word of a strain rate whose formula divides by 0 (R483 states no value). -/
opaque strainOpen : Int → Nat

/-! ## Cryptographic primitives

The standards that R525 to R547 name fix these functions; the model leaves them without a body. -/

/-- SHA-384 (R525). (PRESUMED, assumption 22.) -/
opaque sha384 : List Byte → BitVec 384

/-- Q, the identity key's public point X‖Y (R529). -/
opaque identityKey : BitVec 768

/-- The identity key's signature r‖s over SHA-384 of a message (R525, R543, R546). -/
opaque identitySign : List Byte → BitVec 768

/-- ECDSA over P-384: public key, message, signature (R525). -/
opaque ecdsaVerify : BitVec 768 → List Byte → BitVec 768 → Bool

/-- AES-256-GCM (R538, R539): key, IV, additional data, ciphertext with its tag; none when the tag does not match. -/
opaque gcmOpen : BitVec 256 → BitVec 96 → List Byte → List Byte → Option (List Byte)

/-- The record key that ECDH with the identity key and HKDF give for an ephemeral key E (R539). -/
opaque deviceKey : BitVec 768 → BitVec 256

/-- What the runtime DRBG delivers at each request (R531); the argument is the machine's counter of free values taken. -/
opaque drbg : Nat → BitVec 384

/-- The match that a compressor's search proposes at a place of its input under a block-type policy, as length and distance (R508: a
function of the input and the settings, not stated). (DESIGN CHOICE, assumption 109.) -/
opaque lzMatch : Nat → List Byte → Nat → Nat × Nat

/-- The bits of a dynamic Huffman block after its three header bits: the header of its code and its coded symbols (R509 limits the code
lengths to 15 bits and states no choice of them). (DESIGN CHOICE, assumption 109.) -/
opaque dynamicBits : List (Nat × Nat) → List Bool

end Sys2Proof.Config
end

