-- ==== Sys2Proof/Machine/Plan.lean ====
section
/-!
DEFINITION. Geometry and plans of a fibre: the checks of R25–R33 and R63–R74, the round period of R68 and the earliest
adoption of R86.
-/
namespace Sys2Proof.Machine

/-! ## Geometry (R25–R33) -/

/-- The point pitch P of a PP code; 0b11 gives none (R29). -/
def pitchOf (pp : Nat) : Option Nat :=
  match pp with
  | 0 => some 1
  | 1 => some 2
  | 2 => some 4
  | _ => none

/-- N_fit of R27; 0 when nothing fits. -/
def nFit (lpts s g q p : Nat) : Nat := if q = 0 then 0 else (lpts + p - (s + g + 1)) / q

/-- N_fit of a fibre's registers. -/
def State.fibreFit (s : State) (x : Nat) : Nat :=
  let p := (pitchOf (s.rd (F.SHOT_CHAN.PP x))).getD 4
  nFit (s.rd (F.SHOT_FLEN.LEN x)) (s.rd (F.SHOT_CSTART.START x)) (s.rd (F.SHOT_CHAN.GAUGE x)) (s.rd (F.SHOT_CHAN.PITCH x)) p

/-- The channel count the geometry gives: N_fit, or a smaller non-zero request (R27). -/
def State.fibreCount (s : State) (x : Nat) : Nat :=
  let req := s.rd (F.SHOT_NCH.COUNT x)
  if req ≠ 0 ∧ req < s.fibreFit x then req else s.fibreFit x

/-- Geometry codes 0x1 to 0x4 of R33 that a fibre's registers give; the fields were stored unchecked (R664). -/
def State.geometryCodes (s : State) (x : Nat) : List Nat :=
  let len := s.rd (F.SHOT_FLEN.LEN x)
  let ng := s.rd (F.SHOT_NG.NG x)
  let q := s.rd (F.SHOT_CHAN.PITCH x)
  let g := s.rd (F.SHOT_CHAN.GAUGE x)
  let st := s.rd (F.SHOT_CSTART.START x)
  let c3 : Bool := match pitchOf (s.rd (F.SHOT_CHAN.PP x)) with
    | none => true
    | some p => decide (q < 4 ∨ 100 < q ∨ g < 2 ∨ 200 < g ∨ q % p ≠ 0 ∨ g % p ≠ 0 ∨ st % p ≠ 0)
  (if len < 2000 ∨ 1000000 < len then [1] else []) ++ (if ng < 140000 ∨ 150000 < ng then [2] else []) ++
    (if c3 then [3] else []) ++ (if s.fibreFit x = 0 then [4] else [])

/-- p_last(c) of R26. -/
def State.pLast (s : State) (x c : Nat) : Nat :=
  s.rd (F.SHOT_CSTART.START x) + c * s.rd (F.SHOT_CHAN.PITCH x) + s.rd (F.SHOT_CHAN.PITCH x) -
    (pitchOf (s.rd (F.SHOT_CHAN.PP x))).getD 1 + s.rd (F.SHOT_CHAN.GAUGE x)

/-! ## Plans (R62–R76, R92, R192) -/

/-- The values of a fibre's plan. -/
structure PlanVals where
  nT : Nat
  freqs : List Nat
  w : Nat
  shape : Nat
  coded : Bool
  chips : Nat
  tr : Nat
  mode : Nat
  slot : Nat
  div : Nat
  tskew : Int
  twidth : Nat
deriving DecidableEq, Repr

/-- A fibre's plan in the live or the shadow plane (R62). -/
def State.plan (s : State) (live : Bool) (x : Nat) : PlanVals :=
  let r (f : Fld) : Nat := s.rd (planeFld live f)
  let nT := r (F.SHOT_TSET.NT x) + 1
  { nT := nT,
    freqs := [r (F.SHOT_TFREQ01.F0 x), r (F.SHOT_TFREQ01.F1 x), r (F.SHOT_TFREQ23.F2 x), r (F.SHOT_TFREQ23.F3 x)].take nT,
    w := r (F.SHOT_PULSE.WIDTH x), shape := r (F.SHOT_PULSE.SHAPE x), coded := r (F.SHOT_PULSE.CODE x) == 1,
    chips := r (F.SHOT_PULSE.CHIPS x) + 1, tr := r (F.SHOT_PERIOD.TR x), mode := r (F.SHOT_RAMAN.MODE x),
    slot := r (F.SHOT_RAMAN.SLOT x), div := (if r (F.SHOT_RAMAN.DIV x) = 0 then 256 else r (F.SHOT_RAMAN.DIV x)),
    tskew := sgn 8 (r (F.SHOT_TRIG.TSKEW x)), twidth := r (F.SHOT_TRIG.TWIDTH x) }

/-- Chips of a pulse: 1 of an uncoded one (R92). -/
def PlanVals.parts (p : PlanVals) : Nat := if p.coded then p.chips else 1

/-- The chip duration of a coded pulse, or the pulse width (R64, R92); whole in every plan that R92 accepts. -/
def PlanVals.wc (p : PlanVals) : Nat := p.w / p.parts

/-- T_min of R67 for a fibre length. -/
def State.tMin (s : State) (x lpts : Nat) (p : PlanVals) : Nat :=
  s.rd (F.SHOT_LRP.DELAY x) + p.w + lpts + s.rd (F.SHOT_GUARD.GUARD x)

/-- The automatic T_R of R68. -/
def autoTr (nT tmin : Nat) : Nat := max (ceilDiv tmin (nT * 1000) * (nT * 1000)) (nT * 5000)

/-- TR = 0, or a requested TR that R68 admits. -/
def trOk (nT tmin tr : Nat) : Bool :=
  decide (tr = 0) || decide (tr % nT = 0 ∧ tmin ≤ tr ∧ nT * 5000 ≤ tr ∧ tr ≤ 2000000)

/-- T_R of a plan (R68). -/
def State.trOf (s : State) (x : Nat) (p : PlanVals) : Nat :=
  if p.tr = 0 then autoTr p.nT (s.tMin x (s.rd (F.SHOT_FLEN.LEN x)) p) else p.tr

/-- T_R of a re-planned fibre with measured end `lm` (R81). -/
def State.trReplanned (s : State) (x lm : Nat) (p : PlanVals) : Nat :=
  let tmin := s.tMin x lm p
  if 2000000 < tmin then 2000000
  else if p.tr = 0 ∨ p.tr < tmin then autoTr p.nT tmin else p.tr

/-- All pairs of a list, the earlier first. -/
def pairs : List Nat → List (Nat × Nat)
  | [] => []
  | a :: t => t.map (fun b => (a, b)) ++ pairs t

def absDiff (a b : Nat) : Nat := (a - b) + (b - a)

/-- Bands of half-width 1,000 / W_c MHz about two tones overlap (R64): touching is accepted. -/
def bandsOverlap (fa wa fb wb : Nat) : Bool := decide (absDiff fa fb * wa * wb < 1000 * wb + 1000 * wa)

/-- The Raman fields break R74 or name MODE 0b11 (R88). -/
def State.ramanBad (s : State) (x lpts : Nat) (p : PlanVals) (tr : Nat) : Bool :=
  decide (p.mode = 3) || decide (p.nT ≤ p.slot) || (decide (p.mode ≠ 0) &&
    ((decide (p.mode = 2) && decide (tr % (2 * p.nT) ≠ 0)) ||
      decide (p.div * tr < 10000) ||
      decide (p.div * tr < s.rd (F.DTS_RLRP.DELAY x) + p.twidth + lpts + s.rd (F.SHOT_GUARD.GUARD x))))

/-- Codes of R88 that the rules of the scheduling chapter and R192 give a plan, with the T_R that it would have in force. The chip
duration W / N_c of R64 is kept exact, whole or not. -/
def State.planCodes (s : State) (x : Nat) (p : PlanVals) (tr : Nat) : List Nat :=
  let lpts := s.rd (F.SHOT_FLEN.LEN x)
  let nc := p.parts
  let pp := pitchOf (s.rd (F.SHOT_CHAN.PP x))
  let spacing := if p.nT = 4 then 100 else 80
  let chipBad := p.coded && decide (p.w % nc ≠ 0 ∨ p.w < 5 * nc)
  let pitchBad := match pp with
    | none => false
    | some q => decide (p.w % (nc * q) ≠ 0 ∨ 400 * p.w < 1000 * q * nc)
  (if p.freqs.any (fun f => decide (f < 40 ∨ 460 < f)) then [1] else []) ++
  (if (pairs p.freqs).any (fun q => decide (absDiff q.1 q.2 < spacing)) then [2] else []) ++
  (if p.freqs.any (fun f => decide (f * p.w < 1000 * nc ∨ 500 * p.w < f * p.w + 1000 * nc)) ||
      (pairs p.freqs).any (fun q => decide (absDiff q.1 q.2 * p.w < 2000 * nc)) then [3] else []) ++
  (if decide (p.w < 10 ∨ 1000 < p.w) || decide (p.shape = 3) || chipBad || pitchBad then [4] else []) ++
  (if trOk p.nT (s.tMin x lpts p) p.tr then [] else [5]) ++
  (if s.ramanBad x lpts p tr then [8] else []) ++
  (if p.twidth < 10 ∨ 1000 < p.twidth then [9] else [])

/-- The lowest of several codes, 0 for none (R38). (DEDUCED, assumption 16.) -/
def lowestCode : List Nat → Nat
  | [] => 0
  | a :: t => match lowestCode t with
    | 0 => a
    | b => min a b

/-- A tone-set change (R87): tone frequencies, N_T or T_R differ. -/
def toneSetChange (p q : PlanVals) (trP trQ : Nat) : Bool :=
  decide (p.freqs ≠ q.freqs) || decide (p.nT ≠ q.nT) || decide (trP ≠ trQ)

/-- Start of slot k in a round (R35, R81). Where T_R is no multiple of N_T, as in a sounding round, it is rounded down; so too under
a T_R that R81 caps at 2,000,000 ns, of which the spec does not say so. (DESIGN CHOICE, assumption 87.) -/
def slotStart (tB tr nT k : Nat) : Nat := tB + k * tr / nT

/-- t_min′ of R86 against launched slots: each new launch at least the old trace's length after an old launch whose band
overlaps. -/
def adoptAfter (old : List Slot) (freqs : List Nat) (wc tr nT : Nat) : Nat :=
  old.foldl (fun t sl => if sl.kind = .dark then t else
    (List.range nT).foldl (fun t k =>
      let f := freqs.getD k 0
      if bandsOverlap f wc sl.fMHz sl.wc then max t (sl.tL + sl.tmin - k * tr / nT) else t) t) 0

/-- Offset of the Raman launch instant in its round (R73). -/
def ramanOffset (p : PlanVals) (tr : Nat) : Int :=
  (if p.mode = 2 then ((2 * p.slot + 1) * tr / (2 * p.nT) : Nat) else (p.slot * tr / p.nT : Nat) : Int) + p.tskew

/-- t_min′ of R86 for the first new Raman trigger against the last old one. -/
def State.ramanAfter (s : State) (x lpts : Nat) (p : PlanVals) (tr round : Nat) (last : Option Nat) : Nat :=
  match last with
  | none => 0
  | some t =>
    if p.mode = 0 then 0
    else
      let wait := (p.div - round % p.div) % p.div
      let gap := s.rd (F.DTS_RLRP.DELAY x) + p.twidth + lpts + s.rd (F.SHOT_GUARD.GUARD x)
      ((t + gap : Nat) - ((wait * tr : Nat) : Int) - ramanOffset p tr).toNat

/-- Registers of the staged set (R62). -/
def stagedRegs (x : Nat) : List Nat :=
  [R.SHOT_TSET x, R.SHOT_TFREQ01 x, R.SHOT_TFREQ23 x, R.SHOT_PULSE x, R.SHOT_CODE_LO x, R.SHOT_CODE_HI x, R.SHOT_AMP01 x,
   R.SHOT_AMP23 x, R.SHOT_PERIOD x, R.SHOT_GATE x, R.SHOT_RAMAN x, R.SHOT_TRIG x, R.SHOT_SYNOFS x, R.SHOT_SYNTRIM x]

/-- The shadow set becomes the live plan; the live plan becomes the shadow set (R62, R85). -/
def State.shadowToLive (s : State) (x : Nat) : State := (stagedRegs x).foldl (fun t r => t.copyReg r (liveKey r)) s
def State.liveToShadow (s : State) (x : Nat) : State := (stagedRegs x).foldl (fun t r => t.copyReg (liveKey r) r) s

/-- A plan's tone amplitude A_k (R95). -/
def State.amp (s : State) (x k : Nat) : Nat :=
  s.rd (Fld.live (match k with
    | 0 => F.SHOT_AMP01.A0 x
    | 1 => F.SHOT_AMP01.A1 x
    | 2 => F.SHOT_AMP23.A2 x
    | _ => F.SHOT_AMP23.A3 x))

/-! ## The synthesizer's waveform (R90–R92) -/

/-- The envelope e(n) of R91 with 64 fraction bits, at t = n × 0.5 ns. -/
def envelope (shape roll w n : Nat) : Int :=
  match shape with
  | 1 =>
    -- τ = roll · w / 32 ns, t = n / 2 ns: t / τ = 16 n / (roll · w)
    let m := min n (2 * w - n)
    if roll * w ≤ 16 * m then fxOne else (fxOne - fxCosTurn (8 * m : Int) (roll * w)) / 2
  | 2 =>
    -- −(t − w/2)² / (2 (w/6)²) = −18 (n/2 − w/2)² / w² = −9 (n − w)² / (2 w²)
    let d : Int := (n : Int) - w
    fxExp (-(rndDiv (9 * d * d * fxOne) (2 * (w : Int) * w)))
  | _ => fxOne

/-- Chip polarity at synthesizer sample n (R92). -/
def polarity (p : Pulse) (n : Nat) : Int :=
  if p.coded then (if p.code / 2 ^ (n * p.chips / (2 * p.w)) % 2 = 1 then -1 else 1) else 1

/-- The pair of codes at synthesizer sample n of a pulse (R90). (DESIGN CHOICE, assumption 74.) -/
def synSample (p : Pulse) (n : Nat) : Int × Int :=
  if n < 2 * p.w then
    let m : Int := (p.fMHz * n % 2000 : Nat)
    let a := (p.amp : Int) * envelope p.shape p.roll p.w n * polarity p n
    let c := fxMul a (fxCosTurn m 2000)
    let q := fxMul a (fxSinTurn m 2000)
    (satI 12 (p.ofsI + rndDiv c fxOne),
     satI 12 (p.ofsQ + rndDiv (q * (2048 + p.qgain) + c * p.qphase) (fxOne * 2048)))
  else (p.ofsI, p.ofsQ)

/-- The synthesizer outputs of a fibre at an instant in SYN clocks of 0.5 ns, with the pulse it last launched: 0 V with the current
sources off while SHOT_SYNEN.EN is 0, which is `none` (R98), else the pulse's sample, or the offset codes between pulses (R90). -/
def State.synOut (s : State) (x : Nat) (pulse : Option Pulse) (t2 : Nat) : Option (Int × Int) :=
  if s.rd (F.SHOT_SYNEN.EN x) = 0 then none
  else
    let idle : Int × Int := (sgn 12 (s.rd (F.SHOT_SYNOFS.OFS_I x).live), sgn 12 (s.rd (F.SHOT_SYNOFS.OFS_Q x).live))
    match pulse with
    | some p => if 2 * p.tL ≤ t2 ∧ t2 < 2 * p.tL + 2 * p.w then some (synSample p (t2 - 2 * p.tL)) else some idle
    | none => some idle

end Sys2Proof.Machine
end

