-- ==== Sys2Proof/Machine/Framing.lean ====
section
/-!
DEFINITION. Frame sizes of the stream protocol (R481, R484) and the wire cost of a packet (R488).
-/
namespace Sys2Proof.Machine

/-- Round up to a multiple of 4. -/
def ceil4 (n : Nat) : Nat := (n + 3) / 4 * 4

/-- Bytes of a quality map: QMODE 1 FULL, 2 GROUP, else none (R481). -/
def qBytes (qmode spc count : Nat) : Nat :=
  match qmode with
  | 1 => spc * count
  | 2 => spc * ceilDiv count 16
  | _ => 0

/-- F of R481. -/
def frameSize (w qmode spc count : Nat) : Nat := 32 + ceil4 (w * spc * count) + ceil4 (qBytes qmode spc count)

/-- The largest COUNT from `n` downwards whose frame fits `lim`; 0 when even one channel does not. -/
def largestCount (w qmode spc lim : Nat) : Nat → Nat
  | 0 => 0
  | n + 1 => if frameSize w qmode spc (n + 1) ≤ lim then n + 1 else largestCount w qmode spc lim n

/-- The largest COUNT that fits, at most `count`; the search starts where the samples alone would fill the frame. -/
def fitCount (w qmode spc count lim : Nat) : Nat :=
  largestCount w qmode spc lim (min count ((lim - 32) / (w * spc + (if qmode = 1 then spc else 0)) + 1))

/-- The largest number of instants, from `n` downwards, whose single-channel frame fits. -/
def largestSpc (w qmode lim : Nat) : Nat → Nat
  | 0 => 1
  | n + 1 => if frameSize w qmode (n + 1) 1 ≤ lim then n + 1 else largestSpc w qmode lim n

/-- Channel ranges of the frames of one group: first channel and count. -/
def splitChannels (per : Nat) : Nat → Nat → Nat → List (Nat × Nat)
  | 0, _, _ => []
  | fuel + 1, first, left =>
    if left = 0 then []
    else if left ≤ per then [(first, left)]
    else (first, per) :: splitChannels per fuel (first + per) (left - per)

/-- A group's sub-groups of instants: one when a single channel's frame fits (R481). -/
def splitInstants (per : Nat) : Nat → Nat → Nat → List (Nat × Nat)
  | 0, _, _ => []
  | fuel + 1, first, left =>
    if left = 0 then []
    else if left ≤ per then [(first, left)]
    else (first, per) :: splitInstants per fuel (first + per) (left - per)

/-- The frames of a group of `spc` instants of `count` channels: first instant, instants, first channel, channels. -/
def groupFrames (w qmode spc count lim : Nat) : List (Nat × Nat × Nat × Nat) :=
  let subs :=
    if frameSize w qmode spc 1 ≤ lim then [(0, spc)] else splitInstants (largestSpc w qmode lim spc) spc 0 spc
  subs.flatMap (fun i =>
    (splitChannels (max 1 (fitCount w qmode i.2 count lim)) count 0 count).map (fun c => (i.1, i.2, c.1, c.2)))

/-- Sample width of a format (R478); 0 for byte formats. -/
def formatWidth (format : Nat) : Nat :=
  match format with
  | 1 => 3
  | 2 => 4
  | 3 => 4
  | 4 => 2
  | 5 => 2
  | _ => 0

/-- IP and UDP header bytes of a packet. -/
def ipUdp (v6 : Bool) : Nat := if v6 then 48 else 28

/-- Wire bytes beyond the IP packet: preamble, MAC, FCS and gap, with MACsec and a VLAN tag (R488). -/
def State.wireExtra (s : State) (port : Nat) : Nat :=
  38 + (if s.rd (F.NET_PCFG.MSEC port) = 0 then 0 else 32) + (if s.rd (F.NET_PVLAN.VLAN port) = 1 then 4 else 0)

end Sys2Proof.Machine
end

