-- ==== Sys2Proof/Machine/Flags.lean ====
section
/-!
DEFINITION. The lane's flag word FL and every flag computation of the lane instruction set (R284, R291).
-/
namespace Sys2Proof.Machine

/-- Flag bits of FL (R284). -/
def flZ : Nat := 1
def flN : Nat := 2
def flC : Nat := 4
def flV : Nat := 8
def flSAT : Nat := 16
def flEOR : Nat := 32

/-- A bit of FL, by its weight. -/
def flTest (fl b : Nat) : Bool := decide (fl / b % 2 = 1)

/-- FL with one bit set or cleared, by its weight. -/
def flPut (fl b : Nat) (v : Bool) : Nat := fl - (if flTest fl b then b else 0) + (if v then b else 0)

/-- Z and N of a result. -/
def flZN (fl : Nat) (r : Word) : Nat := flPut (flPut fl flZ (r == 0)) flN (decide (r.toInt < 0))

/-- Z, N and given C and V. -/
def flZNCV (fl : Nat) (r : Word) (c v : Bool) : Nat := flPut (flPut (flZN fl r) flC c) flV v

/-- SAT is sticky: set by a clip, never cleared by one. -/
def flSat (fl : Nat) (clip : Bool) : Nat := if clip then flPut fl flSAT true else fl

/-- Z, N, V and sticky SAT of a result through sat32. -/
def flSat32 (fl : Nat) (r : Word) (clip : Bool) : Nat := flSat (flPut (flZN fl r) flV clip) clip

/-- Carry and overflow of an addition. -/
def addCarry (a b : Word) : Bool := decide (2 ^ 32 ≤ a.toNat + b.toNat)
def addOver (a b : Word) : Bool := decide ((a + b).toInt ≠ a.toInt + b.toInt)

/-- Carry (no borrow) and overflow of a subtraction (R284). -/
def subCarry (a b : Word) : Bool := decide (b.toNat ≤ a.toNat)
def subOver (a b : Word) : Bool := decide ((a - b).toInt ≠ a.toInt - b.toInt)

/-- The last bit shifted out by a shift of `s` places, left when positive; open when none is (R291). -/
def shiftOut (v : Word) (s : Int) : Bool :=
  if s = 0 then Config.shiftZeroCarry v
  else if 0 < s then v.getLsbD (32 - s.toNat)
  else v.getLsbD ((-s).toNat - 1)

/-- The condition codes of R284. -/
def condHolds (cond fl : Nat) : Bool :=
  let z := flTest fl flZ; let n := flTest fl flN; let c := flTest fl flC; let v := flTest fl flV
  match cond with
  | 0x0 => true
  | 0x1 => z
  | 0x2 => !z
  | 0x3 => n != v
  | 0x4 => n == v
  | 0x5 => !z && n == v
  | 0x6 => z || n != v
  | 0x7 => c
  | 0x8 => !c
  | 0x9 => v
  | 0xA => !v
  | _ => flTest fl flEOR

end Sys2Proof.Machine
end

