-- ==== Sys2Proof/Machine/Operands.lean ====
section
/-!
DEFINITION. Lane operand forms: the encoding of R290, the pointers and modify codes of R281 and R282, memory operands,
and the arithmetic of R279 and R291 over operands and accumulators.
-/
namespace Sys2Proof.Machine

/-! ## Encoding (R290) -/

/-- An instruction word: opcode in bits 31:26. -/
def opWord (op rest : Nat) : Word := w32 (op * 2 ^ 26 + rest)

def encM (op : Nat) (f : FmtM) : Word :=
  opWord op (f.src * 2 ^ 25 + f.sb * 2 ^ 24 + f.acd * 2 ^ 22 + f.pa * 2 ^ 19 + f.ma * 2 ^ 17 + f.pb * 2 ^ 14 +
    f.mb * 2 ^ 12 + f.cp * 2 ^ 9 + f.mc * 2 ^ 7)

def encA (op : Nat) (f : FmtA) : Word :=
  opWord op (f.acd * 2 ^ 24 + f.acs * 2 ^ 22 + unsgn 6 f.sh * 2 ^ 16 + f.mem * 2 ^ 15 + f.pt * 2 ^ 12 + f.mod * 2 ^ 10 +
    f.d * 2 ^ 7 + f.mask)

def encL (op : Nat) (f : FmtL) : Word := opWord op (f.d * 2 ^ 23 + f.pt * 2 ^ 20 + f.mod * 2 ^ 18)

def encR (op : Nat) (f : FmtR) : Word :=
  opWord op (f.dd * 2 ^ 23 + f.da * 2 ^ 20 + f.db * 2 ^ 17 + f.i * 2 ^ 16 + unsgn 6 f.shi * 2 ^ 10)

def encI (op : Nat) (f : FmtI) : Word := opWord op (f.dd * 2 ^ 23 + f.da * 2 ^ 20 + unsgn 20 f.imm)

def encP (op : Nat) (f : FmtP) : Word := opWord op (f.reg * 2 ^ 22 + unsgn 14 f.imm)

def encS (op : Nat) (f : FmtS) : Word := opWord op (f.dir * 2 ^ 25 + f.d * 2 ^ 22 + f.sreg * 2 ^ 16)

def encB (op : Nat) (f : FmtB) : Word := opWord op (f.cond * 2 ^ 22 + f.tgt)

def encLP (op : Nat) (f : FmtLP) : Word :=
  opWord op (f.cs * 2 ^ 25 + (if f.cs = 0 then f.cnt * 2 ^ 12 else f.da * 2 ^ 22) + f.last)

def encT (op : Nat) (f : FmtT) : Word :=
  opWord op (f.port * 2 ^ 24 + f.memop * 2 ^ 23 + f.mem * 2 ^ 22 + f.pt * 2 ^ 19 + f.mod * 2 ^ 17 + f.d * 2 ^ 14)

/-! ## Arithmetic (R279, R291) -/

/-- The 24-bit multiplier operand of a word. -/
def opx (w : Word) : Int := w.toInt / 256

/-- The range of an accumulator, and whether a value lies in it. -/
def sat56 (v : Int) : Int := satI 56 v
def clips56 (v : Int) : Bool := decide (satI 56 v ≠ v)

/-- A word through sat32, and whether it clips. -/
def sat32 (v : Int) : Word := w32I (satI 32 v)
def clips32 (v : Int) : Bool := decide (satI 32 v ≠ v)

/-- `scl`: a left shift for a positive count, else a right shift to nearest with halves away from zero. (DEDUCED, assumption 66.) -/
def scl (v : Int) (s : Int) : Int := if 0 ≤ s then v * 2 ^ s.toNat else rndDiv v (2 ^ (-s).toNat)

/-! ## Registers and memories of a lane -/

def LaneCore.dreg (c : LaneCore) (n : Nat) : Word := wordAt c.d n
def LaneCore.setD (c : LaneCore) (n : Nat) (v : Word) : LaneCore := { c with d := setAt c.d n v }
def LaneCore.acc (c : LaneCore) (n : Nat) : Int := c.ac.getD n 0

/-- Residue mod 7 of a value (R295). -/
def res7 (v : Int) : Nat := (v % 7).toNat

/-- The residue that an accumulator carries (R295). -/
def LaneCore.accRes (c : LaneCore) (n : Nat) : Nat := c.res.getD n 0

/-- Write an accumulator, its residue taken from the value. -/
def LaneCore.setAcc (c : LaneCore) (n : Nat) (v : Int) : LaneCore := { c with ac := setAt c.ac n v, res := setAt c.res n (res7 v) }
def LaneCore.setFl (c : LaneCore) (v : Nat) : LaneCore := { c with fl := v }

/-- Assign an accumulator through sat56, with sticky SAT. -/
def LaneCore.satAcc (c : LaneCore) (n : Nat) (v : Int) : LaneCore :=
  (c.setAcc n (sat56 v)).setFl (flSat c.fl (clips56 v))

/-- Write a checked result `v` through sat56 (R295): the predicted residue `p` is compared with that of `v` before saturation, and
the accumulator then carries the prediction, or after a clip the residue of the saturated value. -/
def LaneCore.checked (c : LaneCore) (n : Nat) (v : Int) (p : Nat) : LaneCore :=
  let c1 := c.satAcc n v
  { c1 with res := if clips56 v then c1.res else setAt c1.res n p, err := c1.err || p != res7 v }

/-- The predicted residue of an accumulator plus a term of residue `t` (R295). -/
def LaneCore.predict (c : LaneCore) (n : Nat) (t : Int) : Nat := res7 ((c.accRes n : Int) + t)

/-- The predicted residue of a product, from its operands' (R295). -/
def resMul (a b : Int) : Nat := res7 ((res7 a : Int) * (res7 b : Int))

/-- The data word of X (0) or Y (1) memory at an address. -/
def LaneCore.mem (c : LaneCore) (m a : Nat) : Word :=
  mapGet (fun _ => (0 : Word)) (if m = 0 then c.x else c.y) (a % 8192)

def LaneCore.setMem (c : LaneCore) (m a : Nat) (v : Word) : LaneCore :=
  if m = 0 then { c with x := mapSet (fun _ => (0 : Word)) c.x (a % 8192) v }
  else { c with y := mapSet (fun _ => (0 : Word)) c.y (a % 8192) v }

def LaneCore.ptr (c : LaneCore) (n : Nat) : Nat := c.pt.getD n 0
def LaneCore.setPtr (c : LaneCore) (n v : Nat) : LaneCore := { c with pt := setAt c.pt n (v % 8192) }
def LaneCore.offs (c : LaneCore) (n : Nat) : Int := sgn 14 (c.off.getD n 0)
def LaneCore.setOffs (c : LaneCore) (n : Nat) (v : Int) : LaneCore := { c with off := setAt c.off n (unsgn 14 v) }

/-- BASE and LEN of a modulus register; LEN 0 acts as 8,192 (R283). -/
def mdBase (v : Nat) : Nat := v % 8192
def mdLen (v : Nat) : Nat := if v / 2 ^ 16 % 2 ^ 14 = 0 then 8192 else v / 2 ^ 16 % 2 ^ 14

/-- The 13 bits of an address in reverse order (R282). -/
def rev13 (v : Nat) : Nat := (List.range 13).foldl (fun acc i => acc + v / 2 ^ i % 2 * 2 ^ (12 - i)) 0

/-- The new pointer value from `p` and a modification of `m` words, `viaOf` when it is +OFn (R282). -/
def LaneCore.newPtr (c : LaneCore) (n : Nat) (m : Int) (viaOf : Bool) : Nat :=
  let p : Int := c.ptr n
  let circ (md : Nat) : Nat := (((mdBase md : Int) + (p + m - mdBase md) % (mdLen md : Int)) % 8192).toNat
  match c.ptcfg / 4 ^ n % 4 with
  | 0 => ((p + m) % 8192).toNat
  | 1 => circ (c.md.getD 0 0)
  | 2 => circ (c.md.getD 1 0)
  | _ => if viaOf then rev13 ((rev13 (c.ptr n) + rev13 (unsgn 13 m)) % 8192) else ((p + m) % 8192).toNat

/-- Post-modification by a modify code with an access unit (R281). -/
def LaneCore.postMod (c : LaneCore) (n code unit : Nat) : LaneCore :=
  match code with
  | 0 => c
  | 1 => c.setPtr n (c.newPtr n unit false)
  | 2 => c.setPtr n (c.newPtr n (c.offs n) true)
  | _ => c.setPtr n (c.newPtr n (-(unit : Int)) false)

/-- The word of coefficient memory at an address: the low 12 bits count (R281). -/
def coefAt (l : Logical) (a : Nat) : Word := wordAt l.cInit (a % 4096)

/-! ## Special registers (R283) -/

/-- Codes a program may name, and those it may write. -/
def sregOk (n : Nat) : Bool := decide (n ≤ 0x15 ∨ (0x18 ≤ n ∧ n ≤ 0x1F))
def sregWritable (n : Nat) : Bool := decide (n ≤ 0x12 ∨ n = 0x14)

/-- A special register as MOVS reads it; `ll` is the logical lane's number. -/
def LaneCore.sreg (c : LaneCore) (ll n : Nat) : Word :=
  if n < 8 then w32 (c.ptr n)
  else if n < 0x10 then w32I (c.offs (n - 8))
  else if n < 0x12 then w32 (c.md.getD (n - 0x10) 0)
  else if n = 0x12 then w32 c.ptcfg
  else if n = 0x13 then (match c.loops with | l :: _ => w32 l.left | [] => Config.noLoopCount)
  else if n = 0x14 then w32 c.fl
  else if n = 0x15 then w32 ll
  else wordAt c.k (n - 0x18)

/-- A special register written by MOVS. -/
def LaneCore.setSreg (c : LaneCore) (n : Nat) (v : Word) : LaneCore :=
  if n < 8 then c.setPtr n v.toNat
  else if n < 0x10 then { c with off := setAt c.off (n - 8) (v.toNat % 2 ^ 14) }
  else if n < 0x12 then
    { c with md := setAt c.md (n - 0x10) (wordField 0 13 v + wordField 16 14 v * 2 ^ 16) }
  else if n = 0x12 then { c with ptcfg := v.toNat % 2 ^ 16 }
  else if n = 0x14 then { c with fl := v.toNat % 64 }
  else c

end Sys2Proof.Machine
end

