-- ==== Sys2Proof/Machine/Units.lean ====
section
/-!
DEFINITION. Units and their failures (R558–R563): the fault a unit was fenced for, its failure count within FAILWIN, and
whether it is held fenced.
-/
namespace Sys2Proof.Machine

/-- Nanoseconds of an hour. -/
def hourNs : Nat := 3_600_000_000_000

/-- Failure instants of a unit that still count (R563). -/
def State.unitFails (s : State) (u : Nat) : List Nat :=
  (mapGet (fun _ => ([] : List Nat)) s.health.fails u).filter
    (fun t => decide (s.now < t + s.rd F.HLTH_CFG.FAILWIN * hourNs))

/-- A completed calibration awaits its write to the calibration store (R622). -/
def Flash.markCal (f : Flash) : Flash := if f.calDirty then f else { f with calDirty := true, jobs := f.jobs ++ [.cal] }

/-- A unit's last fault code (R581). -/
def State.unitFault (s : State) (u : Nat) : Nat := mapGet (fun _ => (0 : Nat)) s.health.faults u

def State.setUnitFault (s : State) (u v : Nat) : State :=
  (s.modHealth (fun q => { q with faults := mapSet (fun _ => (0 : Nat)) s.health.faults u v }))

def State.unitHeld (s : State) (u : Nat) : Bool := s.health.held.contains u

/-- Count a failure of a unit fenced from service with fault code `fault`; at the limit it is held (R563). -/
def State.countFail (s : State) (u fault : Nat) : State :=
  let l := s.now :: s.unitFails u
  let lim := s.rd F.HLTH_CFG.FAILLIM
  let s1 := (s.modHealth (fun q => { q with fails := mapSet (fun _ => ([] : List Nat)) s.health.fails u l }))
  let s2 := s1.setUnitFault u fault
  if 0 < lim ∧ lim ≤ l.length ∧ s.unitHeld u = false then
    ((s2.modHealth (fun q => { q with held := s2.health.held ++ [u] }))).event 0x1302 .fault u none 0 l.length 0 0
  else s2

/-- A passing test request clears a unit's failures (R563). -/
def State.clearFails (s : State) (u : Nat) : State :=
  { s with health := { s.health with
      fails := mapSet (fun _ => ([] : List Nat)) s.health.fails u [], held := s.health.held.filter (· ≠ u) } }

/-- HLTH_TSTAT: the result of a request (R579). -/
def State.testResult (s : State) (u res : Nat) (busy : Bool) : State :=
  s.wrs [(F.HLTH_TSTAT.RESULT, res), (F.HLTH_TSTAT.UNIT, u), (F.HLTH_TSTAT.BUSY, if busy then 1 else 0)]

/-- The test of unit `u` has ended: when it was requested, its result shows and the request is over (R570, R579). -/
def State.testDone (s : State) (u : Nat) (pass : Bool) : State :=
  let s1 := s.event 0x1303 (if pass then .info else .fault) u none 0 (if pass then 1 else 0) 0 0
  match s.health.test with
  | some t =>
    if t.unit = u then
      let s2 := s1.testResult u (if pass then 1 else 6) false
      let s3 := (s2.modHealth (fun q => { q with test := none }))
      if pass then s3.clearFails u else s3
    else s1
  | none => s1

end Sys2Proof.Machine
end

