-- ==== Sys2Proof/Machine/Lane.lean ====
section
/-!
DEFINITION. The machinery of the worker lanes: logical lanes and their physical windows, issue and loops (R293, R294),
traps (R297), initialisation (R299), checkpoints (R233), ports and release (R285–R289, R234).
-/
namespace Sys2Proof.Machine

/-! ## Logical lanes -/

def emptyPort : InPort := { pos := 0, unread := [], samples := 0 }
def emptyOut : OutPort := { words := [], h2 := 0, h3 := 0, tags := noTags, sent := 0, young := 0 }

/-- A lane's state at initialisation (R299), with given parameters and port places. -/
def initCore (x y k : List Word) (pos : List Nat) (sent : List Nat) : LaneCore :=
  let load (l : List Word) : List (Nat × Word) :=
    ((List.range l.length).foldl (fun m i => mapSet (fun _ => (0 : Word)) m i (wordAt l i)) [])
  { d := List.replicate 8 0, ac := [0, 0, 0, 0], pt := List.replicate 8 0, off := List.replicate 8 0, md := [0, 0],
    ptcfg := 0, fl := 0, pc := 0, stack := [], loops := [], x := load x, y := load y, k := k,
    ins := (List.range 4).map (fun i => { emptyPort with pos := pos.getD i 0 }),
    outs := (List.range 4).map (fun i => { emptyOut with sent := sent.getD i 0 }), seen := noTags, trap := 0,
    res := [0, 0, 0, 0], err := false }

/-- A logical lane that the image leaves empty (R276). -/
def emptyLogical : Logical :=
  { prog := [], xInit := [], yInit := [], cInit := [], inCfg := [], outCfg := [], outRates := [], inRates := [],
    kInit := List.replicate 8 0, core := initCore [] [] (List.replicate 8 0) [] [], cks := [],
    pendK := [], pendAt := 0, appliedK := [], released := [0, 0, 0, 0], clk := 0,
    clkPort := 0, busy := 0, loaded := [], macced := [], wait := false, unserved := none, lapsed := false, ckAt := 0, bumps := [],
    retired := 0 }

def State.logical (s : State) (ll : Nat) : Logical := mapGet (fun _ => emptyLogical) s.lanes.ll ll

def State.setLogical (s : State) (ll : Nat) (l : Logical) : State :=
  (s.modLanes (fun q => { q with ll := mapSet (fun _ => emptyLogical) s.lanes.ll ll l }))



/-- Lane roles of LANE_STAT.MODE (R304). -/
def laneOff : Nat := 0
def laneActive : Nat := 1
def laneSpare : Nat := 2
def laneShadow : Nat := 3
def laneRestore : Nat := 4
def laneTest : Nat := 5
def laneFenced : Nat := 6

def State.laneMode (s : State) (n : Nat) : Nat := s.rd (F.LANE_STAT.MODE n)

/-- The logical lane a physical lane serves (R304). -/
def State.laneLL (s : State) (n : Nat) : Nat := s.rd (F.LANE_STAT.LL n)

/-- The physical lane that serves a logical lane as active, if one does. -/
def State.servedBy (s : State) (ll : Nat) : Option Nat :=
  (List.range 33).find? (fun n => s.laneMode n == laneActive && s.laneLL n == ll)

/-- Unit code of a lane (R558). -/
def laneUnit (n : Nat) : Nat := 0x20 + n

/-- Port k's bobbin if it is bound. -/
def Logical.inBob (l : Logical) (k : Nat) : Option Nat :=
  let w := wordAt l.inCfg (4 * k)
  if wordField 31 1 w = 1 then some (wordField 16 7 w) else none

def Logical.outBob (l : Logical) (k : Nat) : Option Nat :=
  let w := wordAt l.outCfg k
  if wordField 31 1 w = 1 then some (wordField 0 7 w) else none

/-! ## The fibre that governs a lane (R233) -/

/-- The bobbin that a set of a fibre writes, if it writes one (R437). -/
def State.setBobbin (s : State) (x j : Nat) : Option Nat :=
  let f := match x, j with
    | 0, 0 => F.GND_SETBOB.DS0A
    | 0, _ => F.GND_SETBOB.DS1A
    | _, 0 => F.GND_SETBOB.DS0B
    | _, _ => F.GND_SETBOB.DS1B
  let v := s.rd f
  if v / 128 = 1 then some (v % 128) else none

/-- Bobbin b carries records that derive from shots of fibre x: a DAS set's, or the output of a lane so fed. A DTS period derives from
no shot (R320). -/
def State.bobFed (s : State) : Nat → Nat → Nat → Bool
  | 0, _, _ => false
  | n + 1, b, x =>
    s.setBobbin x 0 == some b || s.setBobbin x 1 == some b ||
      s.lanes.ll.any (fun p => (List.range 4).any (fun k => p.2.outBob k == some b) &&
        (List.range 4).any (fun k => match p.2.inBob k with
          | some b' => s.bobFed n b' x
          | none => false))

/-- The temperature solution's lane: it has ports and no program of the image (R322). -/
def Logical.solution (l : Logical) : Bool := l.prog.isEmpty && (l.inBob 0).isSome

/-- A logical lane that is not left empty. -/
def Logical.used (l : Logical) : Bool := !l.prog.isEmpty || l.solution

/-- Lane l is fed from fibre x. The temperature solution has no governing fibre (R322). -/
def State.fed (s : State) (l : Logical) (x : Nat) : Bool :=
  !l.solution && (List.range 4).any (fun k => match l.inBob k with | some b => s.bobFed 4 b x | none => false)

/-- The live T_R of a fibre: 0 while it is not acquiring (SHOT_TRPER.TR_ACT). -/
def State.liveTr (s : State) (x : Nat) : Nat := if s.rd (F.SHOT_STAT.STATE x) = 0 then 0 else s.rd (F.SHOT_TRPER.TR_ACT x)

/-- The governing fibre, 2 for none; of two, the one with the longer live T_R (R233). (DEDUCED, assumption 70.) -/
def State.governs (s : State) (l : Logical) : Nat :=
  match s.fed l 0, s.fed l 1 with
  | true, true => if s.liveTr 0 < s.liveTr 1 then 1 else 0
  | true, false => 0
  | false, true => 1
  | false, false => 2

/-! ## Takeover (R562–R565) -/

def State.modLogical (s : State) (ll : Nat) (f : Logical → Logical) : State := s.setLogical ll (f (s.logical ll))

/-- LANE_STAT.FAULT codes (R304). -/
def lfResid : Nat := 1
def lfEcc2 : Nat := 2
def lfHbeat : Nat := 3
def lfShadow : Nat := 4
def lfTestFail : Nat := 5

/-- No spare lane (R578). -/
def noSpare : Nat := 0x3F

def State.spareLane (s : State) : Nat := s.rd F.HLTH_LANE.SPARE

/-- The spare stops shadowing. -/
def shadowStop (s : State) : State :=
  let n := s.spareLane
  let s1 := (s.wr F.HLTH_LANE.SHADOW 0).modLanes (fun v => { v with swap := false })
  if n < 33 then s1.wr (F.LANE_STAT.MODE n) laneSpare else s1

/-- TAKE to the spare, or the logical lane is unserved (R564). -/
def takeLane (ll : Nat) (s : State) : State :=
  let n := s.spareLane
  if n < 33 then
    ((shadowStop s).wrs [(F.LANE_STAT.MODE n, laneRestore), (F.LANE_STAT.LL n, ll), (F.HLTH_LANE.SPARE, noSpare)]).modLanes
      (fun v => { v with takes := v.takes ++ [{ lane := n, ll := ll, at_ := s.now }] })
  else
    ((s.modLogical ll (fun l => { l with unserved := some s.now, lapsed := false })).wr F.HLTH_UNSRV.LL
      (s.rd F.HLTH_UNSRV.LL ||| 2 ^ ll)).event 0x0805 .fault noUnit none 0 ll 0 0

/-- Unreleased outputs of a logical lane are discarded (R235). -/
def discardUnreleased (ll : Nat) (s : State) : State :=
  s.mapBobs (·.filter (fun r => match r.lane with
    | some (l', _, _) => ¬ (l' = ll ∧ r.st = .spec)
    | none => true))

/-- Lane `n` leaves service for its built-in test: fenced, its ports cut, and what it was doing goes to the spare (R562, R564). -/
def fenceLane (n fault : Nat) (s : State) : State :=
  let mode := s.laneMode n
  let ll := s.laneLL n
  let s1 := (s.wrs [(F.LANE_STAT.MODE n, laneFenced), (F.LANE_STAT.FAULT n, fault)]).modLanes (fun v =>
    { v with tests := v.tests.filter (·.1 ≠ n) ++ [(n, s.now)], takes := v.takes.filter (fun t => t.lane ≠ n) })
  if mode = laneActive then takeLane ll (discardUnreleased ll s1)
  else if mode = laneRestore then takeLane ll s1
  else if s.spareLane = n then (s1.wrs [(F.HLTH_LANE.SPARE, noSpare), (F.HLTH_LANE.SHADOW, 0)]).modLanes (fun v => { v with swap := false })
  else s1

/-- A lane fault is declared (R564). A lane that is off, fenced or under test has nothing to declare. (DESIGN CHOICE, assumption 69.) -/
def laneFault (n code : Nat) (s : State) : State :=
  let mode := s.laneMode n
  if mode = laneOff ∨ mode = laneFenced ∨ mode = laneTest then s
  else fenceLane n code ((s.event 0x0801 .fault (laneUnit n) none 0 (s.laneLL n) code 0).countFail (laneUnit n) code)

/-- A residue check that failed declares RESID (R295). -/
def residueCheck (n : Nat) (err : Bool) (s : State) : State := if err then laneFault n lfResid s else s

/-! ## Issue (R291, R293, R294, R297) -/

/-- What an instruction uses, for its cycles and stalls: cycles, data registers read, accumulators touched by a stalling
instruction, data registers loaded, accumulators written by a multiply. -/
structure Use where
  cyc : Nat
  reads : List Nat
  accs : List Nat
  loads : List Nat
  macs : List Nat
deriving DecidableEq, Repr

/-- Count an instruction's clocks with its stalls (R293). -/
def account (u : Use) (extra : Nat) (l : Logical) : Logical :=
  let stall := (if u.reads.any l.loaded.contains then 1 else 0) + (if u.accs.any l.macced.contains then 1 else 0)
  let n := u.cyc + stall + extra
  { l with clk := l.clk + n, busy := l.busy + n, loaded := u.loads, macced := u.macs, wait := false }

/-- The address after the instruction at `pc`, closing the loops that end there; the clocks of a back-edge outside the
loop cache; and the loops left (R293, R294). -/
def afterLoops (pc : Nat) : List Loop → Nat × Nat × List Loop
  | [] => (pc + 1, 0, [])
  | l :: t =>
    if pc = l.last then
      if 1 < l.left then (l.first, if 32 < l.last + 1 - l.first then 2 else 0, { l with left := l.left - 1 } :: t)
      else afterLoops pc t
    else (pc + 1, 0, l :: t)

/-- Trap kinds of R297, as LANE_STAT.TRAP codes (R304). -/
def trapStack : Nat := 1
def trapNest : Nat := 2
def trapPcEnd : Nat := 3
def trapORec : Nat := 4

/-- Stop the logical lane with a trap: the health event carries the PC (R297). -/
def laneTrap (ll n kind pc : Nat) (s : State) : State :=
  let l := s.logical ll
  (s.setLogical ll { l with core := { l.core with trap := kind, pc := pc }, wait := false }).event
    0x0802 .fault (laneUnit n) none 0 pc 0 0

/-- Put a lane's core back with its next address; beyond the last loaded instruction it traps with PCEND (R297). -/
def putCore (ll n pc : Nat) (l : Logical) (c : LaneCore) (s : State) : State :=
  let s1 := s.setLogical ll { l with core := { c with pc := pc }, retired := s.now }
  if pc < l.prog.length then s1 else laneTrap ll n trapPcEnd pc s1

/-- Lane n may issue the word `w`: it serves a logical lane as ACTIVE, that lane has not trapped, and the word stands at
its PC. (DEDUCED, assumption 67.) -/
def laneReady (n : Nat) (w : Word) (s : State) : Bool :=
  let l := s.logical (s.laneLL n)
  s.laneMode n == laneActive && l.core.trap == 0 && decide (l.core.pc < l.prog.length) &&
    wordAt l.prog l.core.pc == w

/-- Issue an instruction that only transforms the lane's core and falls through. -/
def issue (n : Nat) (w : Word) (u : Use) (f : Logical → LaneCore → LaneCore) (s : State) :
    Host.Outcome State Fault Refusal :=
  if laneReady n w s then
    let ll := s.laneLL n
    let l := s.logical ll
    let (pc, extra, loops) := afterLoops l.core.pc l.core.loops
    let c := f l l.core
    done (residueCheck n c.err (putCore ll n pc (account u extra l) { c with loops := loops } s))
  else done s

/-- Issue an instruction with its own effect on the machine. -/
def issueWith (n : Nat) (w : Word) (f : Nat → Logical → State → State) (s : State) : Host.Outcome State Fault Refusal :=
  if laneReady n w s then
    let ll := s.laneLL n
    done (f ll (s.logical ll) s)
  else done s

/-- The end of an instruction that falls through, with the core it leaves. -/
def fallThrough (ll n : Nat) (u : Use) (l : Logical) (c : LaneCore) (s : State) : State :=
  let (pc, extra, loops) := afterLoops c.pc c.loops
  putCore ll n pc (account u extra l) { c with loops := loops } s

/-- The end of an instruction that sets the PC itself. -/
def jumpTo (ll n pc : Nat) (u : Use) (l : Logical) (c : LaneCore) (s : State) : State :=
  putCore ll n pc (account u 0 l) c s

/-- Loops left by a taken branch: a target outside an active loop's body ends that loop and those nested in it (R292).
Loops stand innermost first. -/
def leaveLoops (tgt : Nat) : List Loop → List Loop
  | [] => []
  | l :: t =>
    let t' := leaveLoops tgt t
    if t'.length < t.length then t'
    else if tgt < l.first ∨ l.last < tgt then t' else l :: t'

/-- The instruction waits: WAIT is set and nothing else moves (R288, R293). -/
def laneWait (ll : Nat) (l : Logical) (s : State) : State := s.setLogical ll { l with wait := true }

/-! ## Checkpoints and parameters (R233, R302) -/

/-- A core with given parameters put in. -/
def putK (ks : List (Nat × Word)) (c : LaneCore) : LaneCore := { c with k := ks.foldl (fun k p => setAt k p.1 p.2) c.k }

/-- Apply the parameters of checkpoint `round`: on a replay over it those that it applied before, and staged ones at least 4 µs after the
last write (R302). (DEDUCED, assumption 70.) -/
def applyK (now round : Nat) (l : Logical) : Logical :=
  let again := (l.appliedK.filter (·.1 == round)).flatMap (·.2)
  let l := { l with core := putK again l.core }
  if l.pendK.isEmpty ∨ now < l.pendAt + 4000 then l
  else
    let kept := l.appliedK.filter (·.1 != round)
    { l with pendK := [], core := putK l.pendK l.core,
             appliedK := (kept ++ [(round, again ++ l.pendK)]).drop (kept.length + 1 - 8) }

/-- Take a checkpoint named `round`: the newest eight are held, and staged parameters apply with it (R233, R302). (DEDUCED, assumption
70.) -/
def takeCk (now round : Nat) (l : Logical) : Logical :=
  let l := applyK now round l
  { l with cks := (l.cks ++ [(⟨round, l.core⟩ : LaneCk)]).drop (l.cks.length + 1 - 8), busy := l.busy + 64 }

/-- The lane is about to read a record with these tags: a checkpoint comes first when it is the first input of a round or
later of its governing fibre (R233). (DEDUCED, assumption 70.) -/
def ckDue (gov : Nat) (tags : Two Nat) (l : Logical) : Bool :=
  decide (gov < 2) && decide (l.core.seen.at gov < tags.at gov)

/-- Take checkpoint C(round) of the governing fibre; one of the same round held from before a rollback is the same state (R233). -/
def takeC (now round : Nat) (l : Logical) : Logical := takeCk now round { l with cks := l.cks.filter (·.round != round) }

/-- A planned swap at the target's checkpoint (R568): the spare continues from it as the active lane, with claims one above
the bobbins'; the former lane runs its test. -/
def plannedSwap (ll n : Nat) (s : State) : State :=
  let spare := s.rd F.HLTH_LANE.SPARE
  if s.lanes.swap = true ∧ s.rd F.HLTH_LANE.SHLL = ll ∧ spare < 33 then
    let l := s.logical ll
    let s1 := s.wrs [(F.LANE_STAT.MODE spare, laneActive), (F.LANE_STAT.LL spare, ll), (F.LANE_STAT.MODE n, laneTest),
      (F.HLTH_LANE.SPARE, 0x3F), (F.HLTH_LANE.SHADOW, 0)]
    ((s1.modLanes (fun q => { q with swap := false, tests := s1.lanes.tests ++ [(n, s.now)] }))).setLogical ll
      { l with bumps := [0, 1, 2, 3], retired := s.now }
  else s

/-! ## Ports (R285–R289) -/

/-- Bytes of quality words, as a list of codes. -/
def qualityCodes (ns : Nat) (q : List Word) : List Nat :=
  (List.range ns).map (fun j => wordField (8 * (j % 4)) 8 (wordAt q (j / 4)))

/-- Quality codes packed four to a word (R285). -/
def packQualityFuel : Nat → List Nat → List Word
  | 0, _ => []
  | n + 1, l =>
    if l.isEmpty then []
    else w32 (l.getD 0 0 + l.getD 1 0 * 2 ^ 8 + l.getD 2 0 * 2 ^ 16 + l.getD 3 0 * 2 ^ 24) :: packQualityFuel n (l.drop 4)

def packQuality (l : List Nat) : List Word := packQualityFuel l.length l

/-- Bit `b` of a quality code. -/
def qBit (q b : Nat) : Bool := decide (q / 2 ^ b % 2 = 1)

/-- The record as a port bound to a DAS set presents it: its window of channels (R286). -/
def windowed (first count : Nat) (r : Record) : Record :=
  if r.kind = 1 ∨ r.kind = 2 then
    let base := r.h1.toNat
    let skip := first - base
    let avail := r.ns - skip
    let n := if count = 0 then avail else min count avail
    let codes := (qualityCodes r.ns (r.payload.drop r.ns)).drop skip |>.take n
    { r with ns := n, h1 := w32 first, pic := codes.any (qBit · 6), bad := codes.any (qBit · 4),
             payload := ((r.payload.drop skip).take n) ++ packQuality codes }
  else r

/-- Header word H0 of a record (R285). -/
def headerWord (r : Record) : Word :=
  w32 (r.kind * 2 ^ 28 + r.fibre * 2 ^ 27 + (if r.pic then 2 ^ 26 else 0) + (if r.bad then 2 ^ 25 else 0) + r.ns)

/-- Sample words of a record: every payload word of KIND 0x1 to 0x3 before the quality words (R285, R287). -/
def sampleCount (r : Record) : Nat := if r.kind = 1 ∨ r.kind = 2 ∨ r.kind = 3 then r.ns else 0

/-- The next record a lane port may read: KIND 0x1 to 0x5 only (R285). -/
def laneNext (v : Bobbin) (pos : Nat) : Option Stored :=
  v.recs.find? (fun r => decide (pos ≤ r.idx) && decide (1 ≤ r.data.kind ∧ r.data.kind ≤ 5))

/-- The fibre and set whose records a bobbin takes (R437). -/
def State.bobSet (s : State) (b : Nat) : Option (Nat × Nat) :=
  [(0, 0), (0, 1), (1, 0), (1, 1)].find? (fun p => s.setBobbin p.1 p.2 == some b)

/-- Port k's window of channels (R286). -/
def Logical.winFirst (l : Logical) (k : Nat) : Nat := wordField 0 19 (wordAt l.inCfg (4 * k + 1))
def Logical.winCount (l : Logical) (k : Nat) : Nat := wordField 0 19 (wordAt l.inCfg (4 * k + 2))

/-- The samples of an output instant that lie in a window; a count of 0 takes all from its first channel (R308). -/
def inWindow (first count : Nat) (l : List SetSample) : List SetSample :=
  l.filter (fun p => decide (first ≤ p.chan ∧ (count = 0 ∨ p.chan < first + count)))

/-- A set of samples is readable 64 FAB clocks after the last left its chain (R286). -/
def setReady (now : Nat) (l : List SetSample) : Bool := l.all (fun p => decide (p.left + 160 ≤ now))

/-- The youngest shot of an output instant's samples: its round plus one (R256). -/
def Gather.born (g : Gather) : Nat := (g.samples.map (·.born)).foldl max 0

/-- The record of an output instant's samples (R255, R256, R285). -/
def setRecord (x j : Nat) (g : Gather) : Record :=
  let vals := g.samples.map (fun p => w32I p.value)
  let codes := g.samples.map (·.q)
  { kind := j + 1, fibre := x, pic := codes.any (qBit · 6), bad := codes.any (qBit · 4), ns := g.samples.length, h1 := 0,
    h2 := w32 (g.label / 65536), h3 := w32 (g.born - 1), payload := vals ++ packQuality codes, label := g.label / 65536,
    born := g.born }

/-- The record that waits for a port at `pos` before its set's record is complete: the window's channels have all left the chain
(R286). Output instants are counted on from the bobbin's next place. (DEDUCED, assumption 97.) -/
def State.earlyRecord (s : State) (x j b pos first count : Nat) : Option Stored :=
  let open_ := ((s.commit.at x).sets.at j).open_.filter (!·.written)
  let k := pos - (s.bob b).next
  match (open_.filter (fun g => (open_.filter (fun q => decide (q.instant < g.instant))).length = k)).head? with
  | none => none
  | some g =>
    let l := inWindow first count g.samples
    let nch := s.rd (F.SHOT_GSTAT.NCH_ACT x)
    let need := (if count = 0 then nch else min nch (first + count)) - first
    if 0 < need ∧ l.length = need ∧ setReady s.now l = true then
      let r := setRecord x j { g with samples := l }
      some { idx := max pos (s.bob b).next, data := { r with h1 := w32 first }, pages := 0, frames := [], st := .spec,
             tags := tagOf x (r.born - 1), lane := none, freed := 0, tb := 0 }
    else none

/-- The next record that port k of a lane may read from its bobbin at `pos`, as the port presents it (R285, R286). -/
def State.portNext (s : State) (l : Logical) (k b pos : Nat) : Option Stored :=
  let first := l.winFirst k
  let count := l.winCount k
  match laneNext (s.bob b) pos, s.bobSet b with
  | some st, some (x, j) =>
    let ready := match ((s.commit.at x).sets.at j).open_.find? (fun g => g.written && g.label / 65536 == st.data.label) with
      | some g => setReady s.now (inWindow first count g.samples)
      | none => true
    if ready then some { st with data := windowed first count st.data } else none
  | some st, none => some st
  | none, some (x, j) => s.earlyRecord x j b pos first count
  | none, none => none

/-- The clocks of the record just processed, against its port's declared budget (R301). -/
def overrunCheck (n : Nat) (l : Logical) (s : State) : State :=
  let s1 := if s.rd (F.LANE_CYCMAX.CYC n) < l.clk then s.wr (F.LANE_CYCMAX.CYC n) (satN 32 l.clk) else s
  if (wordAt l.inCfg (4 * l.clkPort + 3)).toNat < l.clk then
    (s1.wr (F.LANE_STAT.OVERRUN n) 1).event 0x0803 .warn (laneUnit n) none 0 l.clkPort l.clk 0
  else s1

/-- An output port once a record has been read: it keeps the label and round words of the youngest since its previous SEND (R289).
(DEDUCED, assumption 95.) -/
def OutPort.read (o : OutPort) (r : Record) (tg : Two Nat) : OutPort :=
  let tags : Two Nat := ⟨max o.tags.a tg.a, max o.tags.b tg.b⟩
  if o.young ≤ r.label + 1 then { o with h2 := r.h2, h3 := r.h3, young := r.label + 1, tags := tags } else { o with tags := tags }

/-- SHDR: the next readable record's header to four data registers (R288), after the checkpoint that it calls for. -/
def shdr (n : Nat) (f : FmtT) (ll : Nat) (l0 : Logical) (s : State) : State :=
  match l0.inBob f.port with
  | none => s
  | some b =>
    let pos := (l0.core.ins.getD f.port emptyPort).pos
    match s.portNext l0 f.port b pos with
    | none => laneWait ll l0 s
    | some st =>
      let gov := s.governs l0
      let tg := youngest st
      let l := if ckDue gov tg l0 then takeC s.now (tg.at gov - 1) l0 else l0
      let s := if 0 < l.clk then overrunCheck n l s else s
      let r := st.data
      let c := l.core
      let base := f.d / 4 * 4
      let c := (((c.setD base (headerWord r)).setD (base + 1) r.h1).setD (base + 2) r.h2).setD (base + 3) r.h3
      let seen : Two Nat := ⟨max c.seen.a tg.a, max c.seen.b tg.b⟩
      let c := { c with
        ins := setAt c.ins f.port { pos := st.idx + 1, unread := r.payload, samples := sampleCount r }, seen := seen,
        fl := flPut c.fl flEOR (r.payload.isEmpty || r.ns == 0), outs := c.outs.map (·.read r tg) }
      let l := { l with clk := 0, clkPort := f.port }
      let u : Use := { cyc := 1, reads := [], accs := [], loads := [base, base + 1, base + 2, base + 3], macs := [] }
      let s1 := (fallThrough ll n u l c s).readPages b (.lanePort ll f.port) pos (st.idx + 1)
      if ckDue gov tg l0 then plannedSwap ll n (s1.sweepBob b) else s1.sweepBob b

/-- The next payload word of a port, with the sample shift of R287; 0 past the end (R288). -/
def srdWord (l : Logical) (c : LaneCore) (port : Nat) : Word × Bool × LaneCore :=
  let p := c.ins.getD port emptyPort
  match p.unread with
  | [] => (0, false, { c with fl := flPut c.fl flEOR true })
  | w :: t =>
    let sh := wordField 24 5 (wordAt l.inCfg (4 * port))
    let v := if 0 < p.samples then w.toInt * 2 ^ sh else w.toInt
    let clip := clips32 v
    let fl := flSat (if t.isEmpty then flPut c.fl flEOR true else c.fl) clip
    (sat32 v, clip, { c with fl := fl, ins := setAt c.ins port { p with unread := t, samples := p.samples - 1 } })

/-- The Ground defers an output port: its DEFER bobbin has no page for the open record with `words` words (R293, R413). A record that
was released before a replay is not written again. -/
def State.defers (s : State) (l : Logical) (k words : Nat) : Bool :=
  match l.outBob k with
  | none => false
  | some b =>
    decide ((l.core.outs.getD k emptyOut).sent ≥ l.released.getD k 0) && s.rd (F.GND_BCFG.POLICY b) == 1 &&
      decide (s.rd (F.GND_BCFG.QUOTA b) < bobPages (s.bob b) + ceilDiv (16 + 4 * words) 4096)

/-- SWR: append a word to the open record (R289); beyond 16,380 words a trap OREC. It waits while the Ground defers the port (R293). -/
def swr (n : Nat) (f : FmtT) (ll : Nat) (l : Logical) (s : State) : State :=
  let c := l.core
  let o := c.outs.getD f.port emptyOut
  if 16380 ≤ o.words.length then laneTrap ll n trapORec c.pc s
  else if s.defers l f.port (o.words.length + 1) then laneWait ll l s
  else
    let w := if f.memop = 0 then c.dreg f.d else c.mem f.mem (c.ptr f.pt)
    let c1 := { c with outs := setAt c.outs f.port { o with words := o.words ++ [w] } }
    let c2 := if f.memop = 0 then c1 else c1.postMod f.pt f.mod 1
    fallThrough ll n { cyc := 1, reads := if f.memop = 0 then [f.d] else [], accs := [], loads := [], macs := [] } l c2 s

/-- Lane bytes written to a bobbin over 1 s, against the declared rate (R413, R439 OVRATE). -/
def outRate (b declared bytes : Nat) (s : State) : State :=
  let v := s.bob b
  let fresh := decide (v.rateFrom + 1_000_000_000 ≤ s.now)
  let total := (if fresh then 0 else v.rateBytes) + bytes
  let s1 := s.setBob b { v with rateBytes := total, rateFrom := if fresh then s.now else v.rateFrom }
  if declared < total then s1.wr (F.GND_BSTAT.OVRATE b) 1 else s1

/-- SEND: close the record and write its header (R289). The record stays speculative until its release (R234); one already
released is not written again. The record derives from everything that the program has read (R222). A DEFER bobbin without room makes
the lane wait. -/
def send (n : Nat) (f : FmtT) (ll : Nat) (l : Logical) (s : State) : State :=
  match l.outBob f.port with
  | none => s
  | some b =>
    let c := l.core
    let o := c.outs.getD f.port emptyOut
    let gov := s.governs l
    let r : Record := {
      kind := 4, fibre := if gov = 1 then 1 else 0, pic := false, bad := false, ns := o.words.length,
      h1 := w32 ((c.dreg f.d).toNat % 2 ^ 19), h2 := if o.young = 0 then Config.openHeader ll f.port o.sent 0 else o.h2,
      h3 := if o.young = 0 then Config.openHeader ll f.port o.sent 1 else o.h3, payload := o.words,
      label := if o.young = 0 then s.tbNs else o.young - 1, born := 0 }
    let have_ := s.rd (F.GND_BCLAIM.CLAIM b)
    let claim := if l.bumps.contains f.port then (have_ + 1) % 65536 else have_
    let (s1, ok) :=
      if o.sent < l.released.getD f.port 0 then (s, true)
      else s.gateWrite b claim (laneUnit n) r .spec c.seen (some (ll, f.port, o.sent))
    if ok then
      let o' : OutPort := { words := [], h2 := o.h2, h3 := o.h3, tags := noTags, sent := o.sent + 1, young := 0 }
      let c1 := { c with outs := setAt c.outs f.port o' }
      let l1 := { l with bumps := l.bumps.filter (· ≠ f.port) }
      outRate b (l.outRates.getD f.port 0) (recBytes r)
        (fallThrough ll n { cyc := 1, reads := [f.d], accs := [], loads := [], macs := [] } l1 c1 s1)
    else laneWait ll l s

/-! ## Release and rollback (R233–R235) -/

/-- A lane output may be released: its youngest round of every fibre it derives from is committed (R234). -/
def State.releasable (s : State) (r : Stored) : Bool :=
  fibres.all (fun x => decide (r.tags.at x.idx ≤ (s.cmt x).nextCommit))

/-- Release a logical lane's outputs whose conditions hold (R234). -/
def laneRelease (ll : Nat) (s : State) : State :=
  let l := s.logical ll
  let mine (r : Stored) : Bool := match r.lane with
    | some (l', _, _) => l' == ll && r.st == .spec && s.releasable r
    | none => false
  let freed := s.ground.bobs.flatMap (fun p => p.2.recs.filter mine)
  let rel := freed.foldl (fun acc r => match r.lane with
    | some (_, k, i) => setAt acc k (max (acc.getD k 0) (i + 1))
    | none => acc) l.released
  (s.mapBobs (·.map (fun r => if mine r then { r with st := .queued, freed := s.now, tb := s.tbNs } else r))).setLogical
    ll { l with released := rel }

/-- Discard a lane's unreleased outputs that its restored core has not yet sent. -/
def discardLane (ll : Nat) (c : LaneCore) (s : State) : State :=
  s.mapBobs (·.filter (fun r => match r.lane with
    | some (l', k, i) => ¬ (l' = ll ∧ r.st = .spec ∧ (c.outs.getD k emptyOut).sent ≤ i)
    | none => true))

/-- Return a logical lane to a checkpoint (R233): later checkpoints go, and its trap is cleared (R297). Parameters that a later checkpoint
of a lane without a governing fibre applied are staged again (R302). (DEDUCED, assumption 70.) -/
def restoreCk (ll : Nat) (ck : LaneCk) (s : State) : State :=
  let l := s.logical ll
  let cks := l.cks.filter (fun k => decide (k.core.seen.a ≤ ck.core.seen.a ∧ k.core.seen.b ≤ ck.core.seen.b))
  let free := decide (s.governs l = 2)
  let back := if free then l.appliedK.filter (fun p => !cks.any (·.round == p.1)) else []
  discardLane ll ck.core (s.setLogical ll { l with
    core := ck.core, cks := cks, wait := false, loaded := [], macced := [], clk := 0, busy := l.busy + 64, retired := s.now,
    pendK := back.flatMap (·.2) ++ l.pendK, appliedK := l.appliedK.filter (fun p => !back.any (·.1 == p.1)) })

/-- Rollback of fibre `x` to C(r): a lane that has read an input tagged r or later returns to its latest checkpoint taken
before the first such input (R233). -/
def laneRollback (x r ll : Nat) (s : State) : State :=
  let l := s.logical ll
  if l.core.seen.at x ≤ r then s
  else match l.cks.reverse.find? (fun k => decide (k.core.seen.at x ≤ r)) with
    | some ck => restoreCk ll ck s
    | none => s

/-- Initialise a logical lane (R299): K0–K7 come from the image only when the image is applied. -/
def laneInit (fromImage : Bool) (ll : Nat) (s : State) : State :=
  let l := s.logical ll
  let pos := (List.range 4).map (fun k => match l.inBob k with
    | some b => if fromImage then firstIdx (s.bob b) else (l.core.ins.getD k emptyPort).pos
    | none => 0)
  let sent := (List.range 4).map (fun k => l.released.getD k 0)
  let k := if fromImage then l.kInit else l.core.k
  let c := initCore l.xInit l.yInit k pos sent
  (discardLane ll c s).setLogical ll { l with core := c, cks := [], clk := 0, loaded := [], macced := [], wait := false,
                                              pendK := if fromImage then [] else l.pendK, appliedK := [], retired := s.now }

end Sys2Proof.Machine
end

