-- ==== Sys2Proof/Machine/Budget.lean ====
section
/-!
DEFINITION. The shared limits: channel-sample capacity (R37), lane utilisation (R300), the Ground's bandwidth budget
(R424–R426) and the network load (R488). Each is computed for a view, the plans and filter settings that would be in force.
-/
namespace Sys2Proof.Machine

/-- An acquiring fibre in a view: channels, tones and round period. -/
structure Acq where
  nch : Nat
  nT : Nat
  tr : Nat
deriving DecidableEq, Repr

/-- The plans of both fibres, the words of their DAS sets and the streams enabled. -/
structure View where
  acq : Two (Option Acq)
  sets : Two (Two Word)
  fsp : Nat
  extra : List Nat
deriving DecidableEq, Repr

/-- The view in force. -/
def State.liveView (s : State) : View :=
  let a (x : Nat) : Option Acq :=
    if s.rd (F.SHOT_STAT.STATE x) = 0 then none
    else some { nch := s.rd (F.SHOT_GSTAT.NCH_ACT x), nT := (s.plan true x).nT, tr := s.rd (F.SHOT_TRPER.TR_ACT x) }
  { acq := ⟨a 0, a 1⟩,
    sets := ⟨⟨s.reg (R.FLT_DSCFG 0 0), s.reg (R.FLT_DSCFG 0 1)⟩, ⟨s.reg (R.FLT_DSCFG 1 0), s.reg (R.FLT_DSCFG 1 1)⟩⟩,
    fsp := s.rd F.MEMC_STAT.LIVE, extra := [] }

/-- The view with another plan for one fibre. -/
def View.withAcq (v : View) (x : Nat) (a : Option Acq) : View := { v with acq := v.acq.upd x a }

/-- The view with another word for one DAS set. -/
def View.withSet (v : View) (x j : Nat) (w : Word) : View := { v with sets := v.sets.upd x ((v.sets.at x).upd j w) }

/-- f_eff in Hz (R36). -/
def Acq.feff (a : Acq) : Rat := if a.tr = 0 then 0 else (a.nT * 1_000_000_000 : Nat) / (a.tr : Rat)

/-- Channel-sample rate of a fibre. -/
def View.rho (v : View) (x : Nat) : Rat :=
  match v.acq.at x with
  | some a => a.nch * a.feff
  | none => 0

def View.feff (v : View) (x : Nat) : Rat := match v.acq.at x with | some a => a.feff | none => 0
def View.nch (v : View) (x : Nat) : Nat := match v.acq.at x with | some a => a.nch | none => 0

/-- EN, preset and ratio of a set configuration word (R267). -/
def dsEn (w : Word) : Bool := wordField 31 1 w == 1
def dsPreset (w : Word) : Nat := wordField 18 2 w
def dsRatio (w : Word) : Nat := wordField 0 18 w

/-- Output rate of a DAS set in Hz; 0 when it is off. -/
def View.setRate (v : View) (x j : Nat) : Rat :=
  let w := (v.sets.at x).at j
  if dsEn w = true ∧ dsRatio w ≠ 0 then v.feff x / dsRatio w else 0

/-! ## Conversion rates (R350–R352) -/

/-- Rate of a trigger code in Hz; code 0 gives none here. -/
def State.trigRate (s : State) (v : View) (code : Nat) : Rat :=
  let tr (x : Nat) : Rat := match v.acq.at x with
    | some a => if a.tr = 0 then 0 else 1_000_000_000 / (a.tr : Rat)
    | none => 0
  let raman (x : Nat) : Rat := let p := s.plan true x; if p.mode = 0 then 0 else tr x / p.div
  match code with
  | 2 => 20_000_000 / ((max 1 (s.rd F.HK_TIMER.PERIOD) : Nat) : Rat)
  | 3 => tr 0
  | 4 => tr 1
  | 5 => v.feff 0
  | 6 => v.feff 1
  | 7 => raman 0
  | 8 => raman 1
  | 9 => 1_000_000
  | _ => 0

/-- HK clocks of a regular or injected pass. -/
def State.passClocks (s : State) (regular : Bool) : Nat :=
  if regular then sumN ((List.range (s.rd F.HK_RCFG.LEN)).map (fun k => 1 + s.rd (F.HK_RSEQ.SMPX k)))
  else sumN ((List.range (s.rd F.HK_ICFG.LEN)).map (fun k => 1 + s.rd (F.HK_ISEQ.SMPX k)))

/-- Rate of regular or injected passes. -/
def State.passRate (s : State) (v : View) (regular : Bool) : Rat :=
  if regular then
    if s.rd F.HK_RCFG.LEN = 0 then 0
    else if s.rd F.HK_RCFG.SRC = 0 then 20_000_000 / (s.passClocks true : Rat) else s.trigRate v (s.rd F.HK_RCFG.SRC)
  else if s.rd F.HK_ICFG.LEN = 0 then 0 else s.trigRate v (s.rd F.HK_ICFG.SRC)

/-- Table entries in use and repetitions of an entry (R352, R370, R375). -/
def State.tableLen (s : State) : Nat := if s.rd F.HK_CTL.TLEN = 0 then 64 else s.rd F.HK_CTL.TLEN
def State.tableRep (s : State) (e : Nat) : Nat :=
  if s.rd (F.HK_TBL_DATA.REPEAT e) = 0 then 16 else s.rd (F.HK_TBL_DATA.REPEAT e)

/-- HK clocks of one run of the table. -/
def State.tableClocks (s : State) : Nat :=
  sumN ((List.range s.tableLen).map (fun e => s.tableRep e + s.rd (F.HK_TBL_DATA.DELAY e)))

/-- Conversions per second that meet a test on input and result slot. -/
def State.convRate (s : State) (v : View) (p : Nat → Nat → Bool) : Rat :=
  let inj := ((List.range (s.rd F.HK_ICFG.LEN)).filter (fun k => p (s.rd (F.HK_ISEQ.INPUT k)) (32 + k))).length
  let base : Rat :=
    if s.rd F.HK_CTL.MODE = 0 then
      ((List.range (s.rd F.HK_RCFG.LEN)).filter (fun k => p (s.rd (F.HK_RSEQ.INPUT k)) k)).length * s.passRate v true
    else
      (sumN (((List.range s.tableLen).filter (fun e => p (s.rd (F.HK_TBL_DATA.INPUT e)) (s.rd (F.HK_TBL_DATA.SLOT e)))).map
        s.tableRep) : Nat) * (20_000_000 / ((max 1 s.tableClocks : Nat) : Rat))
  base + inj * s.passRate v false

/-- Input rate of auxiliary chain Xk (R246): slot k's results, or sensor channel k − 40's outputs. -/
def State.auxInRate (s : State) (v : View) (k : Nat) : Rat :=
  if k < 40 then s.convRate v (fun _ slot => slot == k)
  else if s.rd (F.SEN_CFG.EN (k - 40)) = 1 then s.convRate v (fun inp _ => inp == k - 40) else 0

/-- Output rate of an auxiliary chain. -/
def State.auxRate (s : State) (v : View) (k : Nat) : Rat :=
  if s.rd (F.FLT_AUX_CFG.EN k) = 1 ∧ s.rd (F.FLT_AUX_CFG.RATIO k) ≠ 0 then
    s.auxInRate v k / s.rd (F.FLT_AUX_CFG.RATIO k) else 0

/-- Output records per second of all auxiliary chains. -/
def State.auxRates (s : State) (v : View) : Rat := ((List.range 48).map (s.auxRate v)).foldl (· + ·) 0

/-! ## DTS periods (R316, R320) -/

/-- Dual-ended mode (R328). -/
def State.dtsDual (s : State) : Bool := s.rd (F.DTS_CFG.DUAL 0) == 1

/-- The fibre whose registers govern a fibre's DTS (R328). -/
def State.dtsReg (s : State) (x : Nat) : Nat := if s.dtsDual then 0 else x

/-- DTS is enabled for a fibre. -/
def State.dtsOn (s : State) (x : Nat) : Bool := s.rd (F.DTS_CFG.EN (s.dtsReg x)) == 1

/-- NB_fit and the active count of a fibre's settings (R313). -/
def State.nbFit (s : State) (x : Nat) : Nat :=
  let g := s.dtsReg x
  let wb := s.rd (F.DTS_CFG.WB g)
  if wb = 0 then 0 else (s.rd (F.SHOT_FLEN.LEN g) - s.rd (F.DTS_START.START g)) / wb

def State.nbActive (s : State) (x : Nat) : Nat :=
  let n := s.rd (F.DTS_NBIN.COUNT (s.dtsReg x))
  if n ≠ 0 ∧ n < s.nbFit x then n else s.nbFit x

/-- Channels of a period record. -/
def State.dtsBins (s : State) (x : Nat) : Nat := s.rd (F.DTS_STAT.NBACT x)

/-- Nominal period in ns (R485): AVG × DIV × T_R. -/
def State.dtsPeriod (s : State) (v : View) (x : Nat) : Nat :=
  match v.acq.at x with
  | some a => 2 ^ s.rd (F.DTS_CFG.AVGEXP x) * (s.plan true x).div * a.tr
  | none => 0

/-- Period records per second of a fibre: a period of more than 16,384 bins takes several (R320). -/
def State.dtsRate (s : State) (v : View) (x : Nat) : Rat :=
  let t := s.dtsPeriod v x
  if t = 0 ∨ s.rd (F.DTS_CFG.EN x) = 0 then 0 else 1_000_000_000 / (t : Rat)

/-- Bytes of a fibre's period records together (R320, R321). -/
def State.dtsBytes (s : State) (x : Nat) : Nat :=
  let n := s.dtsBins x
  let records := ceilDiv n 16384
  records * 48 + 4 * n + 4 * ceilDiv n 4

/-! ## Bobbin write rates (R425) -/

/-- Bytes/s that a DAS set writes with its headers. -/
def View.setBytes (v : View) (x j : Nat) : Rat := (5 * v.nch x + 16 : Nat) * v.setRate x j

/-- Bytes/s written to a bobbin by its producer; a compressor's output counts at its input rate. -/
def State.bobRate (s : State) (v : View) : Nat → Nat → Rat
  | 0, _ => 0
  | fuel + 1, b =>
    let sets : List Rat := [(0, 0), (0, 1), (1, 0), (1, 1)].map (fun (p : Nat × Nat) =>
      if s.setBobbin p.1 p.2 = some b then v.setBytes p.1 p.2 else 0)
    let lanes : List Rat := s.lanes.ll.map (fun p =>
      (sumN ((List.range 4).map (fun k => if p.2.outBob k = some b then p.2.outRates.getD k 0 else 0)) : Nat))
    let dts : List Rat := [0, 1].map (fun x =>
      if s.rd (F.DTS_CFG.EN x) = 1 ∧ s.rd (F.DTS_BOB.RAW x) = b then s.dtsBytes x * s.dtsRate v x else 0)
    let comp : List Rat := [0, 1].map (fun n =>
      if s.rd (F.DFL_CFG.EN n) = 1 ∧ s.rd (F.DFL_CFG.OUTBOB n) = b then s.bobRate v fuel (s.rd (F.DFL_CFG.INBOB n)) else 0)
    let aux : Rat := if s.rd F.GND_AUXBOB.EN = 1 ∧ s.rd F.GND_AUXBOB.BOB = b then 24 * s.auxRates v else 0
    (sets ++ lanes ++ dts ++ comp).foldl (· + ·) aux

/-- Write rate of a bobbin. -/
def State.bobBytes (s : State) (v : View) (b : Nat) : Rat := s.bobRate v 4 b

/-- Bytes of a recall record of `ns` channels (R427). -/
def recallBytes (ns : Nat) : Nat := ceil4 (16 + 3 * ns + ceilDiv ns 16)

/-- The recall ring's source set, when it is enabled. -/
def State.recallSource (s : State) : Option (Nat × Nat) :=
  if s.rd F.GND_RCFG.EN = 1 then some (s.rd F.GND_RCFG.FIBRE, s.rd F.GND_RCFG.SET) else none

/-- D_w (R425). -/
def State.demandW (s : State) (v : View) : Rat :=
  let sets : List Rat := [(0, 0), (0, 1), (1, 0), (1, 1)].map (fun (p : Nat × Nat) =>
    if (s.setBobbin p.1 p.2).isSome then v.setBytes p.1 p.2 else 0)
  let rcl : Rat := match s.recallSource with
    | some (x, j) => recallBytes (v.nch x) * v.setRate x j
    | none => 0
  let lanes : Rat := (sumN (s.lanes.ll.map (fun p =>
    sumN ((List.range 4).map (fun k => if (p.2.outBob k).isSome then p.2.outRates.getD k 0 else 0)))) : Nat)
  let comp : List Rat := [0, 1].map (fun n =>
    if s.rd (F.DFL_CFG.EN n) = 1 then s.bobBytes v (s.rd (F.DFL_CFG.INBOB n)) else 0)
  (sets ++ comp).foldl (· + ·) (10 * (v.rho 0 + v.rho 1) + rcl + lanes)

/-- Window fraction of a lane port on a DAS set's bobbin; 1 elsewhere (R286, R425). -/
def State.portShare (s : State) (v : View) (l : Logical) (k b : Nat) : Rat :=
  match s.bobSet b with
  | none => 0
  | some (x, _) =>
    let n := v.nch x
    let first := wordField 0 19 (wordAt l.inCfg (4 * k + 1))
    let count := wordField 0 19 (wordAt l.inCfg (4 * k + 2))
    let avail := n - first
    let used := if count = 0 then avail else min count avail
    if n = 0 then 0 else (used : Rat) / n

/-- Alarm unit source slots: EN and bobbin (R386). -/
def State.alarmSlots (s : State) : List (Nat × Bool × Nat) :=
  [(0, s.rd F.LOOP_ZSRC.EN0 == 1, s.rd F.LOOP_ZSRC.BOB0), (1, s.rd F.LOOP_ZSRC.EN1 == 1, s.rd F.LOOP_ZSRC.BOB1),
   (2, s.rd F.LOOP_ZSRC.EN2 == 1, s.rd F.LOOP_ZSRC.BOB2), (3, s.rd F.LOOP_ZSRC.EN3 == 1, s.rd F.LOOP_ZSRC.BOB3)]

/-- Streams that a view counts: enabled ones, and those a pending write would enable. -/
def State.streamsOn (s : State) (v : View) : List Nat :=
  (s.net.dests.map (·.1)).filter (fun i => s.rd (F.NET_SCFG.EN i) == 1 || v.extra.contains i)

/-- D_r (R425). -/
def State.demandR (s : State) (v : View) : Rat :=
  let lanes : Rat := (s.lanes.ll.map (fun p => ((List.range 4).map (fun k =>
    match p.2.inBob k with
    | some b => s.portShare v p.2 k b * s.bobBytes v b
    | none => 0)).foldl (· + ·) (0 : Rat))).foldl (· + ·) 0
  let nets : Rat := ((s.streamsOn v).map (fun i => s.bobBytes v (s.rd (F.NET_SCFG.BOBBIN i)))).foldl (· + ·) 0
  let comps : Rat := ([0, 1].map (fun n =>
    if s.rd (F.DFL_CFG.EN n) = 1 then s.bobBytes v (s.rd (F.DFL_CFG.INBOB n)) else 0)).foldl (· + ·) 0
  let alarms : Rat := (s.alarmSlots.map (fun a => if a.2.1 then s.bobBytes v a.2.2 else 0)).foldl (· + ·) 0
  lanes + nets + comps + alarms + 1_000_000_000

/-- B_F at a set point (R424). -/
def bandwidth (fsp : Nat) : Nat :=
  match fsp with
  | 0 => 57_600_000_000
  | 1 => 43_200_000_000
  | _ => 21_600_000_000

/-- The condition of R426 a view fails: 1 the replay reserve, 2 the total; 0 for none. -/
def State.groundErr (s : State) (v : View) : Nat :=
  let w := s.demandW v
  if w + 40_000_000_000 > bandwidth v.fsp then 1
  else if w + s.demandR v > bandwidth v.fsp then 2
  else 0

/-- The input rate of compressor `n` exceeds 1.0 GB/s (R513). -/
def State.compOver (s : State) (v : View) (n : Nat) : Bool := decide (1_000_000_000 < s.bobBytes v (s.rd (F.DFL_CFG.INBOB n)))

/-- Enabled compressors whose input rate a view makes too high. -/
def State.compsOver (s : State) (v : View) : List Nat :=
  [0, 1].filter (fun n => s.rd (F.DFL_CFG.EN n) = 1 ∧ s.compOver v n = true)

/-- A view is within R426 and R513, which are refused on the same occasions with the same outcomes. -/
def State.groundFits (s : State) (v : View) : Bool := s.groundErr v == 0 && (s.compsOver v).isEmpty

/-- Show which of the two a view breaks (R435, R522). -/
def State.showGround (s : State) (v : View) : State :=
  let s1 := if s.groundErr v = 0 then s else s.wr F.GND_STAT.ERR (s.groundErr v)
  (s.compsOver v).foldl (fun (s : State) n => s.wr (F.DFL_STAT.ERR n) 1) s1

/-- A rate in hundredths of 10^9 units, rounded up and saturated to a field. -/
def hundredths (w : Nat) (r : Rat) : Nat := satN w (r / 10_000_000).ceil.toNat

/-! ## Lane utilisation (R300) -/

/-- Record rate of a lane input port (R300). -/
def State.portRate (s : State) (v : View) (l : Logical) (k b : Nat) : Rat :=
  match s.bobSet b with
  | some (x, j) => v.setRate x j
  | none =>
    if s.rd F.GND_AUXBOB.EN = 1 ∧ s.rd F.GND_AUXBOB.BOB = b then s.auxRates v
    else l.inRates.getD k 0 / (1000 : Rat)

/-- u of R300, as a fraction of 800 MHz; a fibre that does not acquire adds nothing. -/
def State.laneLoad (s : State) (v : View) (l : Logical) : Rat :=
  let ports : Rat := ((List.range 4).map (fun k =>
    match l.inBob k with
    | some b => (wordAt l.inCfg (4 * k + 3)).toNat * s.portRate v l k b
    | none => 0)).foldl (· + ·) 0
  let tr (x : Nat) : Nat := match v.acq.at x with | some a => a.tr | none => 0
  let gov := match s.fed l 0, s.fed l 1 with
    | true, true => if tr 0 < tr 1 then 1 else 0
    | true, false => 0
    | false, true => 1
    | false, false => 2
  let ck : Rat := if gov = 2 then 1000 else if tr gov = 0 then 0 else 1_000_000_000 / (tr gov : Rat)
  let sol : Rat := ([0, 1].map (fun x =>
    if l.inBob 0 = some (s.rd (F.DTS_BOB.RAW x)) ∧ s.dtsReg x = x then
      (wordAt l.inCfg 3).toNat * (ceilDiv (s.nbActive x) 16384 : Nat) * s.dtsRate v x else 0)).foldl (· + ·) 0
  if l.solution then (sol + 64_000) / 800_000_000
  else if l.prog.isEmpty then 0 else (ports + 64 * ck) / 800_000_000

/-- A lane charges fibre `x` with its load: it is fed from it, or is the solution of its DTS (R38, R322). -/
def State.charges (s : State) (l : Logical) (x : Nat) : Bool :=
  s.fed l x || (l.solution && [0, 1].any (fun k => l.inBob k == some (s.rd (F.DTS_BOB.RAW x))))

/-- A lane that meets `p` exceeds 2/3 in a view. -/
def State.laneOver (s : State) (v : View) (p : Logical → Bool) : Bool :=
  s.lanes.ll.any (fun l => p l.2 && decide (2 / 3 < s.laneLoad v l.2))

/-! ## Network load (R488) -/

/-- Wire bytes of a group's frames on a port. -/
def State.groupWire (s : State) (port : Nat) (v6 : Bool) (w qmode spc count : Nat) : Nat :=
  let lim := s.rd (F.NET_PCFG.MTU port) - ipUdp v6
  sumN ((groupFrames w qmode spc count lim).map (fun f => frameSize w qmode f.2.1 f.2.2.2 + ipUdp v6 + s.wireExtra port))

/-- Instants per group of a stream (R506). -/
def State.streamSpf (s : State) (i : Nat) : Nat :=
  if s.rd (F.NET_SCFG2.SPF i) = 0 then 256 else s.rd (F.NET_SCFG2.SPF i)

/-- A stream uses a port (R479). -/
def State.streamUses (s : State) (i port : Nat) : Bool :=
  match s.rd (F.NET_SCFG.PORTSEL i) with
  | 0 => port == 0
  | 1 => port == 1
  | _ => true

/-- Wire load of a stream on a port, in bytes/s. -/
def State.streamLoad (s : State) (v : View) (port i : Nat) : Rat :=
  match mapGet (fun _ => (none : Option Dest)) (s.net.dests.map (fun p => (p.1, some p.2))) i with
  | none => 0
  | some d =>
    let b := s.rd (F.NET_SCFG.BOBBIN i)
    let w := formatWidth (s.rd (F.NET_SCFG.FORMAT i))
    let q := s.rd (F.NET_SCFG.QMODE i)
    let spf := s.streamSpf i
    let desc : Nat := 84 + ipUdp d.v6 + s.wireExtra port
    let data : Rat :=
      if w = 0 then
        let room : Nat := s.rd (F.NET_PCFG.MTU port) - ipUdp d.v6 - 32
        d.rate + d.rate / ((max 1 room : Nat) : Rat) * ((32 + ipUdp d.v6 + s.wireExtra port : Nat) : Rat)
      else match s.bobSet b with
        | some (x, j) => v.setRate x j / spf * s.groupWire port d.v6 w q spf (v.nch x)
        | none =>
          if s.rd (F.NET_SCFG.FORMAT i) = 4 then s.auxRates v / spf * s.groupWire port d.v6 w q spf 1
          else (([0, 1].filter (fun x => s.rd (F.DTS_BOB.OUT x) = b)).map (fun x =>
            s.dtsRate v x * s.groupWire port d.v6 w q 1 (s.dtsBins x))).foldl (· + ·) 0
    data + desc

/-- Load of a port in bit/s. -/
def State.portLoad (s : State) (v : View) (port : Nat) : Rat :=
  8 * ((s.streamsOn v).map (fun i => if s.streamUses i port then s.streamLoad v port i else 0)).foldl (· + ·) 0

/-- 95 % of a port's rate, in bit/s. -/
def State.portLimit (s : State) (port : Nat) : Nat :=
  if s.rd (F.NET_PCFG.SPEED port) = 1 then 9_500_000_000 else 23_750_000_000

/-- The port a view overloads: 1 NET0, 2 NET1, 0 none (R505). -/
def State.netErr (s : State) (v : View) : Nat :=
  if s.portLoad v 0 > s.portLimit 0 then 1
  else if s.portLoad v 1 > s.portLimit 1 then 2
  else 0

/-- Show the budgets of the configuration in force (R438, R505). -/
def State.showBudgets (s : State) : State :=
  let v := s.liveView
  let w := s.demandW v
  s.wrs [(F.GND_BUDGET.DW, hundredths 16 w), (F.GND_BUDGET.DT, hundredths 16 (w + s.demandR v)),
    (F.NET_BUDGET.LOAD0, hundredths 14 (s.portLoad v 0)), (F.NET_BUDGET.LOAD1, hundredths 14 (s.portLoad v 1))]

/-! ## Capacity (R37) -/

/-- More DAS channels than 262,144 over both fibres. -/
def View.channelsOver (v : View) : Bool := decide (262144 < v.nch 0 + v.nch 1)

/-- More than 10^9 channel-samples/s over both fibres. -/
def View.samplesOver (v : View) : Bool := decide ((1_000_000_000 : Rat) < v.rho 0 + v.rho 1)

/-- Fibre `x` above 200 kHz effective shot rate. -/
def View.rateOver (v : View) (x : Nat) : Bool :=
  match v.acq.at x with
  | some a => decide (a.tr < a.nT * 5000)
  | none => false

end Sys2Proof.Machine
end

