-- ==== Sys2Proof/Machine/Filter.lean ====
section
/-!
DEFINITION. The filter bank (R246–R275): presets, the CIC and FIR arithmetic, the picot path and the channel manager, for
one chain input at a time; the auxiliary chains.
-/
namespace Sys2Proof.Machine

/-! ## Presets (R251) -/

/-- K, D2 and T of a preset. -/
def presetK (p : Nat) : Nat := match p with | 0 => 2 | 1 => 3 | 2 => 4 | _ => 5
def presetD (p : Nat) : Nat := match p with | 0 => 1 | 1 => 2 | 2 => 2 | _ => 4
def presetT (p : Nat) : Nat := match p with | 0 => 0 | 1 => 31 | 2 => 63 | _ => 127

/-- M1 of a preset and ratio. -/
def presetM (p n : Nat) : Nat := n / presetD p

/-- The ratio is allowed for its preset (R251, R253). -/
def ratioOk (p n : Nat) : Bool :=
  match p with
  | 0 => decide (1 ≤ n ∧ n ≤ 65536)
  | 1 => decide (2 ≤ n ∧ n ≤ 131072 ∧ n % 2 = 0)
  | 2 => decide (2 ≤ n ∧ n ≤ 131072 ∧ n % 2 = 0)
  | _ => decide (4 ≤ n ∧ n ≤ 131072 ∧ n % 4 = 0)

/-- The word of a set or auxiliary configuration is allowed: its ratio suits its preset. -/
def cfgOk (w : Word) : Bool := ratioOk (dsPreset w) (dsRatio w)

/-- 2·GD in input samples: K (M1 − 1) + (T − 1) M1 (R251). -/
def groupDelay2 (p n : Nat) : Nat := presetK p * (presetM p n - 1) + (presetT p - 1) * presetM p n

/-- S in input samples: K M1 + T M1. -/
def settling (p n : Nat) : Nat := (presetK p + presetT p) * presetM p n

/-- Taps of a preset below its centre: the configured ones where they leave the centre tap, 2^19 less twice their sum, a 20-bit number
as the rule asks (R249); any others would break it, and a pair of quarters about the centre stands for them. (DESIGN CHOICE,
assumption 23.) -/
def firSide (p half j : Nat) : Int :=
  let raw (i : Nat) : Int := sgn 20 (Config.firHalf p i).val
  let centre : Int := 524288 - 2 * (List.range half).foldl (fun a i => a + raw i) 0
  if -524288 ≤ centre ∧ centre < 524288 then raw j else if j + 1 = half then 131072 else 0

/-- Coefficient h_j: symmetric, and summing to exactly 2^19 (R249). (DESIGN CHOICE, assumption 23.) -/
def firCoef (p j : Nat) : Int :=
  let t := presetT p
  let half := (t - 1) / 2
  if t ≤ j then 0
  else if j < half then firSide p half j
  else if half < j then firSide p half (t - 1 - j)
  else 524288 - 2 * (List.range half).foldl (fun a i => a + firSide p half i) 0

/-- Smallest whole number whose power of two is at least `n`. -/
def ceilLog2 (n : Nat) : Nat := if n ≤ 1 then 0 else Nat.log2 (n - 1) + 1

/-- round(2^(24 + s) / M1^K). -/
def normC (k m s : Nat) : Nat := (rndDiv ((2 ^ (24 + s) : Nat) : Int) ((m ^ k : Nat) : Int)).toNat

/-- The smallest s from `s` upwards with a 25-bit constant (R249). -/
def normShift (k m : Nat) : Nat → Nat → Nat
  | 0, s => s
  | fuel + 1, s => if 2 ^ 24 ≤ normC k m s then s else normShift k m fuel (s + 1)

/-- Normalise a comb output: 16 fraction bits below the input LSB. -/
def normalise (p n : Nat) (v : Int) : Int :=
  let k := presetK p
  let m := presetM p n
  let s := normShift k m 100 0
  rndDiv (v * normC k m s) (2 ^ (8 + s))

/-! ## One chain input (R249, R254–R264) -/

/-- A chain's setting: preset, ratio, RATE mode, input and output widths, the nominal input interval in 2^-16 ns, and for a
DAS chain N_T, by which it detects bursts. -/
structure ChainCfg where
  preset : Nat
  n : Nat
  rate : Bool
  bIn : Nat
  bOut : Nat
  interval : Nat
  nT : Option Nat
deriving DecidableEq, Repr

/-- An output of a chain at an output instant. -/
structure ChainOut where
  value : Int
  q : Nat
  label : Nat
  settled : Bool
deriving DecidableEq, Repr

/-- A chain cleared and SETTLING (R254, R259). -/
def clearedChain (k : Nat) : ChainCore :=
  { integ := List.replicate k 0, comb := List.replicate k 0, fir := [], i := 0, ts := [], ts1 := 0, settled := false,
    count := 0, waitGood := false, erun := 0, pic := [], lastQ := List.replicate 8 0 }

/-- A restart that does not clear: the count and the picot path start again (R259, R261). -/
def restartChain (c : ChainCore) : ChainCore := { c with settled := false, count := 0, pic := [] }

/-- The integrators take an input: the new stages and the last one's value, modulo their width. -/
def integrate (w : Nat) (x : Int) : List Int → List Int × Int
  | [] => ([], x)
  | a :: t =>
    let v := wrapI w (a + x)
    let (l, y) := integrate w v t
    (v :: l, y)

/-- The combs take a value: the new delays and the last difference. -/
def combs (w : Nat) (x : Int) : List Int → List Int × Int
  | [] => ([], x)
  | a :: t =>
    let (l, y) := combs w (wrapI w (x - a)) t
    (x :: l, y)

/-- Σ h_j x_j over the FIR's history, newest first. -/
def firSum (p : Nat) (h : List Int) : Int := (List.range (presetT p)).foldl (fun a j => a + firCoef p j * h.getD j 0) 0

/-- Timestamp of the input `back` places before the newest, by the nominal interval before input 1 (R255). -/
def tsBack (interval : Nat) (c : ChainCore) (back : Nat) : Int :=
  if back < c.i then c.ts.getD back 0 else c.ts1 - (back + 1 - c.i : Nat) * (interval : Int)

/-- The label of a settled output: the mean of two timestamps, rounded up in the last fraction bit, in the timebase's 64 bits and 16
fraction bits (R255). -/
def settledLabel (cfg : ChainCfg) (c : ChainCore) : Nat :=
  let g := groupDelay2 cfg.preset cfg.n
  (((tsBack cfg.interval c (g / 2) + tsBack cfg.interval c ((g + 1) / 2) + 1) / 2) % 2 ^ 80).toNat

/-- A bit of a quality code, weighted. -/
def qPart (q b : Nat) : Nat := q / 2 ^ b % 2 * 2 ^ b

/-- Quality bits that an input contributes: CLIP, SPLICE, FADE, ERASED, SUBST and CAL, with PICOT as ERASED (R257). -/
def contributed (q : Nat) : Nat :=
  qPart q 1 + qPart q 2 + qPart q 3 + (if qBit q 4 || qBit q 6 then 16 else 0) + qPart q 5 + qPart q 7

/-- Bitwise OR of codes. -/
def orCodes (l : List Nat) : Nat := l.foldl (· ||| ·) 0

/-- Quality of a settled output over the S most recent inputs. -/
def settledQ (s : Nat) (c : ChainCore) : Nat :=
  let v := (List.range 8).foldl (fun a b =>
    let last := c.lastQ.getD b 0
    if 0 < last ∧ c.i < last + s then a + 2 ^ b else a) 0
  if qBit v 4 then v else v + 1

/-- Quality of a picot output over the inputs that form it. -/
def picotQ (c : ChainCore) : Nat := orCodes (c.pic.map (fun p => contributed p.2.2)) ||| 64

/-- The picot value: N times (RATE) or once (LEVEL) the mean of its inputs (R258). -/
def picotValue (cfg : ChainCfg) (c : ChainCore) : Int :=
  if c.pic.isEmpty then 0
  else
    let sum : Int := c.pic.foldl (fun a p => a + p.1) 0
    satI cfg.bOut (rndDiv (sum * (if cfg.rate then (cfg.n : Int) else 1)) (c.pic.length : Int))

/-- The mean of the newest and oldest timestamps of the picot window (R258). -/
def picotLabel (c : ChainCore) : Nat :=
  match c.pic, c.pic.getLast? with
  | a :: _, some z => (a.2.1 + z.2.1 + 1) / 2
  | _, _ => 0

/-- What one input does besides an output. -/
structure ChainStep where
  core : ChainCore
  out : Option ChainOut
  burst : Bool
deriving DecidableEq, Repr

/-- One input through the filter arithmetic: integrators, and at CIC and output instants combs and FIR. -/
def filterArith (cfg : ChainCfg) (x : Int) (c : ChainCore) : ChainCore × Int :=
  let k := presetK cfg.preset
  let m := presetM cfg.preset cfg.n
  let w := cfg.bIn + k * ceilLog2 m
  let (integ, y) := integrate w x c.integ
  let c1 := { c with integ := integ }
  if m = 0 then (c1, 0)
  else if c.i % m = 0 then
    let (cb, d) := combs w y c1.comb
    let v := normalise cfg.preset cfg.n d
    let c2 := { c1 with comb := cb, fir := (v :: c1.fir).take (max 1 (presetT cfg.preset)) }
    let mul : Int := if cfg.rate then (cfg.n : Int) else 1
    if cfg.preset = 0 then (c2, satI cfg.bOut (rndDiv (v * mul) 65536))
    else (c2, satI cfg.bOut (rndDiv (firSum cfg.preset c2.fir * mul) (2 ^ 35)))
  else (c1, 0)

/-- One input of a chain: value, timestamp in 2^-16 ns and quality code (R254–R264). -/
def chainInput (cfg : ChainCfg) (x : Int) (ts q : Nat) (c : ChainCore) : ChainStep :=
  let i := c.i + 1
  let erased := qBit q 4 || qBit q 6
  let erun := if erased then c.erun + 1 else 0
  let burst := match cfg.nT with
    | some nT => decide (erun = 4 * nT + 1)
    | none => false
  let waiting := (c.waitGood || burst) && erased
  let settled := c.settled && !burst
  let fresh := c.waitGood && !erased
  let count := if waiting then 0 else if fresh then 1 else if burst then 0 else c.count + 1
  let pic := (x, ts, q) :: (if fresh then [] else c.pic.take (cfg.n - 1))
  let bits := contributed q
  let c1 := { c with
    i := i, ts := (ts :: c.ts).take ((groupDelay2 cfg.preset cfg.n + 1) / 2 + 1), ts1 := if i = 1 then ts else c.ts1,
    settled := settled, count := count, waitGood := waiting, erun := erun, pic := pic,
    lastQ := (List.range 8).map (fun b => if qBit bits b then i else c.lastQ.getD b 0) }
  let (c2, v) := filterArith cfg x c1
  if cfg.n ≠ 0 ∧ i % cfg.n = 0 then
    let s := settling cfg.preset cfg.n
    let now := c2.settled || (decide (s ≤ c2.count) && !waiting)
    let c3 := { c2 with settled := now }
    let out : ChainOut :=
      if now then { value := v, q := settledQ s c3, label := settledLabel cfg c3, settled := true }
      else { value := picotValue cfg c3, q := picotQ c3, label := settledLabel cfg c3, settled := false }
    { core := c3, out := some out, burst := burst }
  else { core := c2, out := none, burst := burst }

/-! ## Group delay registers (R268, R269, R273) -/

/-- GD × T_R/N_T in µs, rounded and saturated (R269). -/
def gdUs (gd2 nT tr : Nat) : Nat := if nT = 0 then 0 else satN 32 (rndDiv ((gd2 * tr : Nat) : Int) ((2000 * nT : Nat) : Int)).toNat

/-- Show a set's group delay under the live plan. -/
def State.showDelay (s : State) (x j : Nat) : State :=
  let w := ((s.commit.at x).sets.at j).cfg
  let g := groupDelay2 (dsPreset w) (dsRatio w)
  s.wrs [(F.FLT_DSGDLY.GDLY x j, g),
    (F.FLT_DSGDUS.GDUS x j, if s.rd (F.SHOT_STAT.STATE x) = 0 then 0
      else gdUs g (s.sched.at x).nT (s.sched.at x).tr)]

/-! ## Auxiliary chains (R246, R256, R262, R266) -/

/-- An auxiliary chain that has never run. -/
def offAux : AuxChain := { core := clearedChain 2, cfg := 1, pend := none }

def State.auxChain (s : State) (k : Nat) : AuxChain := mapGet (fun _ => offAux) s.aux k
def State.setAux (s : State) (k : Nat) (v : AuxChain) : State := { s with aux := mapSet (fun _ => offAux) s.aux k v }

/-- Nominal input interval of an auxiliary chain in 2^-16 ns; 0 where its slot has no regular rate. -/
def State.auxInterval (s : State) (k : Nat) : Nat :=
  let r := s.auxInRate s.liveView k
  if r = 0 then 0 else (rndRat (1_000_000_000 * 65536 / r)).toNat

def State.auxCfg (s : State) (k : Nat) (w : Word) : ChainCfg :=
  { preset := dsPreset w, n := dsRatio w, rate := false, bIn := 16, bOut := 16, interval := s.auxInterval k, nT := none }

/-- Show a chain's state and count (R274). -/
def State.showAux (s : State) (k : Nat) : State :=
  let a := s.auxChain k
  s.wrs [(F.FLT_AUX_STAT.STATE k, if dsEn a.cfg then (if a.core.settled then 2 else 1) else 0),
    (F.FLT_AUX_STAT.SCNT k, satN 23 a.core.count)]

/-- A new configuration of a chain: an ENABLE restart (R259, R262, R266). -/
def auxConfigure (k : Nat) (w : Word) (s : State) : State :=
  let s1 := s.setAux k { core := clearedChain (presetK (dsPreset w)), cfg := w, pend := none }
  (s1.wrs [(F.FLT_AUX_STAT.LASTRST k, 1), (F.FLT_AUX_STAT.STALE k, 1), (F.FLT_AUX_VAL.HOLD k, 0),
    (F.FLT_AUX_GDLY.GDLY k, groupDelay2 (dsPreset w) (dsRatio w))]).showAux k

/-- FLT_AUX_CFG of chain `k` (R266): checked at once, in force at the chain's next input. -/
def auxCfgWrite (k : Nat) (w : Word) (s : State) : State :=
  if 47 < k then s.answer .ok
  else if cfgOk w then
    let s1 := s.wrs [(F.FLT_AUX_CFG.EN k, wordField 31 1 w), (F.FLT_AUX_CFG.PRESET k, dsPreset w), (F.FLT_AUX_CFG.RATIO k, dsRatio w)]
    (s1.setAux k { s1.auxChain k with pend := some (s1.reg (R.FLT_AUX_CFG k)) }).answer .ok
  else s.answer .refused

def execFltAuxCfgWrite (k : Fin 64) (w : Word) (s : State) : Host.Outcome State Fault Refusal := done (auxCfgWrite k w s)

/-- EXCIT restart of a chain at an excitation switch (R259, R261). -/
def auxExcit (k : Nat) (s : State) : State :=
  let a := s.auxChain k
  if dsEn a.cfg then
    ((s.setAux k { a with core := restartChain a.core }).wrs
      [(F.FLT_AUX_STAT.LASTRST k, max 4 (if a.core.i = 0 then s.rd (F.FLT_AUX_STAT.LASTRST k) else 0)),
       (F.FLT_AUX_STAT.STALE k, 1)]).showAux k
  else s

/-- The record of an auxiliary output (R285). -/
def auxRecord (k : Nat) (o : ChainOut) (label : Nat) : Record :=
  { kind := 3, fibre := 0, pic := qBit o.q 6, bad := qBit o.q 4, ns := 1, h1 := w32 k, h2 := w32 (label / 65536), h3 := 0,
    payload := [w32I o.value, w32 o.q], label := label / 65536, born := 0 }

/-- One input of auxiliary chain `k` (R246, R256, R262): its registers, and its output's record. -/
def auxInput (k : Nat) (x : Int) (ts q : Nat) (s : State) : State :=
  let s0 := match (s.auxChain k).pend with
    | some w =>
      -- a word that changes nothing is no restart
      if w = (s.auxChain k).cfg then s.setAux k { s.auxChain k with pend := none } else auxConfigure k w s
    | none => s
  let a := s0.auxChain k
  if dsEn a.cfg = false then s0
  else
    let cfg := s0.auxCfg k a.cfg
    let r := chainInput cfg x ts q a.core
    let s1 := (s0.setAux k { a with core := r.core }).wrI (F.FLT_AUX_VAL.PICOT k) (picotValue cfg r.core)
    let s2 := match r.out with
      | none => s1
      | some o =>
        let s2 := if o.settled then (s1.wrI (F.FLT_AUX_VAL.HOLD k) o.value).wr (F.FLT_AUX_STAT.STALE k) 0 else s1
        if s.rd F.GND_AUXBOB.EN = 1 then
          (s2.produce (s.rd F.GND_AUXBOB.BOB) (auxRecord k o (if o.settled then o.label else picotLabel r.core)) .queued noTags none).1
        else s2
    s2.showAux k

end Sys2Proof.Machine
end

