-- ==== Sys2Proof/Machine/Slices.lean ====
section
/-!
DEFINITION. The converter slices (R137–R180): the role map, gain profiles, calibration episodes, shadowing and takeover.
-/
namespace Sys2Proof.Machine

/-! ## Roles (R137–R139) -/

/-- The role field of function `f`. -/
def roleFld (f : Nat) : Fld :=
  if f < 8 then { reg := R.SLC_ROLE0, lo := 4 * f, w := 4 } else { reg := R.SLC_ROLE1, lo := 4 * (f - 8), w := 4 }

/-- The slice that serves a function, 0xF when it is lost; and the spare slice. -/
def State.role (s : State) (f : Nat) : Nat := s.rd (roleFld f)
def State.spareSlice (s : State) : Nat := s.rd F.SLC_ROLE1.SPARE

/-- SLC_STAT.MODE codes (R178). -/
def slActive : Nat := 0
def slShadow : Nat := 1
def slSpare : Nat := 2
def slParallel : Nat := 3
def slCal : Nat := 4
def slTest : Nat := 5
def slFenced : Nat := 6
def slOff : Nat := 7

/-- Fibres whose shots a function bears on. -/
def funcFibres (f : Nat) : List Nat :=
  if f < 4 then [0] else if f < 8 then [1] else if f < 10 then [0] else if f < 12 then [1] else [0, 1]

/-- The function is one of a fibre's coherent four. -/
def coherentOf (x f : Nat) : Bool := f / 4 == x
def isRef (f : Nat) : Bool := f == 12 || f == 13
def isRaman (f : Nat) : Bool := decide (8 ≤ f ∧ f ≤ 11)

/-- The fibre whose rounds a function uses, 2 when that fibre, or every fibre, is not acquiring (R161, R166). -/
def State.roundsOf (s : State) (f : Nat) : Nat :=
  match (funcFibres f).find? (fun x => s.rd (F.SHOT_STAT.STATE x) != 0) with
  | some x => x
  | none => 2

/-- The gain code of a Raman or reference function (R142, R143). -/
def State.fixedGain (s : State) (f : Nat) : Nat :=
  match f with
  | 8 => s.rd F.SLC_FGAIN.AS_A
  | 9 => s.rd F.SLC_FGAIN.ST_A
  | 10 => s.rd F.SLC_FGAIN.AS_B
  | 11 => s.rd F.SLC_FGAIN.ST_B
  | 12 => s.rd F.SLC_FGAIN.REF_I
  | _ => s.rd F.SLC_FGAIN.REF_Q

/-! ## Gain profiles (R144–R152) -/

/-- Enabled entries of a profile plane, in order: offset and gain. -/
def State.profile (s : State) (live : Bool) (x : Nat) : List (Bool × Nat × Nat) :=
  (List.range 8).map (fun k => (s.rd (planeFld live (F.SLC_PROF.EN x k)) == 1, s.rd (planeFld live (F.SLC_PROF.OFFSET x k)),
    s.rd (planeFld live (F.SLC_PROF.GAIN x k))))

/-- Offsets rise by at least 16 samples from entry to entry. -/
def spacedBy16 : List (Bool × Nat × Nat) → Bool
  | [] => true
  | [_] => true
  | a :: b :: t => decide (a.2.1 + 16 ≤ b.2.1) && spacedBy16 (b :: t)

/-- The check of R146: 0 accepted, else the code of R152. (DEDUCED, assumption 16.) -/
def profileCode (p : List (Bool × Nat × Nat)) : Nat :=
  let on := p.takeWhile (·.1)
  let first := match p with
    | (true, 0, _) :: _ => true
    | _ => false
  if first = false then 1
  else if (p.drop on.length).any (·.1) ∨ spacedBy16 on = false then 2
  else if on.any (fun e => decide (5 < e.2.2)) then 3
  else 0

/-- Entries of the live profile applied under a slot of `S` samples (R146). -/
def State.applied (s : State) (x slot : Nat) : List (Nat × Nat) :=
  (((s.profile true x).takeWhile (·.1)).filter (fun e => decide (e.2.1 + 16 ≤ slot))).map (·.2)

/-- Show NACT and TRUNC of the live profile under a slot length; TRUNC becoming 1 raises an event (R146). -/
def State.showProfile (s : State) (x slot : Nat) : State :=
  let on := (s.profile true x).takeWhile (·.1)
  let act := s.applied x slot
  let trunc : Nat := if act.length < on.length then 1 else 0
  let s1 := s.wr (F.SLC_PSTAGE.NACT x) act.length
  let s2 := s1.wr (F.SLC_PSTAGE.TRUNC x) trunc
  if trunc = 1 ∧ s.rd (F.SLC_PSTAGE.TRUNC x) = 0 then
    s2.event 0x0404 .warn noUnit (some (if x = 0 then .a else .b)) 0 0 0 0 else s2

def profRegs (x : Nat) : List Nat := (List.range 8).map (R.SLC_PROF x)
def State.profToLive (s : State) (x : Nat) : State := (profRegs x).foldl (fun t r => t.copyReg r (liveKey r)) s
def State.profToShadow (s : State) (x : Nat) : State := (profRegs x).foldl (fun t r => t.copyReg (liveKey r) r) s

/-- A write to SLC_PROF_x_k (R148, R150, R624): GAIN is a checked field, OFFSET is not. -/
def profWrite (x k : Nat) (w : Word) (s : State) : State :=
  if s.rd (F.SLC_PSTAGE.PEND x) = 1 then s.answer .busy
  else if 1_999_984 < wordField 0 21 w then s.answer .refused
  else (s.wrs [(F.SLC_PROF.EN x k, wordField 31 1 w), (F.SLC_PROF.GAIN x k, wordField 24 3 w),
    (F.SLC_PROF.OFFSET x k, wordField 0 21 w)]).answer .ok

/-- SLC_PSTAGE.GO (R149, R150). -/
def pstageGo (x : Nat) (s : State) : State :=
  if s.rd (F.SLC_PSTAGE.PEND x) = 1 then s.answer .busy
  else if s.rd (F.SHOT_STAT.STATE x) = 0 then (s.profToLive x).answer .ok
  else ((s.wr (F.SLC_PSTAGE.PEND x) 1).setSlices (fun v => { v with
    profGo := v.profGo.upd x (some (s.now, false)) })).answer .ok

/-- The check of a staged profile (R149). -/
def profileCheck (x : Nat) (s : State) : State :=
  match s.slices.profGo.at x with
  | some (t, false) =>
    let c := profileCode (s.profile false x)
    let s1 := s.wr (F.SLC_PSTAGE.CODE x) c
    if c = 0 then s1.setSlices (fun v => { v with profGo := v.profGo.upd x (some (t, true)) })
    else (s1.wr (F.SLC_PSTAGE.PEND x) 0).setSlices (fun v => { v with profGo := v.profGo.upd x none })
  | _ => s

/-- A stop or an ACQ reset discards a pending profile (R150). -/
def profileDrop (x : Nat) (s : State) : State :=
  let s1 := if s.rd (F.SLC_PSTAGE.PEND x) = 1 then s.wr (F.SLC_PSTAGE.CODE x) 4 else s
  ((s1.wr (F.SLC_PSTAGE.PEND x) 0).profToShadow x).setSlices (fun v => { v with profGo := v.profGo.upd x none })

/-- Adoption of a checked profile at a boundary `tB` of round `r` (R149). -/
def profileAdopt (x tB r : Nat) (s : State) : State :=
  match s.slices.profGo.at x with
  | some (t, true) =>
    if t + 4000 ≤ tB then
      ((s.profToLive x).wr (F.SLC_PSTAGE.PEND x) 0).setSlices (fun v => { v with
        profGo := v.profGo.upd x none, profAt := v.profAt.upd x (some (tB + s.rd (F.SHOT_LRP.DELAY x))),
        profRound := v.profRound.upd x (some r) })
    else s
  | _ => s

def execSlcProfWrite (x : Fibre) (k : Fin 8) (w : Word) (s : State) : Host.Outcome State Fault Refusal :=
  done (profWrite x.idx k w s)
def execSlcPstageGo (x : Fibre) (s : State) : Host.Outcome State Fault Refusal := done (pstageGo x.idx s)
def execProfileCheckComplete (x : Fibre) (s : State) : Host.Outcome State Fault Refusal := done (profileCheck x.idx s)

/-- Instants of the gain changes that a slot start gives: entry times at the slice inputs and codes (R144). -/
def State.gainTimes (s : State) (x ts slot : Nat) : List (Nat × Nat) :=
  (s.applied x slot).map (fun e => (ts + s.rd (F.SHOT_LRP.DELAY x) + e.1, e.2))

/-- Slot starts of the present round (R35, R81); none while the fibre has none. -/
def State.slotStarts (s : State) (x : Fibre) : List Nat :=
  let c := s.sch x
  if s.acquiring x = true ∧ c.startAt = none then (List.range c.nT).map (slotStart c.tB c.tr c.nT) else []

/-- Gain changes that the slots of the present round give. -/
def State.roundGains (s : State) (x : Fibre) : List (Nat × Nat) :=
  let c := s.sch x
  (s.slotStarts x).flatMap (fun t => s.gainTimes x.idx t (if c.nT = 0 then 0 else c.tr / c.nT))

/-- The gain code that the profile gives a fibre now: that of the latest entry reached, of this round's slots or of those before. -/
def State.profileGain (s : State) (x : Fibre) : Option (Nat × Nat) :=
  ((s.slices.late.at x.idx ++ s.roundGains x).filter (fun e => decide (e.1 ≤ s.now))).foldl (fun b e => match b with
    | some v => if v.1 ≤ e.1 then some e else b
    | none => some e) none

/-- The round of fibre `x` ends: its slots keep the gain changes still to come, under the profile that governed them (R144, R149). -/
def carryGains (x : Fibre) (s : State) : State :=
  let l := (s.slices.late.at x.idx ++ s.roundGains x).filter (fun e => decide (s.now < e.1 + 2_000_000))
  s.setSlices (fun v => { v with late := v.late.upd x.idx l })

/-! ## Serving a function -/

/-- The gain in force on a function now: the profile's for a coherent one, the last reached where no slot has started (R142,
R144, R145). -/
def State.funcGain (s : State) (f : Nat) : Nat :=
  if f < 8 then
    match s.profileGain (if f < 4 then .a else .b) with
    | some p => p.2
    | none => s.slices.gain.at (f / 4)
  else s.fixedGain f

/-- Slice `n` serves function `f` at gain `g`; a lost function it takes is no longer lost (R177, R572). -/
def State.serve (s : State) (f n g : Nat) : State :=
  let s1 := s.wrs [(roleFld f, n), (F.SLC_STAT.FUNC n, f), (F.SLC_STAT.MODE n, slActive), (F.SLC_STAT.GAIN n, g)]
  if s.role f = 0xF then s1.event 0x0403 .clear noUnit none 0 f 0 0 else s1

/-- Slice `n` serves no function and stands in a mode. -/
def State.standDown (s : State) (n mode : Nat) : State :=
  s.wrs [(F.SLC_STAT.FUNC n, 0xF), (F.SLC_STAT.MODE n, mode)]

/-- A swap of function `f` at slice-input time `t`, away from slice `old` (0xF for none). -/
def State.swapAt (s : State) (f old t : Nat) : State := s.setSlices (fun v => { v with swaps := v.swaps ++ [(f, t, old)] })

/-- The first sample after a takeover of a coherent function carries STEP (R174). -/
def State.stepNow (s : State) (f : Nat) : State :=
  if f < 8 then s.setSlices (fun v => { v with stepAt := v.stepAt.upd (f / 4) (some s.now) }) else s

/-- BUSY and PHASE while no calibration is requested or runs: TESTING while a slice is under test (R172). -/
def State.showTests (s : State) : State :=
  if s.slices.cal.isSome then s
  else
    let on : Nat := if s.slices.tests.isEmpty then 0 else 1
    s.wrs [(F.SLC_CAL_STAT.PHASE, 4 * on), (F.SLC_CAL_STAT.BUSY, on)]

/-- Slice `n` begins its built-in test (R172, R562). -/
def State.sliceTest (s : State) (n : Nat) : State :=
  ((s.wr (F.SLC_STAT.MODE n) slTest).setSlices (fun v => { v with tests := v.tests.filter (·.1 ≠ n) ++ [(n, s.now)] })).showTests

/-- SUB begins for a function taken from slice `n` (R140, R167). -/
def State.subFrom (s : State) (f n t : Nat) : State :=
  s.setSlices (fun v => { v with
    subs := v.subs.map (fun r => if r.func = f ∧ r.stop = none then { r with stop := some t } else r) ++
      [{ func := f, from_ := n, start := t, ending := false, stop := none }] })

/-- SUB of a function ends at `t`. -/
def State.subStop (s : State) (f t : Nat) : State :=
  s.setSlices (fun v => { v with
    subs := v.subs.map (fun r => if r.func = f ∧ r.stop = none then { r with stop := some t } else r) })

/-- The slice rejoins service as spare or standby: SUB of functions taken from it ends after the next boundary (R140). -/
def State.subRejoin (s : State) (n : Nat) : State :=
  s.setSlices (fun v => { v with
    subs := v.subs.map (fun r => if r.from_ = n ∧ r.stop = none then { r with ending := true } else r) })

/-- A vacant spare role goes to the lowest-numbered standby slice (R139). -/
def State.fillSpare (s : State) : State :=
  if s.spareSlice = 0xF then
    match (List.range 15).find? (fun n =>
      s.rd (F.SLC_STAT.MODE n) == slOff && s.rd (F.SLC_STAT.FUNC n) == 0xF && s.rd (F.SLC_STAT.FAULT n) == 0) with
    | some n => s.wrs [(F.SLC_ROLE1.SPARE, n), (F.SLC_STAT.MODE n, slSpare)]
    | none => s
  else s

/-- A lost function, the lowest code first. -/
def State.lostFunc (s : State) : Option Nat := (List.range 14).find? (fun f => s.role f == 0xF)

/-- Polarisation weights of a fibre (R195). -/
def State.weight (s : State) (x pair : Nat) : Nat :=
  let served := s.role (4 * x + 2 * pair) != 0xF && s.role (4 * x + 2 * pair + 1) != 0xF
  let mode := s.rd (F.FRP_CFG.POLMODE x)
  if served ∧ (mode = 0 ∨ mode = pair + 1) then 1 else 0

/-- No polarisation of the fibre has weight (R195). -/
def State.noWeight (s : State) (x : Nat) : Bool := s.weight x 0 == 0 && s.weight x 1 == 0

/-- A polarisation of a fibre has lost a function (R195, R214). -/
def State.polLost (s : State) (x pair : Nat) : Bool := s.role (4 * x + 2 * pair) == 0xF || s.role (4 * x + 2 * pair + 1) == 0xF

/-- Shots in flight on a fibre that is left without weight are bad (R195, R218). -/
def State.noteWeight (s : State) : State :=
  fibres.foldl (fun (s : State) x =>
    if s.noWeight x.idx then s.addCause x causeNoWt (fun sl => decide (sl.tL ≤ s.now ∧ s.now ≤ sl.tL + sl.tmin)) else s) s

/-- A slice that serves nothing becomes the spare where that role is vacant, else stands by (R139). -/
def State.sliceRests (s : State) (n : Nat) : State :=
  if s.spareSlice = 0xF then (s.standDown n slSpare).wr F.SLC_ROLE1.SPARE n else s.standDown n slOff

/-- Slice `m` takes function `f` from slice `old` at `t`; where it was the spare, a standby slice is the spare now (R139, R140). -/
def State.takeOver (s : State) (f m old t : Nat) : State :=
  let s1 := if s.spareSlice = m then s.wr F.SLC_ROLE1.SPARE 0xF else s
  (((s1.serve f m (s.funcGain f)).subFrom f old t).swapAt f old t).fillSpare

/-- A slice that is available again serves a lost function, else becomes the spare, else stands by (R177, R139). -/
def State.sliceFree (s : State) (n : Nat) : State :=
  let s := s.wr (F.SLC_STAT.FAULT n) 0
  match s.lostFunc with
  | some f => ((s.serve f n (s.funcGain f)).subRejoin n).swapAt f 0xF s.now
  | none => (s.sliceRests n).subRejoin n

/-! ## Gain steps and over-range (R144, R155) -/

/-- Slices connected to function `f`'s port: the one that serves it, the spare that shadows it, and one in parallel with it (R161,
R166). -/
def State.onPort (s : State) (f : Nat) : List Nat :=
  (if s.role f = 0xF then [] else [s.role f]) ++ (List.range 15).filter (fun n =>
    (s.rd (F.SLC_STAT.MODE n) == slShadow && s.slices.shadowFn == f) ||
    (s.rd (F.SLC_STAT.MODE n) == slParallel && (match s.slices.cal with | some c => c.func == f | none => false)))

/-- The slices on a function's port take a gain. -/
def State.portGain (s : State) (f g : Nat) : State := (s.onPort f).foldl (fun a n => a.wr (F.SLC_STAT.GAIN n) g) s

/-- GAIN_STEP (R144): the fibre's coherent functions take the profile's gain; the sample carries STEP if it changes. -/
def gainStep (x : Fibre) (s : State) : State :=
  match s.profileGain x with
  | some (t, g) =>
    let s1 := ((List.range 4).map (· + 4 * x.idx)).foldl (fun (a : State) f => a.portGain f g) s
    s1.setSlices (fun v => { v with gain := v.gain.upd x.idx g,
                                    stepAt := if v.gain.at x.idx = g then v.stepAt else v.stepAt.upd x.idx (some t) })
  | none => s

def execGainStep (x : Fibre) (s : State) : Host.Outcome State Fault Refusal := done (gainStep x s)

/-- Over-range samples of slice `n` (R155): each set bit of `ovr` stands for one sample, the last of them taken at `t`. Samples of
instants already counted are not counted again. -/
def countOvr (n t : Nat) (ovr : List Bool) (s : State) : State :=
  if 15 ≤ n then s
  else
    let seen := mapGet (fun _ => (0 : Nat)) s.slices.ovrAt n
    let k := ((ovr.drop (ovr.length - (t - seen))).filter id).length
    let s1 := if k = 0 then s else (s.wr (F.SLC_STAT.OVR n) 1).bumpBy (F.SLC_OVRCNT.COUNT n) k
    s1.setSlices (fun v => { v with ovrAt := mapSet (fun _ => (0 : Nat)) v.ovrAt n (max seen t) })

/-- OVRLONG (R155): 65,536 consecutive over-range samples on a slice, up to now. -/
def execOvrlong (n : Fin 15) (s : State) : Host.Outcome State Fault Refusal :=
  let f := s.rd (F.SLC_STAT.FUNC n)
  let s1 := countOvr n s.now (List.replicate 65536 true) s
  done ((s1.wrs [(F.SLC_STAT.OVRLONG n, 1), (F.SLC_STAT.OVR n, 1)]).event 0x0404 .warn n none 0 f 0 0)

/-! ## Calibration (R156–R172) -/

/-- Every coefficient lies in its range (R156). -/
def coefsOk (c : SliceCoefs) : Bool :=
  decide (c.ofs.natAbs ≤ 32767 ∧ c.skew.natAbs ≤ 127) &&
    c.mags.all (fun m => decide (0x4000 ≤ m ∧ m ≤ 0xC000)) && c.delays.all (fun d => decide (d.natAbs ≤ 8000))

/-- Take a slice's new coefficients (R156, R159, R160). (DEDUCED, assumption 21.) -/
def State.takeCoefs (s : State) (n : Nat) (c : SliceCoefs) : State :=
  let s1 := ((s.wrI (F.SLC_CALOFS.OFS n) c.ofs).wrI (F.SLC_CALOFS.CALTEMP n) c.temp).wrI (F.SLC_CALSKEW.SKEW n) c.skew
  let s2 := (List.range 6).foldl (fun t g =>
    (t.wrI (F.SLC_GCAL_DATA.MAG (6 * n + g)) (c.mags.getD g 0x8000)).wrI (F.SLC_GCAL_DATA.DELAY (6 * n + g))
      (c.delays.getD g 0)) s1
  { s2 with slices := { s2.slices with calTimes := mapSet (fun _ => (0 : Nat)) s2.slices.calTimes n s.now,
                                          calTb := mapSet (fun _ => (0 : Nat)) s2.slices.calTb n s.tbNs,
                                          again := s2.slices.again.filter (· ≠ n) },
            flash := s2.flash.markCal }

/-- End of the episode with a result; the spare resumes rotation. An intrusive interval ends with it at the latest (R168). -/
def State.calEnd (s0 : State) (res : Nat) : State :=
  -- a test request that this calibration serves ends with it (R570)
  let s := match s0.health.test, s0.slices.cal with
    | some t, some c =>
      if t.unit ≠ c.slice ∨ res = 4 then s0
      else if res = 1 ∨ res = 5 ∨ res = 6 then s0.testDone c.slice (res == 1)
      else { s0.testResult c.slice 0 false with health := { s0.health with test := none } }
    | _, _ => s0
  ((s.wrs [(F.SLC_CAL_STAT.RESULT, res), (F.SLC_CAL_STAT.PHASE, 0), (F.SLC_CAL_STAT.BUSY, 0)]).setSlices (fun v =>
    { v with cal := none, shadowRnd := 0, mism := 0,
             intrus := match v.cal with
               | some c => v.intrus.map (fun p => if p.1 = c.func then (p.1, p.2.1, min p.2.2 s.now) else p)
               | none => v.intrus })).showTests

/-- Slice `n` is fenced with a fault code and runs its built-in test (R562). -/
def State.fenceSlice (s : State) (n fault : Nat) : State :=
  ((s.wrs [(F.SLC_STAT.FAULT n, fault), (F.SLC_STAT.FUNC n, 0xF)]).countFail n fault).sliceTest n

/-- A refused request (R168). -/
def State.calRefuse (s : State) (st : Status) (res : Nat) : State := (s.wr F.SLC_CAL_STAT.RESULT res).answer st

/-- A calibration at once on the calibration source. -/
def State.calDirect (s : State) (n f : Nat) (keep : Bool) : State :=
  (s.wrs [(F.SLC_CAL_STAT.BUSY, 1), (F.SLC_CAL_STAT.SLICE, n), (F.SLC_CAL_STAT.PHASE, 2), (F.SLC_STAT.MODE n, slCal)]).setSlices
    (fun v => { v with cal := some { kind := .direct, slice := n, func := f, fib := 2, keep := keep, goAt := s.now,
                                     rounds := none, calAt := some s.now, ended := false, aborted := false, unitReset := false,
                                     role0 := s.reg R.SLC_ROLE0, role1 := s.reg R.SLC_ROLE1 } })

/-- A request that waits for a boundary of fibre `x`. -/
def State.calWait (s : State) (kind : CalKind) (n f x : Nat) (keep : Bool) : State :=
  (s.wrs [(F.SLC_CAL_STAT.BUSY, 1), (F.SLC_CAL_STAT.SLICE, n), (F.SLC_CAL_STAT.PHASE, 0)]).setSlices
    (fun v => { v with cal := some { kind := kind, slice := n, func := f, fib := x, keep := keep, goAt := s.now,
                                     rounds := none, calAt := none, ended := false, aborted := false, unitReset := false,
                                     role0 := s.reg R.SLC_ROLE0, role1 := s.reg R.SLC_ROLE1 } })

/-- The spare is free to stand in: it exists and neither substitutes nor runs a test. (DEDUCED, assumption 80.) -/
def State.spareReady (s : State) : Bool :=
  let n := s.spareSlice
  n != 0xF && (s.rd (F.SLC_STAT.MODE n) == slSpare || s.rd (F.SLC_STAT.MODE n) == slShadow)

/-- A function without a slice (R177): what it leaves without weight follows (R195). -/
def loseFunc (f : Nat) (s : State) : State :=
  ((s.wr (roleFld f) 0xF).event 0x0403 .fault noUnit none 0 f 0 0).noteWeight

/-- Function `f`, whose slice `n` has gone, goes to a free spare, else it is lost (R174, R177). -/
def coverFunc (f n : Nat) (s : State) : State :=
  if s.spareReady = true ∧ s.spareSlice ≠ n then (s.takeOver f s.spareSlice n s.now).stepNow f else loseFunc f s

/-- SLC_CAL_CMD.START (R166, R168). (DEDUCED, assumption 80.) -/
def calStart (n : Nat) (keep intr : Bool) (s : State) : State :=
  if n = 15 then s.answer .refused
  else
    let s := s.wrs [(F.SLC_CAL_CMD.SLICE, n), (F.SLC_CAL_CMD.KEEP, if keep then 1 else 0),
      (F.SLC_CAL_CMD.INTRUSIVE, if intr then 1 else 0)]
    let mode := s.rd (F.SLC_STAT.MODE n)
    let f := s.rd (F.SLC_STAT.FUNC n)
    if s.slices.cal.isSome then s.calRefuse .busy 3
    else if mode = slFenced ∨ mode = slTest then s.calRefuse .refused 9
    else if n = s.spareSlice then (s.calDirect n 0xF keep).answer .ok
    else if f = 0xF then (s.calDirect n 0xF keep).answer .ok
    else if s.roundsOf f = 2 then (s.calDirect n f keep).answer .ok
    else if s.spareReady then (s.calWait .episode n f (s.roundsOf f) keep).answer .ok
    else if intr then (s.calWait .intrusive n f (s.roundsOf f) keep).answer .ok
    else s.calRefuse .busy 2

def execSliceCalStart (n : Fin 16) (keep intr : Bool) (s : State) : Host.Outcome State Fault Refusal :=
  done (calStart n keep intr s)

/-- The slice hands its function back, or the spare keeps it (R166): the end of an episode at slice-input time `t`. -/
def calClose (c : SliceCal) (t res : Nat) (s : State) : State :=
  let sub := s.role c.func
  if c.keep then (((s.sliceRests c.slice).subStop c.func t).calEnd res)
  else
    let s1 := (s.serve c.func c.slice (s.funcGain c.func)).sliceRests sub
    ((s1.subStop c.func t).swapAt c.func sub t).calEnd res

/-- The slice under calibration rejoins its function's port for the parallel run (R166). -/
def rejoinPort (c : SliceCal) (s : State) : State :=
  let s1 := (s.wrs [(F.SLC_CAL_STAT.PHASE, 3), (F.SLC_STAT.MODE c.slice, slParallel)]).setSlices
    (fun v => { v with cal := some { c with ended := true, rounds := none } })
  s1.portGain c.func (s.funcGain c.func)

/-- SLC_CAL_CMD.ABORT (R169, R170). -/
def calAbort (s : State) : State :=
  match s.slices.cal with
  | none => s.answer .ok
  | some c =>
    let ph := s.rd F.SLC_CAL_STAT.PHASE
    if c.kind ≠ .episode then s.answer .ok
    else if ph = 1 then
      (((s.wr (F.SLC_STAT.MODE s.spareSlice) slSpare)).calEnd 7).answer .ok
    else if ph = 2 ∧ c.ended = false then
      let c' := { c with aborted := true, keep := false }
      -- the fibre has stopped: no parallel run follows
      if c.fib = 2 then (calClose c' s.now 7 s).answer .ok
      else (rejoinPort c' (s.wr F.SLC_CAL_STAT.RESULT 7)).answer .ok
    else s.answer .ok

def execSliceCalAbort (s : State) : Host.Outcome State Fault Refusal := done (calAbort s)

/-- Slice `n` stays fenced with a fault code. -/
def State.holdFenced (s : State) (n fault : Nat) : State :=
  (s.wrs [(F.SLC_STAT.MODE n, slFenced), (F.SLC_STAT.FAULT n, fault), (F.SLC_STAT.FUNC n, 0xF)]).countFail n fault

/-- A calibration failed (R169): the slice is fenced, and the spare keeps, or takes, its function. -/
def calFailed (c : SliceCal) (s : State) : State :=
  let s1 := ((s.holdFenced c.slice 5).calEnd 6).event 0x0401 .fault c.slice none 0 c.func 5 0
  if s1.spareSlice = c.slice then (s1.wr F.SLC_ROLE1.SPARE 0xF).fillSpare
  else if c.func < 14 ∧ s1.role c.func = c.slice then coverFunc c.func c.slice s1
  else s1

/-- The 20 ms calibration is over (R166, R168, R169). -/
def calComplete (m : SliceCoefs) (s : State) : State :=
  match s.slices.cal with
  | none => s
  | some c =>
    match c.calAt with
    | none => s
    | some t0 =>
      if c.ended = true ∨ s.now < t0 + 20_000_000 then s
      else if coefsOk m = false then calFailed c s
      else
        let s1 := s.takeCoefs c.slice m
        match c.kind with
        | .direct =>
          let back := if s1.spareSlice = c.slice then slSpare else if c.func = 0xF then slOff else slActive
          (s1.wr (F.SLC_STAT.MODE c.slice) back).calEnd 1
        | .intrusive =>
          (s1.wr (F.SLC_STAT.MODE c.slice) slActive).calEnd 1
        | .episode =>
          -- the fibre has stopped: no parallel run follows (R170)
          if c.fib = 2 then calClose c s.now 1 s1
          else if c.keep then s1.setSlices (fun v => { v with cal := some { c with ended := true } })
          else rejoinPort c s1

def execSliceCalComplete (m : SliceCoefs) (s : State) : Host.Outcome State Fault Refusal := done (calComplete m s)

/-- AUTOCAL (R164, R176): the supervisor requests a calibration of slice `n`, whose die stands at `temp` in 0.1 °C. The age of a
calibration is counted on the timebase, which its store entry holds (R621). The request carries the present
SLC_CAL_CMD.INTRUSIVE, and its slice and RETURN stay in SLC_CAL_CMD. (DESIGN CHOICE, assumption 92.) -/
def autocal (n : Nat) (temp : Int) (s : State) : State :=
  let dt := s.rd F.SLC_SPARE.CALDT
  let age := s.rd F.SLC_SPARE.CALAGE
  let moved := decide (0 < dt ∧ (10 * dt : Int) < (temp - s.rdI (F.SLC_CALOFS.CALTEMP n)).natAbs)
  let old := decide (0 < age ∧ mapGet (fun _ => (0 : Nat)) s.slices.calTb n + age * hourNs < s.tbNs)
  let cut := s.slices.again.contains n && s.spareReady
  if s.rd F.SLC_SPARE.AUTOCAL = 1 ∧ s.slices.cal = none ∧ (moved = true ∨ old = true ∨ cut = true) then
    let st := s.status
    (calStart n false (s.rd F.SLC_CAL_CMD.INTRUSIVE == 1) s).answer st
  else s

def execAutocalRequest (n : Fin 15) (temp : Int) (s : State) : Host.Outcome State Fault Refusal := done (autocal n temp s)

/-! ## Comparison and shadowing (R161–R163) -/

/-- A round's comparison is a mismatch: D > −STHR dB, for the sum `sq` of squared differences of `count` samples (R162). The
comparison is exact: both sides stand raised to the tenth power. A round of which every sample is ignored is no mismatch.
(DESIGN CHOICE, assumption 91.) -/
def State.mismatchRound (s : State) (sq count : Nat) : Bool :=
  decide (0 < count ∧ (count * 67108864) ^ 10 < sq ^ 10 * 10 ^ s.rd F.SLC_SPARE.STHR)

/-- Slice `n` is in doubt: it is fenced and tested, and `sub` serves its function `f` (R163, step 2). The event carries the rounds of
the mismatch. -/
def doubtSlice (f n sub : Nat) (rounds : Nat × Nat × Nat) (s : State) : State :=
  let s1 := s.fenceSlice n 4
  let s2 := s1.event 0x0401 .fault n none 0 rounds.1 rounds.2.1 rounds.2.2
  (if s2.slices.cal.isSome then s2 else s2.wr F.SLC_CAL_STAT.SLICE n).setSlices (fun v =>
    { v with suspect := some (f, n, sub, false), shadowRnd := 0, mism := 0 })

/-- The slice in doubt gives its function to the spare (R163, step 1). A request that waited for the spare is abandoned for the
takeover (R175). -/
def shadowResolve (f n t : Nat) (rounds : Nat × Nat × Nat) (s : State) : State :=
  let s0 := match s.slices.cal with
    | some c => if c.kind = .episode then s.calEnd 5 else s
    | none => s
  let spare := s0.spareSlice
  doubtSlice f n spare rounds (if spare = 0xF then loseFunc f s0 else s0.takeOver f spare n t)

/-- The next function to shadow after `f`: served, of an acquiring fibre, not the spare's own (R161). -/
def State.nextShadow (s : State) (f : Nat) : Option Nat :=
  ((List.range 14).map (fun i => (f + 1 + i) % 14)).find? (fun k => s.roundsOf k != 2 && s.role k != 0xF)

/-- A capture of P14, for which the spare leaves its rotation at a window's boundary (R639). -/
def State.tracingSpare (s : State) : Option Trace := s.mon.trace.filter (fun t => t.func == 15)

/-- Begin the next shadow window, at the function's gain, unless a capture of P14 takes the spare (R161). -/
def State.shadowNext (s : State) : State :=
  let n := s.spareSlice
  if s.rd F.SLC_SPARE.SHDW_RND = 0 ∨ n = 0xF then s
  else if s.rd (F.SLC_STAT.MODE n) = slSpare ∨ s.rd (F.SLC_STAT.MODE n) = slShadow then
    match s.tracingSpare with
    | some t =>
      { s.wr (F.SLC_STAT.MODE n) slSpare with
        mon := { s.mon with trace := some { t with from_ := if t.held then t.from_ else s.now, held := true } } }
    | none =>
      match s.nextShadow s.slices.shadowFn with
      | some f => (s.wrs [(F.SLC_STAT.MODE n, slShadow), (F.SLC_STAT.FUNC n, 0xF), (F.SLC_STAT.GAIN n, s.funcGain f)]).setSlices (fun v =>
          { v with shadowFn := f, shadowRnd := 0, mism := 0 })
      | none => s.wr (F.SLC_STAT.MODE n) slSpare
  else s

/-- A boundary of fibre `x` at `tB` bears on the shadow window: its round was compared (R162, R163). -/
def shadowRound (x tB round sq count : Nat) (s : State) : State :=
  let n := s.spareSlice
  if n = 0xF then s
  else if s.rd (F.SLC_STAT.MODE n) = slSpare then s.shadowNext
  else if s.rd (F.SLC_STAT.MODE n) = slShadow ∧ s.roundsOf s.slices.shadowFn = x then
    let m := if s.mismatchRound sq count then s.slices.mism + 1 else 0
    let s1 := s.setSlices (fun v => { v with mism := m, shadowRnd := v.shadowRnd + 1 })
    if 3 ≤ m then
      let f := s.slices.shadowFn
      shadowResolve f (s.role f) (tB + s.rd (F.SHOT_LRP.DELAY x)) (round - 2, round - 1, round) s1
    else if s.rd F.SLC_SPARE.SHDW_RND ≤ s.slices.shadowRnd + 1 then s1.shadowNext
    else s1
  else if s.rd (F.SLC_STAT.MODE n) = slShadow ∧ s.roundsOf s.slices.shadowFn = 2 then s.shadowNext
  else s

/-- A single mismatch round of a parallel run (R166): the slice in doubt is fenced, and the spare serves the function. -/
def parallelMismatch (c : SliceCal) (t round : Nat) (s : State) : State :=
  let s1 := s.calEnd 4
  if s1.role c.func = c.slice then shadowResolve c.func c.slice t (round, 0, 0) s1
  else doubtSlice c.func c.slice (s1.role c.func) (round, 0, 0) s1

/-- A UNIT reset takes hold of a slice (R180): its over-range flags and count return to their reset values; its coefficients stay until
its calibration renews them. (DESIGN CHOICE, assumption 94.) -/
def State.sliceCleared (s : State) (n : Nat) : State :=
  s.wrs [(F.SLC_STAT.OVRLONG n, 0), (F.SLC_STAT.OVR n, 0), (F.SLC_OVRCNT.COUNT n, 0)]

/-- A request meets the boundary `tB` of its fibre (R166, R168): an episode that is due begins its parallel run; an intrusive
calibration begins. -/
def calBegin (c : SliceCal) (tB t : Nat) (s : State) : State :=
  match c.kind with
  | .episode =>
    if c.goAt + 4000 ≤ tB then
      let s1 := (s.wrs [(F.SLC_CAL_STAT.PHASE, 1), (F.SLC_STAT.MODE s.spareSlice, slParallel)]).setSlices (fun v =>
        { v with shadowRnd := 0, mism := 0,
                 cal := some { c with rounds := some 0, role0 := s.reg R.SLC_ROLE0, role1 := s.reg R.SLC_ROLE1 } })
      s1.portGain c.func (s.funcGain c.func)
    else s
  | _ => (s.wrs [(F.SLC_CAL_STAT.PHASE, 2), (F.SLC_STAT.MODE c.slice, slCal)]).setSlices (fun v =>
      { v with cal := some { c with calAt := some t }, intrus := v.intrus ++ [(c.func, t, t + 20_000_000)] })

/-- The first swap of an episode (R166): the spare serves the function, and the slice goes to the calibration source. -/
def calSwap (c : SliceCal) (t : Nat) (s : State) : State :=
  let s1 := ((s.takeOver c.func s.spareSlice c.slice t).standDown c.slice slCal).wr F.SLC_CAL_STAT.PHASE 2
  (if c.unitReset then s1.sliceCleared c.slice else s1).setSlices (fun v => { v with
    cal := some { c with calAt := some t, rounds := none } })

/-- A calibration episode at a boundary `tB` of its fibre (R166). -/
def calBoundary (x tB round sq count : Nat) (s : State) : State :=
  match s.slices.cal with
  | none => s
  | some c =>
    if c.fib ≠ x then s
    else
      let t := tB + s.rd (F.SHOT_LRP.DELAY x)
      let ph := s.rd F.SLC_CAL_STAT.PHASE
      let compared (n : Nat) (s : State) : State := s.setSlices (fun v => { v with cal := some { c with rounds := some n } })
      let bad := s.mismatchRound sq count
      if ph = 0 then calBegin c tB t s
      else if ph = 1 then
        if bad then parallelMismatch c t round s
        else if c.rounds = some 0 then compared 1 s
        else calSwap c t s
      else if ph = 2 ∧ c.ended = true then calClose c t 1 s
      else if ph = 3 then
        match c.rounds with
        | none => compared 0 s
        | some k =>
          if bad then parallelMismatch c t round s
          else if k = 0 then compared 1 s
          else calClose c t (if c.aborted then 7 else 1) s
      else s

/-- The slices at a round boundary of fibre `x` (R140, R149, R161–R166): `sq` and `count` are the comparison of the round
just ended. A first round opens no splice of an acquisition before it (R151). -/
def slicesBoundary (x tB round sq count : Nat) (s : State) : State :=
  let t := tB + s.rd (F.SHOT_LRP.DELAY x)
  let s1 := s.setSlices (fun v => { v with
    subs := (v.subs.map (fun r => if r.ending ∧ r.stop = none ∧ (funcFibres r.func).contains x then { r with stop := some t }
      else r)).filter (fun r => match r.stop with | some e => decide (tB < e + 10_000_000) | none => true),
    swaps := v.swaps.filter (fun p => decide (tB < p.2.1 + 10_000_000)),
    spans := v.spans.filter (fun p => decide (tB < p.2.t1 + 10_000_000)),
    intrus := v.intrus.filter (fun p => decide (tB < p.2.2 + 10_000_000)),
    profRound := if round = 0 then v.profRound.upd x none else v.profRound })
  let s2 := profileAdopt x tB round s1
  let s3 := calBoundary x tB (round - 1) sq count s2
  let engaged : Bool := match s3.slices.cal with
    | some c => c.kind == .episode && s3.rd F.SLC_CAL_STAT.PHASE != 0
    | none => false
  if engaged then s3 else shadowRound x tB (round - 1) sq count s3

/-- A stop of fibre `x` bears on an episode that uses its rounds (R170). (DEDUCED, assumption 21.) -/
def calStopped (x : Nat) (s : State) : State :=
  match s.slices.cal with
  | none => s
  | some c =>
    if c.fib ≠ x then s
    else if isRef c.func ∧ s.rd (F.SHOT_STAT.STATE (1 - x)) ≠ 0 then
      s.setSlices (fun v => { v with cal := some { c with fib := 1 - x } })
    else
      let ph := s.rd F.SLC_CAL_STAT.PHASE
      if ph = 0 then s.setSlices (fun v => { v with cal := none }) |>.calDirect c.slice c.func c.keep
      else if ph = 1 then (s.wr (F.SLC_STAT.MODE s.spareSlice) slSpare).calEnd 7
      else if ph = 2 ∧ c.ended = false then s.setSlices (fun v => { v with cal := some { c with fib := 2 } })
      else calClose { c with keep := c.keep && ph == 2 } s.now (if c.aborted then 7 else 1) s

/-- An ACQ or deeper reset abandons an episode; the role map returns to its state at t_0 (R169). A calibration outside an episode
ends, and its slice returns to its place. -/
def calReset (s : State) : State :=
  match s.slices.cal with
  | none => s
  | some c =>
    if c.kind = .episode ∧ s.rd F.SLC_CAL_STAT.PHASE ≠ 0 then
      let g := s.funcGain c.func
      let s1 := (s.setReg R.SLC_ROLE0 c.role0).setReg R.SLC_ROLE1 c.role1
      let s2 := if s1.role c.func = c.slice then s1.serve c.func c.slice g else s1.standDown c.slice slOff
      -- a slice that serves no function and is not the spare of t_0 stands by
      let s3 := (List.range 15).foldl (fun (s : State) n =>
        let m := s.rd (F.SLC_STAT.MODE n)
        if (List.range 14).any (fun f => s.role f == n) = true ∨ m = slTest ∨ m = slFenced then s
        else s.standDown n (if n = s.spareSlice then slSpare else slOff)) s2
      (s3.subStop c.func s.now).calEnd 8
    else
      let back := if s.spareSlice = c.slice then slSpare else if c.func = 0xF then slOff else slActive
      (s.wr (F.SLC_STAT.MODE c.slice) back).calEnd 8

/-! ## Faults and takeover (R173–R177) -/

/-- The slice that may take a function from a failed one, with the state it leaves. A takeover abandons a calibration that the spare
bears: of an episode past its first swap the slice takes back its own function and frees its substitute (R175); the spare's own
calibration is to be requested again (R176). -/
def takeoverSlice (failed : Nat) (s : State) : State × Option Nat :=
  let free (n : Nat) : Option Nat := if n = 0xF ∨ n = failed then none else some n
  let spare (s : State) : Option Nat := if s.spareReady then free s.spareSlice else none
  match s.slices.cal with
  | none => (s, spare s)
  | some c =>
    if c.kind = .episode ∧ c.func < 14 ∧ s.role c.func ≠ c.slice ∧ c.slice ≠ failed then
      let sub := s.role c.func
      let s1 := (((s.serve c.func c.slice (s.funcGain c.func)).subStop c.func s.now).swapAt c.func sub s.now).calEnd 5
      let s2 := s1.setSlices (fun v => { v with suspect := none })
      (s2, free sub)
    else if c.slice = s.spareSlice ∧ c.slice ≠ failed then
      ((s.calEnd 5).setSlices (fun v => { v with again := v.again.filter (· ≠ c.slice) ++ [c.slice] }), some c.slice)
    else if c.kind = .episode then (s.calEnd 5, free s.spareSlice)
    else if c.slice = failed then (s.calEnd 5, spare s)
    else (s, spare s)

/-- SLICE_FAULT (R173, R174): slice `n` is declared faulty with `kind` 1 STUCK, 2 CLKF or 3 REFF; the onset lies `ago` ns
back. -/
def sliceFault (n kind ago : Nat) (s : State) : State :=
  let mode := s.rd (F.SLC_STAT.MODE n)
  let f := s.rd (F.SLC_STAT.FUNC n)
  if kind = 0 ∨ 3 < kind ∨ mode = slFenced ∨ mode = slTest ∨ mode = slOff then s
  else
    let onset := s.now - ago
    let s0 := s.event 0x0401 .fault n none 0 f kind 0
    if f < 14 ∧ s.role f = n then
      let (s1, t) := takeoverSlice n s0
      let span : Span := { t0 := onset, t1 := min (onset + 1093) (s.now + 69), ref := isRef f }
      let s2 := s1.setSlices (fun v => { v with spans := v.spans ++ [(f, span)] })
      -- the abandoned slice has already taken a substituted function back (R175)
      if s2.role f ≠ n then ((s2.stepNow f).fenceSlice n kind).fillSpare
      else match t with
        | some m => ((s2.takeOver f m n s.now).stepNow f).fenceSlice n kind
        | none => loseFunc f (s2.fenceSlice n kind)
    else
      let s1 := match s0.slices.cal with
        | some c => if c.slice = n ∨ s0.spareSlice = n then s0.calEnd 5 else s0
        | none => s0
      let s2 := if s1.spareSlice = n then s1.wr F.SLC_ROLE1.SPARE 0xF else s1
      (s2.fenceSlice n kind).fillSpare

def execSliceFault (n : Fin 15) (kind ago : Nat) (s : State) : Host.Outcome State Fault Refusal :=
  done (sliceFault n kind ago s)

/-- The built-in test of slice `n` ends with measured coefficients (R163, R177, R563). A suspect that passes waits for a calibration
that runs. (DEDUCED, assumption 21.) -/
def sliceTestEnd (n : Nat) (m : SliceCoefs) (s : State) : State :=
  let pass := coefsOk m
  let returning := match s.slices.suspect with
    | some (_, a, _, second) => a == n && !second && pass
    | none => false
  if returning = true ∧ s.slices.cal.isSome = true then s
  else
    let s0 := (s.setSlices (fun v => { v with tests := v.tests.filter (·.1 ≠ n) })).showTests
    let s1 := s0.testDone n pass
    let s2 := if pass then s1.takeCoefs n m else s1
    let settled (s : State) : State := s.setSlices (fun v => { v with suspect := none })
    if pass = false ∨ (s2.unitHeld n = true) then
      -- a unit held at its limit keeps its last fault code
      let s3 := s2.wr (F.SLC_STAT.MODE n) slFenced
      let s4 := if s2.unitHeld n then s3 else (s3.wr (F.SLC_STAT.FAULT n) 5).setUnitFault n 5
      match s.slices.suspect with
      | some (_, a, b, _) => if a = n ∨ b = n then settled s4 else s4
      | none => s4
    else
      match s.slices.suspect with
      | some (f, a, b, second) =>
        if a = n ∧ second = false ∧ s2.roundsOf f ≠ 2 ∧ s2.role f = b then
          -- the suspect returns by the parallel run and swap (R163, step 4)
          let s3 := (s2.wrs [(F.SLC_STAT.MODE n, slParallel), (F.SLC_STAT.FAULT n, 0), (F.SLC_STAT.GAIN n, s2.funcGain f),
            (F.SLC_CAL_STAT.PHASE, 3), (F.SLC_CAL_STAT.BUSY, 1), (F.SLC_CAL_STAT.SLICE, n)])
          s3.setSlices (fun v => { v with
              suspect := some (f, a, b, true),
              cal := some { kind := .episode, slice := n, func := f, fib := s2.roundsOf f, keep := false, goAt := s.now,
                            rounds := none, calAt := some s.now, ended := true, aborted := false, unitReset := false,
                            role0 := s2.reg R.SLC_ROLE0, role1 := s2.reg R.SLC_ROLE1 } })
        else if b = n ∧ second = true then
          (settled (s2.sliceFree n)).event 0x0402 .warn n none 0 f 0 0
        else if a = n then settled (s2.sliceFree n) else s2.sliceFree n
      | none => s2.sliceFree n

/-- After the swap back of a resolved mismatch, the former spare runs its own test (R163, step 4). -/
def secondTest (s : State) : State :=
  match s.slices.suspect with
  | some (f, a, b, true) =>
    let mode := s.rd (F.SLC_STAT.MODE b)
    if s.slices.cal = none ∧ s.role f = a ∧ s.rd (F.SLC_STAT.FUNC b) = 0xF ∧ (mode = slSpare ∨ mode = slShadow ∨ mode = slOff) then
      (if s.spareSlice = b then (s.sliceTest b).wr F.SLC_ROLE1.SPARE 0xF else s.sliceTest b).fillSpare
    else s
  | _ => s

/-! ## What the slices give a shot's record (R151, R154, R167) -/

/-- A function of the shot's fibre, or a reference function, carries SUB at some instant of the trace. -/
def State.shotSub (s : State) (x t0 t1 : Nat) : Bool :=
  s.slices.subs.any (fun r => (coherentOf x r.func || isRef r.func) && decide (r.start < t1) &&
    (match r.stop with | some e => decide (t0 < e) | none => true))

/-- The trace spans a swap instant. -/
def State.shotCal (s : State) (x t0 t1 : Nat) : Bool :=
  s.slices.swaps.any (fun p => (coherentOf x p.1 || isRef p.1) && decide (t0 < p.2.1 ∧ p.2.1 < t1))

/-- Every channel of the shot carries SPLICE for a profile switch: launched in the adopting round, or spanning it (R151). -/
def State.shotSplice (s : State) (x round t0 t1 : Nat) : Bool :=
  s.slices.profRound.at x == some round ||
    (match s.slices.profAt.at x with
     | some t => decide (t0 < t ∧ t < t1)
     | none => false)

/-- The trace overlaps an intrusive calibration of a function of a set (R168). -/
def State.intruded (s : State) (on : Nat → Bool) (t0 t1 : Nat) : Bool :=
  s.slices.intrus.any (fun p => on p.1 && decide (p.2.1 < t1 ∧ t0 < p.2.2))

/-- The trace overlaps an intrusive calibration of a function that bears on the fibre's DAS shots (R168). -/
def State.shotIntrusive (s : State) (x t0 t1 : Nat) : Bool := s.intruded (fun f => coherentOf x f || isRef f) t0 t1

/-- Fault spans that bear on the DAS shots of a fibre and meet the samples from `t0` to `t1`, both included (R174, R220). -/
def State.shotSpans (s : State) (x t0 t1 : Nat) : List Span :=
  ((s.slices.spans.filter (fun p => (coherentOf x p.1 || isRef p.1) && decide (p.2.t0 ≤ t1 ∧ t0 ≤ p.2.t1))).map (·.2))

end Sys2Proof.Machine
end

