-- ==== Sys2Proof/Machine/Front.lean ====
section
/-!
DEFINITION. The front pipeline's sample arithmetic (R181–R198): splice normalisation, the Cordonnet estimator, tone separation,
the matched filter, differential phase, channel formation and the angle.
-/
namespace Sys2Proof.Machine

/-! ## Cordonnet (R186–R189) -/

/-- β of R186: atan2(REF_Q, REF_I) in 2π/2^20 rad. -/
def refAngle (r : RefSample) : Int := angleOf 20 r.q r.i

/-- Integer square root by bisection on bits. -/
def isqrtBits : Nat → Nat → Nat → Nat
  | 0, _, acc => acc
  | k + 1, n, acc =>
    let t := acc + 2 ^ k
    isqrtBits k n (if t * t ≤ n then t else acc)

def isqrt (n : Nat) : Nat := isqrtBits (Nat.log2 n / 2 + 1) n 0

/-- Amplitude of a reference sample is below LOCKMIN: compared in squares. -/
def refLow (lockmin : Nat) (r : RefSample) : Bool :=
  decide (r.i.natAbs * r.i.natAbs + r.q.natAbs * r.q.natAbs < lockmin * lockmin)

/-- Values of ψ kept: those of the longest trace with its emission term, and more. -/
def psiKept : Nat := 4_194_304

/-- One reference sample through the estimator (R186, R188): the estimator's state, whether a loss condition holds on the
sample, and whether it slipped. `served` says that both reference functions have a slice. -/
def refStep (dref ctc lockmin : Nat) (served lock : Bool) (r : RefSample) (c : Cordonnet) : Cordonnet × Bool × Bool :=
  let beta := refAngle r
  let d := if c.started then wrapI 20 (beta - c.beta) else 0
  let slip := decide (2 ^ 18 ≤ d.natAbs)
  let low := if refLow lockmin r then c.low + 1 else 0
  let bad := slip || r.ovr || decide (16 ≤ low) || !served
  let b := if c.started then c.b + d else beta
  let mean : Rat := if c.started then c.mean + ((b : Rat) - c.mean) / (2 ^ (ctc + 10) : Nat) else b
  -- ψ has LSB 2π/2^24: sixteen to one of β
  let base : Int := rndRat (((b : Rat) - mean) * 16)
  let regain := lock == false && bad == false && decide (1024 ≤ c.clean + 1)
  let hist := if regain then 0 else c.hist
  let old : Int := if lock = false ∨ regain = true ∨ hist < dref then 0 else c.psi.getD (dref - 1) 0
  let psi := wrapI 32 (base + old)
  let amp := isqrt (r.i.natAbs * r.i.natAbs + r.q.natAbs * r.q.natAbs)
  ({ c with beta := beta, b := b, mean := mean, started := true, at_ := c.at_ + 1, psi := (psi :: c.psi).take psiKept,
            hist := hist + 1, low := low, clean := if bad then 0 else c.clean + 1, amps := (amp :: c.amps).take 1000 }, bad, slip)

/-- Lock after a sample: lost at one that is bad, regained at the last of 1,024 clean ones (R188). -/
def lockAfter (lock bad : Bool) (clean : Nat) : Bool := if bad then false else lock || decide (1024 ≤ clean)

/-- A run of reference samples: the estimator, lock after it, whether a sample slipped, and the instants at which lock changed. -/
def refRun (dref ctc lockmin : Nat) (served : Bool) : Bool → List RefSample → Cordonnet → Cordonnet × Bool × Bool × List (Nat × Bool)
  | lock, [], c => (c, lock, false, [])
  | lock, r :: t, c =>
    let (c', bad, slip) := refStep dref ctc lockmin served lock r c
    let lock' := lockAfter lock bad c'.clean
    let (cEnd, lEnd, sEnd, ch) := refRun dref ctc lockmin served lock' t c'
    (cEnd, lEnd, slip || sEnd, if lock' = lock then ch else (c'.at_, lock') :: ch)

/-- Lock as FRP_CD_STAT holds it. -/
def State.cordLock (s : State) : Bool := s.rd F.FRP_CD_STAT.LOCK == 1

def State.refServed (s : State) : Bool := s.role 12 != 0xF && s.role 13 != 0xF

/-- Shots whose span from launch plus EMIT to trace end covers an instant take the bad lock report, on both fibres (R188, R189). -/
def cordSpoil (t : Nat) (s : State) : State :=
  fibres.foldl (fun s x => s.mapSlots x (fun sl =>
    if sl.launched && sl.verdict == none && decide (sl.tL + s.rd (F.FRP_CDT.EMIT x.idx) ≤ t ∧ t ≤ sl.tL + sl.tmin)
    then { sl with cordOk := false, causes := sl.causes ||| causeCord } else sl)) s

/-- Lock becomes false at an instant (R188). -/
def State.loseLock (s : State) (t : Nat) : State :=
  let s1 := s.wrs [(F.FRP_CD_STAT.LOCK, 0), (F.FRP_CD_STAT.LOST, 1)]
  cordSpoil t { s1 with cord := { s1.cord with lost := s1.cord.lost ++ [(t, none)] } }

/-- Lock becomes true at an instant; lock-false intervals older than the longest trace are forgotten. -/
def State.gainLock (s : State) (t : Nat) : State :=
  let s1 := s.wr F.FRP_CD_STAT.LOCK 1
  { s1 with cord := { s1.cord with
      lost := (s1.cord.lost.filter (fun p => match p.2 with | some e => decide (t < e + 10_000_000) | none => true)).map
        (fun p => match p.2 with | some _ => p | none => (p.1, some t)) } }

/-- Lock was false at some sample from `t0` to `t1` (R189). -/
def State.lockMissed (s : State) (t0 t1 : Nat) : Bool :=
  s.cord.lost.any (fun p => decide (p.1 ≤ t1) && (match p.2 with | some e => decide (t0 < e) | none => true))

/-- The slice that served function `f` at a slice-input time: the one before the first swap after it, else the present one. -/
def State.roleAt (s : State) (f t : Nat) : Nat :=
  match s.slices.swaps.find? (fun p => p.1 == f && decide (t < p.2.1)) with
  | some p => p.2.2
  | none => s.role f

/-- The reference slices count the over-range samples of a run whose first is taken at `t` (R155). -/
def countRefs (t : Nat) (refs : List RefSample) (s : State) : State :=
  let last := t + refs.length - 1
  [12, 13].foldl (fun (s : State) f =>
    [s.roleAt f t, s.roleAt f last].eraseDups.foldl (fun (s : State) n =>
      countOvr n last (refs.zipIdx.map (fun r => r.1.ovr && s.roleAt f (t + r.2) == n)) s) s) s

/-- Run the reference samples that end now through the estimator, and show lock, slips and the mean amplitude of the last 1 µs (R186,
R188, R217). Samples that do not follow on from those before begin a new history of ψ. With EN = 0 the estimator rests. (DEDUCED,
assumption 26.) -/
def State.cordRun (s : State) (refs : List RefSample) : State :=
  let start := s.now - refs.length
  let s0 := if refs.isEmpty then s else countRefs start refs s
  if s.rd F.FRP_CD_CFG.EN = 0 ∨ refs.isEmpty = true then s0
  else
    let c0 := s.cord
    let c1 := { c0 with at_ := start, psi := if c0.at_ = start then c0.psi else [] }
    let (c, _, slip, changes) :=
      refRun (s.rd F.FRP_CD_CFG.DREF) (s.rd F.FRP_CD_CFG.CTC) (s.rd F.FRP_CD_LOCK.LOCKMIN) s.refServed s.cordLock refs c1
    let s1 := ({ s0 with cord := c }).wrs [(F.FRP_CD_STAT.AMP, satN 16 (sumN c.amps / max 1 c.amps.length)),
      (F.FRP_CD_STAT.SLIP, if slip then 1 else s.rd F.FRP_CD_STAT.SLIP)]
    changes.foldl (fun s p => if p.2 then s.gainLock p.1 else s.loseLock p.1) s1

/-- ψ at an instant (R186, R187): 0 with EN = 0; of an instant without a sample the value is open. -/
def State.psiAt (s : State) (t : Int) : Int :=
  if s.rd F.FRP_CD_CFG.EN = 0 then 0
  else if t ≤ s.cord.at_ ∧ (s.cord.at_ : Int) - t < s.cord.psi.length then s.cord.psi.getD ((s.cord.at_ : Int) - t).toNat 0
  else wrapI 32 (Config.openPsi t.toNat)

/-- CORDONNET_LOCK_LOST (R188): reference samples, or the loss of a reference function, end lock. -/
def cordLost (refs : List RefSample) (s : State) : State :=
  let s1 := s.cordRun refs
  if s1.rd F.FRP_CD_CFG.EN = 1 ∧ s1.cordLock = true ∧ s1.refServed = false then
    ({ s1 with cord := { s1.cord with clean := 0 } }).loseLock s1.now
  else s1

def execCordonnetLockLost (refs : List RefSample) (s : State) : Host.Outcome State Fault Refusal := done (cordLost refs s)

/-- CORDONNET_LOCK_REGAINED (R188): lock returns after 1,024 clean samples. -/
def cordRegained (refs : List RefSample) (s : State) : State := s.cordRun refs

def execCordonnetLockRegained (refs : List RefSample) (s : State) : Host.Outcome State Fault Refusal :=
  done (cordRegained refs s)

/-! ## Stage 1: scale and splice windows (R184, R185) -/

/-- u of R184. -/
def spliceScale (mag g : Nat) (x : Int) : Int :=
  satI 23 (rndDiv (x * 2 ^ (7 - g) * 32768) (if mag = 0 then 1 else mag))

/-- u of a function's word taken at a slice-input time, by the coefficients of the slice that produced it. -/
def State.scaled (s : State) (f t : Nat) (w : SliceWord) : Int :=
  spliceScale (s.rd (F.SLC_GCAL_DATA.MAG (6 * s.roleAt f t + w.gain))) w.gain w.code

/-- DELAY of a function's word. -/
def State.wordDelay (s : State) (f t : Nat) (w : SliceWord) : Int := s.rdI (F.SLC_GCAL_DATA.DELAY (6 * s.roleAt f t + w.gain))

/-! ## Stage 3: mixer and separation (R190, R191) -/

/-- The pair's delay phase θ_k(g) in 2π/2^20 rad: f in MHz, delays in 0.25 ps. -/
def thetaOf (f : Nat) (dI dQ : Int) : Int := rndDiv ((f : Int) * (dI + dQ) * 1048576) 8_000_000

/-- The mixer phase Φ in 2π/2^20 rad: `rel` is n − n_L, ψ values in 2π/2^24 (R190). -/
def mixPhase (f : Nat) (rel : Int) (theta cs psiL psi : Int) : Int :=
  rndDiv (((f : Int) * rel) % 1000 * 1048576) 1000 + theta + rndDiv (cs * (psiL - psi)) 16

/-- A table entry of 18 bits: cosine and sine of a phase in 2π/2^20, with 17 fraction bits. -/
def cosTable (ph : Int) : Int := satI 18 (rndDiv (fxCosTurn ph 1048576) (2 ^ 47))
def sinTable (ph : Int) : Int := satI 18 (rndDiv (fxSinTurn ph 1048576) (2 ^ 47))

/-- A complex sample. -/
structure Cx where
  re : Int
  im : Int
deriving DecidableEq, Repr

def Cx.zero : Cx := { re := 0, im := 0 }
def Cx.sat (w : Nat) (c : Cx) : Cx := { re := satI w c.re, im := satI w c.im }
def Cx.add (a b : Cx) : Cx := { re := a.re + b.re, im := a.im + b.im }
def Cx.sumL (l : List Cx) : Cx := l.foldl Cx.add Cx.zero
/-- a · conj b. -/
def Cx.mulConj (a b : Cx) : Cx := { re := a.re * b.re + a.im * b.im, im := a.im * b.re - a.re * b.im }
def Cx.abs2 (a : Cx) : Nat := a.re.natAbs * a.re.natAbs + a.im.natAbs * a.im.natAbs

/-- v = sat24(rnd(z (cos Φ − j sin Φ))) (R190). -/
def mixed (z : Cx) (ph : Int) : Cx :=
  let c := cosTable ph
  let t := sinTable ph
  { re := satI 24 (rndDiv (z.re * c + z.im * t) 131072), im := satI 24 (rndDiv (z.im * c - z.re * t) 131072) }

/-- What the mixer of one tone needs: its frequency, the launch instant of the shot in flight, ψ at that instant plus EMIT, and the
shift of the reception term (R187, R190). -/
structure MixIn where
  f : Nat
  tL : Nat
  psiL : Int
  skew : Int
  cs : Int
deriving DecidableEq, Repr

/-- The mixer of a tone launched at `tL` on fibre `x`. -/
def State.mixIn (s : State) (x f tL : Nat) : MixIn :=
  { f := f, tL := tL, psiL := s.psiAt (tL + s.rd (F.FRP_CDT.EMIT x) : Nat), skew := s.rdI (F.FRP_CDT.RXSKEW x),
    cs := if s.rd F.FRP_CD_CFG.CSGN = 0 then 1 else -1 }

/-- A pair's I and Q words. -/
def wordPair (w : FrontWord) (pair : Nat) : SliceWord × SliceWord := if pair = 0 then (w.xi, w.xq) else (w.yi, w.yq)

/-- The mixed stream of a pair; `t` is the slice-input time of the first word. -/
def State.mixPair (s : State) (x pair : Nat) (m : MixIn) : Nat → List FrontWord → List Cx
  | _, [] => []
  | t, w :: rest =>
    let fI := 4 * x + 2 * pair
    let (wi, wq) := wordPair w pair
    let z : Cx := { re := s.scaled fI t wi, im := s.scaled (fI + 1) t wq }
    let theta := thetaOf m.f (s.wordDelay fI t wi) (s.wordDelay (fI + 1) t wq)
    mixed z (mixPhase m.f ((t : Int) - m.tL) theta m.cs m.psiL (s.psiAt ((t : Int) - m.skew))) :: s.mixPair x pair m (t + 1) rest

/-- STEP or OVR on any coherent function of a word. -/
def wordStep (w : FrontWord) : Bool := w.xi.step || w.xq.step || w.yi.step || w.yq.step
def wordOvr (w : FrontWord) : Bool := w.xi.ovr || w.xq.ovr || w.yi.ovr || w.yq.ovr

/-- Marks of samples within splice windows: each STEP and the five samples after it (R185). `k` counts what is left of the
window that the samples before opened. -/
def windowMarks : Nat → List FrontWord → List Bool
  | _, [] => []
  | k, w :: t => if wordStep w then true :: windowMarks 5 t else decide (0 < k) :: windowMarks (k - 1) t

/-- Interpolated value i of a span of length L between two samples (R185). -/
def lerp (a b : Cx) (i l : Nat) : Cx :=
  { re := a.re + rndDiv ((i + 1 : Int) * (b.re - a.re)) (l + 1), im := a.im + rndDiv ((i + 1 : Int) * (b.im - a.im)) (l + 1) }

/-- Replace marked spans by straight lines: `prev` is the last sample outside a window, `todo` the length of the span begun. -/
def spliceFill : Nat → Cx → List (Cx × Bool) → List Cx
  | 0, _, _ => []
  | _, _, [] => []
  | n + 1, prev, (v, false) :: t => let _ := prev; v :: spliceFill n v t
  | n + 1, prev, (v, true) :: t =>
    let l := 1 + (t.takeWhile (·.2)).length
    let rest := t.drop (l - 1)
    let next := match rest with
      | (b, _) :: _ => b
      | [] => prev
    let _ := v
    (List.range l).map (fun i => lerp prev next i l) ++ spliceFill n next rest

/-- A mixed stream with its splice windows filled. -/
def spliced (l : List Cx) (marks : List Bool) : List Cx :=
  spliceFill l.length (l.headD Cx.zero) (l.zip marks)

/-- Coefficient of tap `j` of the 65: symmetric about the centre, and half-band at P = 2, so that the centre is one half and every
other tap off it is 0 (R191). -/
def sepTap (p j : Nat) : Int :=
  let d := (j - 32) + (32 - j)
  if p = 2 then (if d = 0 then 2 ^ 39 else if d % 2 = 0 then 0 else Config.sepHalf p d) else Config.sepHalf p d

/-- The separated value whose window centres on place `i` of a stream (R191). -/
def separated (p : Nat) (l : List Cx) (i : Nat) : Cx :=
  if p = 1 then l.getD i Cx.zero
  else
    let at_ (j : Nat) : Cx := if i + j < 32 then Cx.zero else l.getD (i + j - 32) Cx.zero
    let sum (f : Cx → Int) : Int := (List.range 65).foldl (fun a j => a + sepTap p j * f (at_ j)) 0
    { re := satI 24 (rndDiv (sum (·.re)) (2 ^ 40)), im := satI 24 (rndDiv (sum (·.im)) (2 ^ 40)) }

/-! ## Stage 4: matched filter (R193) -/

/-- Mean envelope over an interval of synthesizer samples, with 15 fraction bits: a 16-bit weight. -/
def meanEnv (shape roll w n0 n1 : Nat) : Int :=
  if n1 ≤ n0 then 0
  else satI 16 (rndDiv ((List.range (n1 - n0)).foldl (fun a k => a + envelope shape roll w (n0 + k)) 0) (2 ^ 49 * ((n1 - n0 : Nat) : Int)))

/-- Sum of `n` grid values from place `i` on. -/
def gridSum (l : List Cx) (i n : Nat) : Cx := Cx.sumL ((l.drop i).take n)

/-- A complex value divided with rounding and narrowed to 24 bits. -/
def Cx.divRound (c : Cx) (d : Int) : Cx := if d ≤ 0 then Cx.zero else { re := satI 24 (rndDiv c.re d), im := satI 24 (rndDiv c.im d) }

def Cx.scale (k : Int) (c : Cx) : Cx := { re := k * c.re, im := k * c.im }

/-- y at place `i` of the grid stream `l` of pitch `p`, for a pulse (R193). The coded form is divided by the points of a chip too, so that
a constant return gives its amplitude (R194). (DEDUCED, assumption 110.) -/
def matched (p : Nat) (pl : Pulse) (l : List Cx) (i : Nat) : Cx :=
  if pl.coded then
    let wc := pl.w / pl.chips
    let n := wc / p
    let h (k : Nat) : Int :=
      (if pl.code / 2 ^ k % 2 = 1 then -1 else 1) * meanEnv pl.shape pl.roll pl.w (2 * wc * k) (2 * wc * (k + 1))
    let num := Cx.sumL ((List.range pl.chips).map (fun k => Cx.scale (h k) (gridSum l (i + k * n) n)))
    -- each S is a sum over W_c / P points of a constant return: the quotient carries that count
    let den : Int := ((List.range pl.chips).map (fun k => ((h k).natAbs : Int))).foldl (· + ·) 0 * n
    num.divRound den
  else if pl.shape = 0 ∨ (pl.shape = 1 ∧ pl.roll = 0) then (gridSum l i (pl.w / p)).divRound ((pl.w / p : Nat) : Int)
  else
    let edge (j : Nat) : Nat := (rndDiv ((j * pl.w : Nat) : Int) ((8 * p : Nat) : Int)).toNat
    let e (j : Nat) : Int := meanEnv pl.shape pl.roll pl.w (2 * p * edge j) (2 * p * edge (j + 1))
    let num := Cx.sumL ((List.range 8).map (fun j => Cx.scale (e j) (gridSum l (i + edge j) (edge (j + 1) - edge j))))
    let den : Int := ((List.range 8).map (fun j => e j * ((edge (j + 1) - edge j : Nat) : Int))).foldl (· + ·) 0
    num.divRound den

/-! ## Stages 5 to 8 (R195–R198) -/

/-- A magnitude within 1 % of |d| (R197): the free value picks one of the whole numbers the rule allows. (DESIGN CHOICE, assumption 24.) -/
def nearAbs (free : Nat) (d : Cx) : Nat :=
  let n2 := Cx.abs2 d
  let lo := isqrt (n2 * 9801 / 10000) + (if isqrt (n2 * 9801 / 10000) * isqrt (n2 * 9801 / 10000) * 10000 < n2 * 9801 then 1 else 0)
  let hi := isqrt (n2 * 10201 / 10000)
  if hi ≤ lo then hi else lo + free % (hi - lo + 1)

/-- D_k(c) and A_k(c) of R197 over the products d and their magnitudes. -/
def channelSum (ds : List Cx) (mags : List Nat) : Cx × Nat :=
  (Cx.sumL ds, if mags.isEmpty then 0 else satN 50 (rndDiv (sumN mags : Nat) (mags.length : Int)).toNat)

/-- φ of R198: within one LSB of 2π/2^20 rad of the argument, 0 for D = 0. The free value picks one of the whole numbers that the
rule allows: three where the argument is a whole number of LSBs, which it is on the axes and the diagonals alone, else the two
around it. (DESIGN CHOICE, assumption 24.) -/
def phaseOf (free : Nat) (d : Cx) : Int :=
  if d.re = 0 ∧ d.im = 0 then 0
  else if d.re = 0 ∨ d.im = 0 ∨ d.re.natAbs = d.im.natAbs then wrapI 20 (angleOf 20 d.im d.re + ((free % 3 : Nat) : Int) - 1)
  else
    let a := angleOf 40 d.im d.re
    wrapI 20 (a / 2 ^ 20 + if a % 2 ^ 20 = 0 then 0 else ((free % 2 : Nat) : Int))

/-! ## Grid streams and the coherent power (R191, R195) -/

/-- The grid values of both pairs from point `p0` on, `n` of them, of a stream whose first word is of point `first`; the pulse's
matched filter is applied (R190–R193). -/
structure GridIn where
  x : Nat
  p : Nat
  mix : MixIn
  pl : Pulse
  first : Int
  t0 : Nat
  ws : List FrontWord
deriving DecidableEq, Repr

/-- Separated grid values of a pair from point `p0` on. -/
def State.pairGrid (s : State) (g : GridIn) (pair p0 n : Nat) : List Cx :=
  let stream := spliced (s.mixPair g.x pair g.mix g.t0 g.ws) (windowMarks 0 g.ws)
  (List.range n).map (fun k => separated g.p stream ((p0 + k * g.p : Nat) - g.first : Int).toNat)

/-- The grid stream of a shot's trace: its words begin at point `first`. -/
def State.gridOf (s : State) (x : Fibre) (tL f : Nat) (pl : Pulse) (first : Int) (ws : List FrontWord) : GridIn :=
  { x := x.idx, p := (pitchOf (s.rd (F.SHOT_CHAN.PP x.idx))).getD 1, mix := s.mixIn x.idx f tL, pl := pl, first := first,
    t0 := ((tL + s.rd (F.SHOT_LRP.DELAY x.idx) : Nat) + first : Int).toNat, ws := ws }

/-- a_k(p) at the grid points 0, P, … of a trace, `n` of them (R195). -/
def State.powers (s : State) (g : GridIn) (n : Nat) : List Nat :=
  let m := n + g.pl.w / g.p
  let gx := s.pairGrid g 0 0 m
  let gy := s.pairGrid g 1 0 m
  (List.range n).map (fun i =>
    satN 48 (s.weight g.x 0 * Cx.abs2 (matched g.p g.pl gx i) + s.weight g.x 1 * Cx.abs2 (matched g.p g.pl gy i)))

/-! ## Metrics (R24, R204, R205, R212) -/

/-- A power metric in 1/16 dB. -/
def dbOf (v : Nat) : Int := satI 16 (if v = 0 then Config.dbZero else dB16 v 1)

/-- A mean, rounded to nearest (R183). -/
def meanN (l : List Nat) : Nat := if l.isEmpty then 0 else (rndDiv (sumN l : Nat) (l.length : Int)).toNat

/-- The values of the grid points from `lo` to `hi`, both ends included. -/
def pointsIn (p : Nat) (a : List Nat) (lo hi : Nat) : List Nat := (a.take (hi / p + 1)).drop (ceilDiv lo p)

/-- The largest value of a list and its first place. -/
def peakOf (l : List Nat) : Nat × Nat :=
  (l.zipIdx).foldl (fun m q => if m.1 < q.1 then q else m) (l.headD 0, 0)

/-- Successive blocks of `n` values, the last one shorter if need be, by fuel. -/
def blocksOf (n : Nat) : Nat → List Nat → List (List Nat)
  | 0, _ => []
  | k + 1, l => if l.isEmpty then [] else l.take n :: blocksOf n k (l.drop n)

/-- The metrics of a trace (R24, R204): E, N with its grid point, M, the guard and end means, the point of the largest amplitude
from point 200 to the fibre end, and the 64-point means, in blocks from point 0 on. (DESIGN CHOICE, assumption 89.) -/
structure ShotMetrics where
  e : Nat
  n : Nat
  nPoint : Nat
  m : Nat
  guard : Nat
  endMean : Nat
  peak : Nat
  blocks : List Nat
deriving DecidableEq, Repr

/-- Metrics over a_k at the grid points: the fibre's length, its guard window and the last point of the 64-point means. -/
def metricsOf (p lpts : Nat) (gw : Nat × Nat) (last : Nat) (a : List Nat) : ShotMetrics :=
  let near := peakOf (pointsIn p a 0 48)
  { e := satN 32 (sumN (pointsIn p a 20 200) / 2 ^ 24), n := near.1, nPoint := near.2 * p, m := meanN (pointsIn p a 50 200),
    guard := if gw.1 < gw.2 then meanN (pointsIn p a gw.1 (gw.2 - 1)) else 0,
    endMean := meanN (pointsIn p a (lpts - 1000) (lpts - 1)),
    peak := ceilDiv 200 p * p + (peakOf (pointsIn p a 200 (lpts - 1))).2 * p,
    blocks := (blocksOf (64 / p) a.length (a.take (last / p + 1))).map meanN }

/-- NF of R205: the mean of a_k(p) over the tones `fs` of the plan and over the samples before `t0`, with every output dark. -/
def State.noiseFloor (s : State) (x : Fibre) (fs : List Nat) (pl : Pulse) (t0 : Nat) (dark : List FrontWord) : Nat :=
  let p := (pitchOf (s.rd (F.SHOT_CHAN.PP x.idx))).getD 1
  meanN (fs.flatMap (fun f =>
    s.powers { x := x.idx, p := p, mix := s.mixIn x.idx f t0, pl := pl, first := 0, t0 := t0 - dark.length, ws := dark }
      ((dark.length - pl.w) / p)))

end Sys2Proof.Machine
end

