-- ==== Sys2Proof/Machine/Phase.lean ====
section
/-!
DEFINITION. Stages 8 and 9 of the front pipeline for one channel (R198–R203) with erasures and runs (R228–R231), as a pure
function of the channel's state and one slot.
-/
namespace Sys2Proof.Machine

/-- A tone before its first shot (R202). -/
def freshTone : Tone89 := { u := 0, o := 0, amp := 0, seen := false }

/-- A channel's stages 8 and 9 at a start (R202). -/
def freshCore : Core89 :=
  { tones := List.replicate 4 freshTone, v1 := 0, v2 := 0, cnt := 0, run := 0, vb := 0, wait := [], waitV := [], held := false,
    last := none }

/-- What stages 8 and 9 take from FRP_CFG and the plan: FTH, FABS, STSH, AID and N_T. -/
structure StitchCfg where
  fth : Nat
  fabs : Nat
  stsh : Nat
  aid : Bool
  nT : Nat
deriving DecidableEq, Repr

def stitchCfg (frp : Word) (nT : Nat) : StitchCfg :=
  { fth := wordField 16 8 frp, fabs := wordField 24 6 frp, stsh := wordField 8 4 frp, aid := wordField 4 1 frp == 1, nT := nT }

/-- V_pred of R199. -/
def vPred (c : Core89) : Int :=
  match c.cnt with
  | 0 => 0
  | 1 => c.v1
  | _ => wrapI 32 (2 * c.v1 - c.v2)

/-- The fading test of R203: `amps` are the latest A_j of the channel's tones, the shot's own included. -/
def isFaded (cfg : StitchCfg) (a : Nat) (amps : List Nat) : Bool :=
  let m := amps.foldl max 0
  decide (a * 256 < cfg.fth * m ∨ a < 2 ^ cfg.fabs)

/-- O_k rounded to a whole LSB of U and V (R200). -/
def wholeOfs (o : Int) : Int := rndDiv o 256

/-- The offset correction of R200 over the tones' offsets: O[k] takes g and the residue, each offset loses g / N_T. -/
def correctOfs (nT k : Nat) (g : Int) (tones : List Tone89) : List Tone89 :=
  let part := rndDiv g (max 1 (nT : Int))
  (List.range tones.length).map (fun j =>
    let t := tones.getD j freshTone
    if nT ≤ j then t
    else if j = k then { t with o := wrapI 40 (t.o + g - part + ((nT : Int) * part - g)) }
    else { t with o := wrapI 40 (t.o - part) })

/-- V(n) of a shot with its core and whether it faded, for a shot that is not erased (R198–R200, R202, R203). -/
def stitchShot (cfg : StitchCfg) (k : Nat) (phi : Int) (amp : Nat) (zero : Bool) (c : Core89) : Core89 × Int × Bool :=
  let t := c.tones.getD k freshTone
  let tones := setAt c.tones k { t with amp := amp }
  let faded := zero || isFaded cfg amp ((tones.take cfg.nT).map (·.amp))
  if t.seen = false then
    let vp := if c.cnt = 0 then 0 else c.v1
    ({ c with tones := setAt tones k { u := phi, o := wrapI 40 ((phi - vp) * 256), amp := amp, seen := true } }, vp, faded)
  else
    let vp := vPred c
    let x := if cfg.aid then wrapI 32 (vp + wholeOfs t.o) else t.u
    let u := wrapI 32 (x + wrapI 20 (phi - x))
    let tones := setAt tones k { t with u := u, amp := amp }
    if faded then ({ c with tones := tones }, if cfg.nT ≤ c.run then c.v1 else vp, true)
    else
      let v := wrapI 32 (u - wholeOfs t.o)
      let g := rndDiv (wrapI 32 (v - vp) * 256) (2 ^ cfg.stsh)
      ({ c with tones := correctOfs cfg.nT k g tones }, v, false)

/-- V(n) of an erased sample (R228). -/
def stitchErased (cfg : StitchCfg) (c : Core89) : Int := if cfg.nT ≤ c.run then c.v1 else vPred c

/-- The history after a stitched sample with value `v`. -/
def pushV (v : Int) (plain : Bool) (c : Core89) : Core89 :=
  { c with v2 := c.v1, v1 := v, cnt := min 2 (c.cnt + 1), run := if plain then 0 else c.run + 1 }

/-- A sample with its Δφ narrowed to the 24-bit format (R201). -/
def Stitched.withD (s : Stitched) (d : Int) : Stitched := { s with dphi := satI 24 d, sat := satI 24 d != d }

/-- Quality of an erased sample: SPLICE, SUBST and CAL of its shot, and ERASED (R231). -/
def erasedQ (q : Nat) : Nat := qPart q 2 + qPart q 5 + qPart q 7 + 16

/-- Differences of the withheld values, from the last one before the run: the samples of a run as held fill. -/
def heldOut : Int → List Int → List Stitched → List Stitched
  | _, _, [] => []
  | _, [], _ => []
  | prev, v :: vs, s :: t => s.withD (wrapI 32 (v - prev)) :: heldOut v vs t

/-- The deadline of a run passes (R230): its samples leave with the values of R228, later ones follow as they come. (DEDUCED, assumption
27.) -/
def releaseHeld (c : Core89) : Core89 × List Stitched :=
  if c.wait.isEmpty then (c, [])
  else ({ c with wait := [], waitV := [], held := true }, heldOut c.vb c.waitV c.wait)

/-- Samples of an interpolated fill: the j-th of m + 1 shares of D (R230). -/
def fillOut (d : Int) (m : Nat) : Nat → List Stitched → List Stitched
  | _, [] => []
  | j, s :: t =>
    s.withD (rndDiv ((j + 1 : Int) * d) (m + 1) - rndDiv ((j : Int) * d) (m + 1)) :: fillOut d m (j + 1) t

/-- The channel's state through one slot, and the stitched samples that leave stage 9. An open run stands within its
deadline here: one that does not has been released before. An erased slot carries no value. -/
def stitch (cfg : StitchCfg) (erased : Bool) (s : Stitched) (phi : Int) (amp : Nat) (zero : Bool) (c : Core89) : Core89 × List Stitched :=
  let here (c : Core89) : Core89 := { c with last := some (s.round, s.tone) }
  if erased then
    let v := stitchErased cfg c
    let e := ({ s with q := erasedQ s.q }).withD (wrapI 32 (v - c.v1))
    let c1 := here (pushV v false c)
    if c.held then (c1, [e])
    else ({ c1 with vb := if c.wait.isEmpty then c.v1 else c.vb, wait := c.wait ++ [e], waitV := c.waitV ++ [v] }, [])
  else
    let (cs, v, faded) := stitchShot cfg s.tone phi amp zero c
    let e := ({ s with q := s.q + (if faded then 8 else 0) }).withD (wrapI 32 (v - c.v1))
    let c1 := here (pushV v (!faded) cs)
    if c.held then ({ c1 with held := false }, [{ e with q := erasedQ s.q }])
    else if c.wait.isEmpty then (c1, [e])
    else
      let d := wrapI 32 (v - c.vb)
      let m := c.wait.length
      ({ c1 with wait := [], waitV := [], v2 := wrapI 32 (c.vb + rndDiv ((m : Int) * d) (m + 1)) },
        fillOut d m 0 (c.wait ++ [e]))

/-- The samples of a tone-set change or start: an open run leaves as held fill and the channel starts afresh (R202). (DEDUCED,
assumption 27.) -/
def restartCore (c : Core89) : Core89 × List Stitched :=
  let (c1, out) := releaseHeld c
  ({ freshCore with last := c1.last }, out)

end Sys2Proof.Machine
end

