-- ==== Sys2Proof/Machine/Recall.lean ====
section
/-!
DEFINITION. The recall window (R427–R432): the ring of compact records, its triggers, export and index.
-/
namespace Sys2Proof.Machine

/-- GND_RSTAT.STATE codes (R441). -/
def rcOff : Nat := 0
def rcArmed : Nat := 1
def rcPost : Nat := 2
def rcHeld : Nat := 3

def State.rcState (s : State) : Nat := s.rd F.GND_RSTAT.STATE

def State.setRecall (s : State) (f : Recall → Recall) : State :=
  (s.modGround (fun q => { q with rcl := f s.ground.rcl }))

/-- Pages of a list of ring records, packed across pages (R427). -/
def ringPages (l : List RingRec) : Nat := (l.flatMap RingRec.pagesOf).eraseDups.length

/-- Where the next record of the ring begins. -/
def Recall.end_ (v : Recall) : Nat := v.ring.foldl (fun a r => max a (r.off + r.bytes)) 0

/-- The ring takes a record: pages of the run that it does not hold yet take free pages, which the front pipeline writer writes. -/
def ringAppend (r : RingRec) (s : State) : State :=
  let v := s.ground.rcl
  let run := v.run
  let new := r.pagesOf.filter (fun p => !(run.map (·.1)).contains p)
  let fr := takeFree (s.usedPages false) new.length
  (s.setRecall (fun v => { v with ring := v.ring ++ [r], frames := run ++ new.zip fr })).request .front true (fr.map .dram)

/-- Records that belong to the ring: the committed ones. -/
def committedRing (l : List RingRec) : List RingRec := l.filter (fun r => !r.spec)

/-! ## The compact form (R427, R430) -/

/-- OR of the codes of each group of 16 channels. -/
def groupCodes : Nat → List Nat → List Nat
  | 0, _ => []
  | n + 1, l => if l.isEmpty then [] else (l.take 16).foldl (· ||| ·) 0 :: groupCodes n (l.drop 16)

/-- The payload bytes of a compact record: 24-bit values, group codes, padding. -/
def compactPayload (values : List Int) (codes : List Nat) : List Word :=
  bytesToWords (values.flatMap (fun v => leBytes 3 (unsgn 24 (satI 24 v))) ++
    (groupCodes codes.length codes).map (BitVec.ofNat 8))

/-- The value of channel `i` and the code of its group in a compact record of `ns` channels. -/
def compactValue (bytes : List Byte) (i : Nat) : Int := sgn 24 (leNat ((bytes.drop (3 * i)).take 3))
def compactCode (bytes : List Byte) (ns i : Nat) : Nat := (bytes.getD (3 * ns + i / 16) 0).toNat

/-- The exported form of a compact record: 32-bit values and the group's code for each channel (R430). -/
def exportRecord (r : Record) : Record :=
  let bytes := wordsToBytes r.payload
  { r with payload := (List.range r.ns).map (fun i => w32I (compactValue bytes i)) ++
      packQuality ((List.range r.ns).map (compactCode bytes r.ns)) }

/-! ## The index (R431) -/

/-- Write a recall index record: event and cause codes. -/
def recallIndex (event cause : Nat) (s : State) : State :=
  let ring := committedRing s.ground.rcl.ring
  let lab (o : Option RingRec) : Nat := match o with | some r => r.label | none => 0
  let o := lab ring.head?
  let n := lab ring.getLast?
  let t := s.ground.rcl.trigAt
  let r : Record := {
    kind := 0, fibre := s.rd F.GND_RCFG.FIBRE, pic := false, bad := false, ns := 10, h1 := 0, h2 := w32 s.tbNs, h3 := 0,
    payload := [w32 event, w32 cause, w32 t, w32 (t / 2 ^ 32), w32 o, w32 (o / 2 ^ 32), w32 n, w32 (n / 2 ^ 32),
      w32 (ringPages ring), w32 (s.rd F.GND_RCFG.FIBRE + 2 * s.rd F.GND_RCFG.SET)],
    label := s.tbNs, born := 0 }
  (s.produce 125 r .queued noTags none).1

/-! ## States (R428, R429) -/

/-- Drop oldest whole records until the ring holds at most `pages` pages. -/
def trimRing (pages : Nat) : Nat → List RingRec → List RingRec
  | 0, l => l
  | n + 1, l => if ringPages l ≤ pages then l else trimRing pages n (l.drop 1)

/-- The window is full: HELD, with its index record; what is still speculative leaves. -/
def recallHold (s : State) : State :=
  recallIndex 2 (s.rd F.GND_RSTAT.CAUSE)
    ((s.wr F.GND_RSTAT.STATE rcHeld).setRecall (fun r => { r with ring := committedRing r.ring }))

/-- A committed record joins the ring (R428, R429). -/
def ringCommitOne (r : RingRec) (s : State) : State :=
  let pages := s.rd F.GND_RPAGES.RPAGES
  let st := s.rcState
  if st = rcArmed ∨ st = rcPost then
    let old := s.ground.rcl.ring
    let ring := trimRing pages old.length (committedRing old ++ [{ r with spec := false }])
    let post := if st = rcPost then s.ground.rcl.postBytes + r.bytes else 0
    let s1 := s.setRecall (fun v => { v with ring := ring ++ old.filter (fun q => q.spec && q.label != r.label), postBytes := post })
    if st = rcPost ∧ pages * (100 - s.rd F.GND_RCFG.PRE) ≤ 100 * (post / 4096) then recallHold s1 else s1
  else s

/-- Commit the ring records of fibre `x` up to a round (R417, R428). -/
def ringCommit (x round : Nat) (s : State) : State :=
  if s.rd F.GND_RCFG.FIBRE = x then
    foldS ringCommitOne (s.ground.rcl.ring.filter (fun r => r.spec && decide (r.round ≤ round))) s
  else s

/-- Discard speculative ring records of fibre `x` that bear on a round or a later one (R225, R427). -/
def ringDiscard (x round : Nat) (s : State) : State :=
  if s.rd F.GND_RCFG.FIBRE = x then
    s.setRecall (fun v => { v with ring := v.ring.filter (fun r => ¬ (r.spec = true ∧ (round ≤ r.round ∨ round + 1 ≤ r.data.born))) })
  else s

/-- The recall writer takes an output of its source set (R427); a value beyond 24 bits sets SAT (R250). -/
def recallWrite (x j : Nat) (full : Record) (values : List Int) (codes : List Nat) (round : Nat) (s : State) : State :=
  let st := s.rcState
  if s.rd F.GND_RCFG.EN = 1 ∧ s.rd F.GND_RCFG.FIBRE = x ∧ s.rd F.GND_RCFG.SET = j ∧ (st = rcArmed ∨ st = rcPost) then
    let r : RingRec := {
      data := { full with payload := compactPayload values codes }, off := s.ground.rcl.end_,
      bytes := (16 + 3 * full.ns + ceilDiv full.ns 16 + 3) / 4 * 4, spec := true, round := round, label := full.label }
    let s1 := ringAppend r s
    if values.any (fun v => satI 24 v != v) then s1.wr (F.FLT_DSSTAT.SAT x j) 1 else s1
  else s

/-- A trigger (R429): taken while ARMED, else lost. -/
def recallTrig (cause : Nat) (s : State) : State :=
  if s.rcState = rcArmed then
    recallIndex 1 cause
      ((s.wrs [(F.GND_RSTAT.STATE, rcPost), (F.GND_RSTAT.CAUSE, cause)]).setRecall (fun v =>
        { v with postBytes := 0, trigAt := s.tbNs }))
  else if s.rcState = rcOff then s
  else (s.bump F.GND_RSTAT.TRIGLOST).event 0x0E01 .warn noUnit none 0 0 0 0

/-- RELEASE (R429): the window empties and is ARMED again. (DESIGN CHOICE, assumption 54.) -/
def recallRelease (s : State) : State :=
  if s.rcState = rcHeld then
    let s1 := recallIndex 3 (s.rd F.GND_RSTAT.CAUSE) s
    (s1.wrs [(F.GND_RSTAT.STATE, rcArmed), (F.GND_RSTAT.EXPBUSY, 0)]).setRecall (fun v =>
      { v with ring := [], postBytes := 0, exporting := [] })
  else s

/-- EXPORT (R430). (DESIGN CHOICE, assumption 54.) -/
def recallExport (s : State) : State :=
  if s.rcState ≠ rcHeld then s.answer .refused
  else if s.rd F.GND_RSTAT.EXPBUSY = 1 then s.answer .busy
  else ((s.wr F.GND_RSTAT.EXPBUSY 1).setRecall (fun v => { v with exporting := v.ring })).answer .ok

/-- One record of a running export, when EXPBOB has room for it (R430). (DESIGN CHOICE, assumption 54.) -/
def exportStep (s : State) : State :=
  if s.rd F.GND_RSTAT.EXPBUSY = 1 then
    match s.ground.rcl.exporting with
    | [] => s.wr F.GND_RSTAT.EXPBUSY 0
    | r :: t =>
      let (s1, ok) := s.produce (s.rd F.GND_RCFG.EXPBOB) (exportRecord r.data) .queued noTags none
      if ok then
        let s1 := s1.request .export_ false ((s1.ground.rcl.run.filter (fun p => r.pagesOf.contains p.1)).map (fun p => .dram p.2))
        let s2 := s1.setRecall (fun v => { v with exporting := t })
        if t.isEmpty then s2.wr F.GND_RSTAT.EXPBUSY 0 else s2
      else s1
  else s

/-- An ENABLE restart of the source set (R429). -/
def recallRestart (x j : Nat) (s : State) : State :=
  if s.rd F.GND_RCFG.FIBRE = x ∧ s.rd F.GND_RCFG.SET = j then
    if s.rcState = rcArmed then s.setRecall (fun v => { v with ring := [] })
    else if s.rcState = rcPost then recallHold s
    else s
  else s

def execRecallTrig (s : State) : Host.Outcome State Fault Refusal := done ((recallTrig 0x400 s).answer .ok)
def execRecallRelease (s : State) : Host.Outcome State Fault Refusal := done ((recallRelease s).answer .ok)
def execRecallExport (s : State) : Host.Outcome State Fault Refusal := done (recallExport s)

end Sys2Proof.Machine
end

