-- ==== Sys2Proof/Machine/Commit.lean ====
section
/-!
DEFINITION. Channel samples through stages 1 to 9 and the filter chains, shot verdicts, rollback, replay and commit
(R197–R245, R254–R260).
-/
namespace Sys2Proof.Machine

/-! ## CMT_STAT.STATE (R240) -/

def cmIdle : Nat := 0
def cmRun : Nat := 1
def cmReplay : Nat := 2
def cmDrain : Nat := 3

def State.cmState (s : State) (x : Fibre) : Nat := s.rd (F.CMT_STAT.STATE x.idx)

/-- Order of slots: 4·round + tone. -/
def slotId (round tone : Nat) : Nat := 4 * round + tone
def Slot.id (sl : Slot) : Nat := slotId sl.round sl.tone

/-- What is kept of a round. -/
def Commit.info (c : Commit) (r : Nat) : Option RoundInfo := c.rounds.find? (fun i => i.round == r)

/-- The boundary of a round, begun or, after a stop, as it would have been: those that a stopped fibre no longer has follow the
nominal end of its last round in steps of that round's T_R. (DESIGN CHOICE, assumption 85.) None while it has not come. -/
def Commit.boundary (c : Commit) (r : Nat) : Option Nat :=
  match c.info r with
  | some i => some i.tB
  | none => match c.stopped with
    | some (last, t) =>
      if last < r then
        match c.info last with
        | some i => some (t + (r - last - 1) * i.tr)
        | none => some t
      else none
    | none => none

/-! ## Chains of the DAS sets (R246, R254–R260) -/

/-- A channel and a DAS chain that have not run since the start. -/
def freshChan : Chan := { core := freshCore, cks := [], entries := [] }
def freshChain : Chain := { cur := { core := clearedChain 0, cfg := 0, last := 0, burst := 0 }, cks := [] }

def Commit.chan (c : Commit) (k : Nat) : Chan := mapGet (fun _ => freshChan) c.chans k
def Commit.setChan (c : Commit) (k : Nat) (v : Chan) : Commit := { c with chans := mapSet (fun _ => freshChan) c.chans k v }
def Commit.chain (c : Commit) (k j : Nat) : Chain := mapGet (fun _ => freshChain) c.chains (2 * k + j)
def Commit.setChain (c : Commit) (k j : Nat) (v : Chain) : Commit :=
  { c with chains := mapSet (fun _ => freshChain) c.chains (2 * k + j) v }

/-- The setting of a DAS chain under a word and a round (R249, R255). -/
def dasCfg (w : Word) (i : RoundInfo) : ChainCfg :=
  { preset := dsPreset w, n := dsRatio w, rate := true, bIn := 24, bOut := 32,
    interval := if i.nT = 0 then 0 else i.tr * 65536 / i.nT, nT := some i.nT }

/-- One stitched sample into a DAS chain: the chain and the output it presents. A set disabled for the sample's round feeds
nothing; the first sample after a change of the word, of a tone-set change or of the acquisition finds the chain cleared (R259). -/
def feedChain (i : RoundInfo) (w : Word) (st : Stitched) (c : DasChain) : DasChain × Option ChainOut :=
  if dsEn w then
    let fresh := decide (c.last < st.round + 1) && (i.opens || i.toneset)
    let core := if c.cfg ≠ w ∨ fresh = true then clearedChain (presetK (dsPreset w)) else c.core
    let r := chainInput (dasCfg w i) st.dphi st.ts st.q core
    ({ core := r.core, cfg := w, last := st.round + 1, burst := if r.burst then slotId st.round st.tone + 1 else c.burst },
      r.out)
  else ({ c with cfg := w, last := st.round + 1 }, none)

/-- Samples of an output instant in channel order. -/
def insertSample (p : SetSample) : List SetSample → List SetSample
  | [] => [p]
  | q :: t => if p.chan < q.chan then p :: q :: t else if p.chan = q.chan then p :: t else q :: insertSample p t

/-- A channel's output joins its instant (R286): the last one writes the speculative record to the set's bobbin and to the
recall ring. -/
def setOutput (x : Fibre) (j c : Nat) (st : Stitched) (born : Nat) (o : ChainOut) (s : State) : State :=
  let v := (s.cmt x).sets.at j
  let k := slotId st.round st.tone
  let g0 : Gather := (v.open_.find? (fun g => g.instant == k)).getD
    { instant := k, label := o.label, round := st.round, written := false, samples := [] }
  let g1 := { g0 with samples := insertSample { chan := c, value := o.value, q := o.q, born := born, left := s.now } g0.samples }
  let full := decide (s.rd (F.SHOT_GSTAT.NCH_ACT x.idx) ≤ g1.samples.length) && !g1.written
  let g := { g1 with written := g1.written || full }
  let s1 := s.modCmt x (fun m => { m with sets := m.sets.upd j { v with open_ := v.open_.filter (fun q => q.instant != k) ++ [g] } })
  if full then
    let r := setRecord x.idx j g
    let s2 := match s.setBobbin x.idx j with
      | some b => (s1.produce b r .spec (tagOf x.idx (g.born - 1)) none).1
      | none => s1
    recallWrite x.idx j r (g.samples.map (·.value)) (g.samples.map (·.q)) (g.born - 1) s2
  else s1

/-- A stitched sample of channel `c` leaves stage 9 for both sets; `born` is the round of the youngest shot that bears on it,
plus one. -/
def leaveStage9 (x : Fibre) (c born : Nat) (st : Stitched) (s : State) : State :=
  let s0 := if st.sat then s.wr (F.FRP_STAT.SATSEEN x.idx) 1 else s
  match (s0.cmt x).info st.round with
  | none => s0
  | some i =>
    [0, 1].foldl (fun (s : State) j =>
      let ch := (s.cmt x).chain c j
      let (cur, out) := feedChain i (i.ds.at j) st ch.cur
      let s1 := s.modCmt x (fun m => m.setChain c j { ch with cur := cur })
      match out with
      | some o => setOutput x j c st born o s1
      | none => s1) s0

/-! ## One slot of a channel (R198–R203, R223, R228–R231) -/

/-- The instant at which a channel's sample of a slot leaves stage 9 (R59, R229). -/
def State.leaveAt (s : State) (x : Fibre) (c : Nat) (sl : Slot) : Nat :=
  sl.tL + s.rd (F.SHOT_LRP.DELAY x.idx) + s.pLast x.idx c + 24 + sl.w + 192

/-- The run withheld by a channel has passed its deadline at instant `t` (R230). -/
def Commit.runLate (m : Commit) (k : Core89) (t : Nat) : Bool :=
  match k.wait with
  | [] => false
  | w :: _ => match m.boundary (w.round + 2) with
    | some b => decide (b < t)
    | none => false

/-- Release a channel's withheld run as held fill. (DEDUCED, assumption 27.) -/
def releaseRun (x : Fibre) (c : Nat) (s : State) : State :=
  let ch := (s.cmt x).chan c
  match ch.core.wait with
  | [] => s
  | w :: _ =>
    let (core, out) := releaseHeld ch.core
    let s1 := s.modCmt x (fun m => m.setChan c { ch with core := core })
    foldS (leaveStage9 x c (w.round + 2)) out s1

/-- Keep the newest four checkpoints, the present one named by round `r` (R223, R224). -/
def keepCks {α : Type} (r : Nat) (v : α) (l : List (Nat × α)) : List (Nat × α) :=
  let l' := l.filter (fun p => decide (p.1 < r)) ++ [(r, v)]
  l'.drop (l'.length - 4)

/-- Checkpoint C(r) of a channel and its chains, before its first sample of round `r`. -/
def checkpointChan (x : Fibre) (c r : Nat) (s : State) : State :=
  s.modCmt x (fun m =>
    let ch := m.chan c
    let m1 := m.setChan c { ch with cks := keepCks r ch.core ch.cks }
    [0, 1].foldl (fun (m : Commit) j =>
      let h := m.chain c j
      m.setChain c j { h with cks := keepCks r h.cur h.cks }) m1)

/-- Samples of a channel's support: slice-input times of the first and the last (R220). -/
def State.support (s : State) (x : Fibre) (c : Nat) (sl : Slot) : Nat × Nat :=
  let b := sl.tL + s.rd (F.SHOT_LRP.DELAY x.idx)
  (b + (s.rd (F.SHOT_CSTART.START x.idx) + c * s.rd (F.SHOT_CHAN.PITCH x.idx)) - 32, b + s.pLast x.idx c + sl.w + 31)

/-- The slot is erased for a channel: wholly, or a fault span meets the channel's support (R220, R228). -/
def State.erasedFor (s : State) (x : Fibre) (c : Nat) (sl : Slot) (fault : Bool) : Bool :=
  let p := s.support x c sl
  sl.erased || fault || (sl.spanSeen && sl.spans.any (fun q => decide (q.t0 ≤ p.2 ∧ p.1 ≤ q.t1)))

/-- Apply one slot to a channel's stages 8 and 9 and its chains. -/
def applySlot (x : Fibre) (c : Nat) (sl : Slot) (e : Entry) (s : State) : State :=
  match (s.cmt x).info sl.round with
  | none => s
  | some i =>
    let at_ := s.leaveAt x c sl
    let s := if (s.cmt x).runLate ((s.cmt x).chan c).core at_ then releaseRun x c s else s
    let first := match ((s.cmt x).chan c).core.last with
      | some (r, _) => decide (r ≠ sl.round)
      | none => true
    let s := if first then checkpointChan x c sl.round s else s
    let s := if first && (i.opens || i.toneset) then
        let s1 := releaseRun x c s
        s1.modCmt x (fun m =>
          let ch := m.chan c
          m.setChan c { ch with core := (restartCore ch.core).1 })
      else s
    let ch := (s.cmt x).chan c
    let st : Stitched := {
      round := sl.round, tone := sl.tone, ts := sl.ts, dphi := 0,
      q := if sl.launched then e.q else 0, sat := false }
    let erased := s.erasedFor x c sl e.fault
    let (core, out) := stitch (stitchCfg i.frp i.nT) erased st e.phi e.amp e.zero ch.core
    foldS (leaveStage9 x c (sl.round + 1)) out (s.modCmt x (fun m => m.setChan c { ch with core := core }))

/-- The slot after a channel's last entry. -/
def Commit.nextFor (m : Commit) (c : Nat) : Option Slot :=
  match (m.chan c).entries.getLast? with
  | none => m.slots.head?
  | some e => m.slots.find? (fun sl => decide (slotId e.round e.tone < sl.id))

/-- SPLICE, SUBST and CAL that the whole trace of a shot gives every channel of it (R151, R167), beside those its record holds. -/
def State.traceFlags (s : State) (x : Fibre) (sl : Slot) : Nat :=
  let t0 := sl.tL + s.rd (F.SHOT_LRP.DELAY x.idx)
  let t1 := sl.tL + sl.tmin
  sl.flags ||| (if s.shotSplice x.idx sl.round t0 t1 then 4 else 0) ||| (if s.shotSub x.idx t0 t1 then 32 else 0) |||
    (if s.shotCal x.idx t0 t1 then 128 else 0)

/-- Some word of a trace whose first word is of point `first`, from point `lo` to `hi`, meets a test. -/
def anyPoint (first lo hi : Int) (f : Nat → Bool) : Bool :=
  (List.range (hi + 1 - max lo first).toNat).any (fun k => f ((max lo first - first).toNat + k))

/-- Stages 1 to 7 of one channel for one shot (R184–R198): φ, A and the provisional bits. (DEDUCED, assumption 26; DESIGN
CHOICE, assumption 32.) -/
def frontChannel (x : Fibre) (c : Nat) (sl : Slot) (pl : Pulse) (first : Int) (ws : List FrontWord) (s : State) : Entry :=
  let xi := x.idx
  let gi := s.gridOf x sl.tL sl.fMHz pl first ws
  let p := gi.p
  let q := s.rd (F.SHOT_CHAN.PITCH xi)
  let g := s.rd (F.SHOT_CHAN.GAUGE xi)
  let p0 := s.rd (F.SHOT_CSTART.START xi) + c * q
  let pe := s.pLast xi c
  let n := (pe + sl.w - p0) / p + 1
  let gx := s.pairGrid gi 0 p0 n
  let gy := s.pairGrid gi 1 p0 n
  let d (i : Nat) : Cx :=
    Cx.add (Cx.scale (s.weight xi 0) (Cx.mulConj (matched p pl gx (i + g / p)) (matched p pl gx i)))
      (Cx.scale (s.weight xi 1) (Cx.mulConj (matched p pl gy (i + g / p)) (matched p pl gy i)))
  let ds := (List.range (q / p)).map d
  let mags := (List.range (q / p)).map (fun i => nearAbs (Config.freeNat (s.fresh + i)) (d i))
  let (sum, amp) := channelSum ds mags
  let marks := windowMarks 0 ws
  let clip := anyPoint first ((p0 : Int) - g - 2) pe (fun i => match ws[i]? with | some w => wordOvr w | none => false)
  let splice := anyPoint first p0 pe (fun i => marks.getD i false)
  let sp := s.support x c sl
  { round := sl.round, tone := sl.tone, phi := phaseOf (Config.freeNat (s.fresh + q)) sum, amp := amp,
    q := (if clip then 2 else 0) ||| (if splice then 4 else 0) ||| s.traceFlags x sl,
    zero := decide (sum.re = 0 ∧ sum.im = 0), fault := !(s.shotSpans xi sp.1 sp.2).isEmpty }

/-- The coherent slices count the over-range samples of a run of words whose first is taken at `t` (R155): each word by the slices that
produced it. -/
def countWords (x : Fibre) (t : Nat) (ws : List FrontWord) (s : State) : State :=
  let fs : List (Nat × (FrontWord → SliceWord)) :=
    [(4 * x.idx, (·.xi)), (4 * x.idx + 1, (·.xq)), (4 * x.idx + 2, (·.yi)), (4 * x.idx + 3, (·.yq))]
  let last := t + ws.length - 1
  fs.foldl (fun (s : State) p =>
    [s.roleAt p.1 t, s.roleAt p.1 last].eraseDups.foldl (fun (s : State) n =>
      countOvr n last (ws.zipIdx.map (fun w => (p.2 w.1).ovr && s.roleAt p.1 (t + w.2) == n)) s) s) s

/-- The start of an intrusive test that is running (R571). -/
def State.intrusiveAt (s : State) : Option Nat :=
  match s.health.test with
  | some t => if t.intrusive then t.startAt else none
  | none => none

/-- Where the replay record of a fibre lies: A's ring from the bottom of the reserved region, B's at its top, so that the two never meet
(R409). (DESIGN CHOICE, assumption 103.) -/
def State.replayBase (s : State) (x : Fibre) : Nat :=
  let total := s.rd F.GND_TOTAL.TOTAL
  match x with
  | .a => total - 10_242
  | .b => total - s.ground.replayPages.b

/-- The place of an entry in its ring of four rounds of four tones (R224, R409). -/
def entryPlace (nch round tone c : Nat) : Nat := (round % 4 * 4 + tone) * nch + c

/-- An entry of 10 bytes joins the replay record: the page that it completes, or that the slot's last channel ends in, is written. -/
def recordEntry (x : Fibre) (c : Nat) (sl : Slot) (s : State) : State :=
  let nch := s.rd (F.SHOT_GSTAT.NCH_ACT x.idx)
  let e := entryPlace nch sl.round sl.tone c
  if 10 * e / 4096 < 10 * (e + 1) / 4096 ∨ c + 1 = nch then
    s.request (.replayWrite x) true [.dram (s.replayBase x + 10 * e / 4096)]
  else s

/-- CHANNEL_SAMPLE_EMIT (R59, R201, R224, R229): channel `c`'s sample of its next slot. The words begin at point `first`; `refs` are
the reference samples since those before, up to now. -/
def channelSample (x : Fibre) (c : Nat) (refs : List RefSample) (first : Int) (ws : List FrontWord) (s0 : State) : State :=
  match (s0.cmt x).nextFor c with
  | none => s0
  | some sl =>
    let held := match s0.intrusiveAt with
      | some t0 => sl.kind == .dark && decide (t0 ≤ sl.tL)
      | none => false
    if s0.cmState x = cmIdle ∨ s0.rd (F.SHOT_GSTAT.NCH_ACT x.idx) ≤ c ∨ s0.now < s0.leaveAt x c sl ∨ held = true then s0
    else
      let s := s0.cordRun refs
      let dark : Entry := { round := sl.round, tone := sl.tone, phi := 0, amp := 0, q := 0, zero := false, fault := false }
      let (e, s) := match sl.pulse with
        | some pl =>
          (frontChannel x c sl pl first ws s,
            countWords x (s.gridOf x sl.tL sl.fMHz pl first ws).t0 ws (s.spend (s.rd (F.SHOT_CHAN.PITCH x.idx) + 1)))
        | none => (dark, s)
      let s1 := recordEntry x c sl (s.modCmt x (fun m =>
        let ch := m.chan c
        m.setChan c { ch with entries := ch.entries ++ [e] }))
      if (s.cmt x).replay.isSome then s1 else applySlot x c sl e s1

def execChannelSampleEmit (x : Fibre) (c : Nat) (refs : List RefSample) (first : Int) (ws : List FrontWord) (s : State) :
    Host.Outcome State Fault Refusal := done (channelSample x c refs first ws s)

/-! ## Trace flags that are known late (R151, R167, R231) -/

/-- Quality bits join an input of a chain, `back` inputs before the newest. -/
def ChainCore.remark (c : ChainCore) (bits back : Nat) : ChainCore :=
  if c.i ≤ back then c
  else
    let i := c.i - back
    { c with lastQ := (List.range 8).map (fun b => if qBit (contributed bits) b then max i (c.lastQ.getD b 0) else c.lastQ.getD b 0),
             pic := c.pic.zipIdx.map (fun p => if p.2 = back then (p.1.1, p.1.2.1, p.1.2.2 ||| bits) else p.1) }

/-- Slots after one, up to another. -/
def Commit.between (m : Commit) (a b : Nat) : Nat := (m.slots.filter (fun sl => decide (a < sl.id ∧ sl.id ≤ b))).length

/-- Flags of a shot join what a channel and its chains have already taken from it: its entries, its withheld samples and the chains'
windows, with their checkpoints. -/
def remarkChan (sl : Slot) (bits : Nat) (m : Commit) (p : Nat × Chan) : Commit :=
  let ch := p.2
  let mine (r k : Nat) : Bool := slotId r k == sl.id
  match ch.core.last with
  | none => m
  | some (r, k) =>
    if slotId r k < sl.id then m
    else
      let wait := ch.core.wait.map (fun w => if mine w.round w.tone then { w with q := w.q ||| bits } else w)
      let m1 := m.setChan p.1 { ch with
        core := { ch.core with wait := wait },
        entries := ch.entries.map (fun e => if mine e.round e.tone then { e with q := e.q ||| bits } else e) }
      let after := m.between sl.id (slotId r k)
      if after < ch.core.wait.length then m1
      else [0, 1].foldl (fun (m : Commit) j =>
        let h := m.chain p.1 j
        let fix (k : Nat) (d : DasChain) : DasChain := { d with core := d.core.remark bits (after - ch.core.wait.length - k) }
        m.setChain p.1 j { cur := fix 0 h.cur, cks := h.cks.map (fun q => (q.1, fix (h.cur.core.i - q.2.core.i) q.2)) }) m1

/-- An output instant whose inputs include the shot's takes its flags: the last S inputs of a settled sample, the last N of a picot. -/
def remarkGather (m : Commit) (j : Nat) (sl : Slot) (bits : Nat) (g : Gather) : Gather :=
  let w := (m.sets.at j).cfg
  let d := m.between sl.id g.instant
  if g.instant < sl.id then g
  else { g with samples := g.samples.map (fun p =>
    if d < (if qBit p.q 6 then dsRatio w else settling (dsPreset w) (dsRatio w)) then { p with q := p.q ||| contributed bits } else p) }

/-- A speculative record of a set takes the quality of its rewritten output instant. -/
def remarkRecord (x j : Nat) (gs : List Gather) (r : Stored) : Stored :=
  if r.st = .spec ∧ r.data.kind = j + 1 ∧ r.data.fibre = x then
    match gs.find? (fun g => g.written && decide (g.label / 65536 = r.data.label)) with
    | some g => { r with data := { r.data with payload := (setRecord x j g).payload, bad := (setRecord x j g).bad } }
    | none => r
  else r

/-- So does its copy in the recall ring (R427). -/
def remarkRing (x j : Nat) (gs : List Gather) (r : RingRec) : RingRec :=
  if r.spec = true ∧ r.data.kind = j + 1 ∧ r.data.fibre = x then
    match gs.find? (fun g => g.written && decide (g.label / 65536 = r.label)) with
    | some g => { r with data := { r.data with
        payload := compactPayload (g.samples.map (·.value)) (g.samples.map (·.q)), bad := (setRecord x j g).bad } }
    | none => r
  else r

/-- The flags that a shot's trace has taken up to its end bear on every channel of it: those delivered before the swap or the switch
take them now, while all that derives from them is uncommitted. -/
def reflag (x : Fibre) (sl : Slot) (bits : Nat) (s : State) : State :=
  let s1 := s.modCmt x (fun m => m.chans.foldl (remarkChan sl bits) m)
  [0, 1].foldl (fun (s : State) j =>
    let m := s.cmt x
    let gs := (m.sets.at j).open_.map (remarkGather m j sl bits)
    let s1 := s.modCmt x (fun m => { m with sets := m.sets.upd j { m.sets.at j with open_ := gs } })
    (s1.mapBobs (fun l => l.map (remarkRecord x.idx j gs))).setRecall (fun v =>
      { v with ring := v.ring.map (remarkRing x.idx j gs) })) s1

/-! ## Replay (R225–R227) -/

/-- Apply a channel's entries after its last applied slot, up to rounds below `stop`. -/
def replayChan (x : Fibre) (stop : Nat) (c : Nat) (s : State) : State :=
  let ch := (s.cmt x).chan c
  let from_ := match ch.core.last with
    | some (r, k) => slotId r k + 1
    | none => 0
  foldS (fun (e : Entry) s => match (s.cmt x).slots.find? (fun sl => sl.id == slotId e.round e.tone) with
    | some sl => applySlot x c sl e s
    | none => s) (ch.entries.filter (fun e => decide (from_ ≤ slotId e.round e.tone ∧ e.round < stop))) s

/-- Channels that have delivered. -/
def Commit.chanIds (m : Commit) : List Nat := m.chans.map (·.1)

def replayAll (x : Fibre) (stop : Nat) (s : State) : State := foldS (replayChan x stop) (s.cmt x).chanIds s

/-- Runs whose deadline has passed leave as held fill. -/
def releaseLate (x : Fibre) (s : State) : State :=
  foldS (fun c s => if (s.cmt x).runLate ((s.cmt x).chan c).core (s.now + 1) then releaseRun x c s else s) (s.cmt x).chanIds s

/-- Entries that a replay to `r` has to run. -/
def Commit.backlog (m : Commit) (r : Nat) : Nat :=
  sumN (m.chans.map (fun p => (p.2.entries.filter (fun e => decide (r ≤ e.round))).length))

/-- Show that replay reads run (R435). -/
def showReplay (x : Fibre) (on : Nat) (s : State) : State :=
  s.wr (match x with | .a => F.GND_STAT.RPLA | .b => F.GND_STAT.RPLB) on

/-- The replay has reached the newest entry: live processing resumes (R226, R245). -/
def replayEnd (x : Fibre) (s : State) : State :=
  match (s.cmt x).replay with
  | none => s
  | some (_, t0) =>
    let last := (s.cmt x).slots.foldl (fun a sl => max a sl.round) 0
    let s1 := (replayAll x (last + 1) s).modCmt x (fun m => { m with replay := none })
    let us := satN 16 ((s.now - t0) / 1000)
    let s2 := s1.wrs [(F.CMT_STAT.STATE x.idx, if (s.cmt x).stopped.isSome then cmDrain else cmRun),
      (F.CMT_RPL.RPLMAX x.idx, max us (s.rd (F.CMT_RPL.RPLMAX x.idx)))]
    releaseLate x (showReplay x 0 s2)

/-- REPLAY_COMPLETE (R226): the replay has read up to the newest entry. -/
def execReplayComplete (x : Fibre) (s : State) : Host.Outcome State Fault Refusal :=
  match (s.cmt x).replay with
  | some (r, _) => onlyIf (decide ((s.cmt x).backlog r ≤ (s.cmt x).ran)) s (replayEnd x s)
  | none => done s

/-- Restore the earliest checkpoint of a round from `r` on, if one was taken. -/
def ckFrom {α : Type} (r : Nat) (l : List (Nat × α)) : Option α := (l.find? (fun p => decide (r ≤ p.1))).map (·.2)

/-- Stages 8 and 9 and the chains of a fibre stand at C(r) (R225). -/
def restoreCommit (r : Nat) (m : Commit) : Commit :=
  let old {α : Type} (l : List (Nat × α)) : List (Nat × α) := l.filter (fun p => decide (p.1 < r))
  let m1 := m.chans.foldl (fun (m : Commit) p => match ckFrom r p.2.cks with
    | some k => m.setChan p.1 { p.2 with core := k, cks := old p.2.cks }
    | none => m) m
  let m2 := m1.chains.foldl (fun (m : Commit) p => match ckFrom r p.2.cks with
    | some k => { m with chains := mapSet (fun _ => freshChain) m.chains p.1 { cur := k, cks := old p.2.cks } }
    | none => m) m1
  let cut (g : Gather) : Option Gather :=
    let l := g.samples.filter (fun q => decide (q.born ≤ r))
    if l.isEmpty then none else some { g with samples := l, written := g.written && l.length == g.samples.length }
  let fix (v : SetState) : SetState := { v with open_ := v.open_.filterMap cut }
  { m2 with sets := ⟨fix m2.sets.a, fix m2.sets.b⟩ }

/-- Roll fibre `x` back to C(r) and start the replay (R225, R233). (DEDUCED, assumption 28.) -/
def rollTo (x : Fibre) (r : Nat) (s : State) : State :=
  let s1 := s.modCmt x (fun m => { restoreCommit r m with replay := some (r, s.now), ran := 0 })
  let s2 := ringDiscard x.idx r (s1.mapBobs (discardRecs x.idx r))
  let s3 := foldS (fun (p : Nat × Logical) s => laneRollback x.idx r p.1 s) s2.lanes.ll s2
  showReplay x 1 ((s3.wr (F.CMT_STAT.STATE x.idx) cmReplay).bump (F.CMT_ROLL.COUNT x.idx))

/-- A sample of the slot, or of a later one, has been applied. -/
def Commit.applied (m : Commit) (sl : Slot) : Bool :=
  m.chans.any (fun p => match p.2.core.last with
    | some (r, k) => decide (sl.id ≤ slotId r k)
    | none => false)

/-- A slot became erased, in whole or in part, after it may have been applied: roll back, or aim a running replay (R225). -/
def eraseSlot (x : Fibre) (sl : Slot) (s : State) : State :=
  let m := s.cmt x
  match m.replay with
  | none => if m.applied sl then rollTo x sl.round s else s
  | some (r, _) =>
    if sl.round ≤ r then rollTo x sl.round s
    else
      let ahead := sumN (m.chans.map (fun p => (p.2.entries.filter (fun e =>
        decide (r ≤ e.round ∧ slotId e.round e.tone ≤ sl.id))).length))
      -- the replay has passed the shot: what precedes its round stands as replayed
      if ahead ≤ m.ran then rollTo x sl.round (replayAll x sl.round s) else s

/-! ## Verdicts (R218–R220, R238, R242–R244) -/

/-- EMIT_EN or a shut holds GATE_x low now and has met the shot's gate window (R218). -/
def State.forcedNow (s : State) (x : Fibre) (sl : Slot) : Bool :=
  (s.src.forced || s.gateShut x) && (match (s.sch x).forcedAt with
    | some f => decide (sl.gateUp ≤ s.now ∧ f < sl.gateDown)
    | none => false)

/-- Fault spans that meet a shot's trace and have not yet taken effect on it (R174, R220). -/
def State.newSpans (s : State) (x : Fibre) (sl : Slot) : List Span :=
  (s.shotSpans x.idx (sl.tL + s.rd (F.SHOT_LRP.DELAY x.idx)) (sl.tL + sl.tmin - 1)).filter (fun q => !sl.spans.contains q)

/-- Bad inputs of a shot known now: those recorded, and those that the slices and the gates give. -/
def State.knownCauses (s : State) (x : Fibre) (sl : Slot) : Nat :=
  let t0 := sl.tL + s.rd (F.SHOT_LRP.DELAY x.idx)
  let t1 := sl.tL + sl.tmin
  let emit := sl.tL + s.rd (F.FRP_CDT.EMIT x.idx)
  let lock := s.rd F.FRP_CD_CFG.EN == 1 && decide (emit ≤ s.now) && s.lockMissed emit (min s.now t1)
  sl.causes ||| (if sl.kind = .das then 0 else causeProbe) ||| (if lock then causeCord else 0) |||
    (if sl.spans.isEmpty && (s.newSpans x sl).isEmpty then 0 else causeSpan) |||
    (if s.shotIntrusive x.idx t0 t1 then causeIntru else 0) ||| (if s.forcedNow x sl then causeForced else 0)

/-- Record a BAD or PARTIAL verdict (R238, R242–R244). (DEDUCED, assumption 28.) -/
def badVerdict (x : Fibre) (sl : Slot) (causes : Nat) (part : Bool) (s : State) : State :=
  let xi := x.idx
  let s1 := (s.bump (F.CMT_BAD.COUNT xi)).wrs
    [(F.CMT_LAST.RND xi, sl.round), (F.CMT_LAST.PART xi, if part then 1 else 0), (F.CMT_LAST.TONE xi, sl.tone),
     (F.CMT_LAST.CAUSE xi, causes), (F.CMT_LSEQ_LO.SEQ_LO xi, sl.seq), (F.CMT_LSEQ_HI.SEQ_HI xi, sl.seq / 2 ^ 32)]
  let s2 := if part then s1 else s1.bump (F.CMT_ERASE.COUNT xi)
  let last := (s.cmt x).lastBad
  let fresh := match last with
    | some r => decide (r + 1 < sl.round)
    | none => true
  let s3 := s2.modCmt x (fun m => { m with lastBad := some (match last with | some r => max r sl.round | none => sl.round) })
  if fresh then s3.event 0x0601 .info noUnit (some x) sl.seq causes sl.round 0 else s3

def State.putSlot (s : State) (x : Fibre) (sl : Slot) : State :=
  s.modCmt x (fun m => { m with slots := m.slots.map (fun q => if q.id = sl.id then sl else q) })

/-- What a judgement of a slot would do now. -/
inductive Judgement where
  | none_ | bad | span | final
deriving DecidableEq, Repr

/-- Judge a slot: a bad input acts at once; GOOD and PARTIAL need the complete record, the round's evaluation and the time within which
a fault span of the trace is declared (R174, R219). `due` waives them. (DEDUCED, assumption 28.) -/
def State.judgement (s : State) (x : Fibre) (due : Bool) (sl : Slot) : Judgement :=
  if sl.launched = false ∨ sl.verdict ≠ none then .none_
  else
    let k := s.knownCauses x sl
    let judged := match (s.cmt x).info sl.round with
      | some i => i.low.isSome
      | none => true
    if k ≠ 0 ∧ k ≠ causeSpan then .bad
    else if (s.newSpans x sl).isEmpty = false then .span
    else if due || (sl.complete && judged && decide (sl.tL + sl.tmin + 1094 ≤ s.now)) then .final
    else .none_

/-- Carry out the judgement of a slot. -/
def judge (x : Fibre) (due : Bool) (sl : Slot) (s : State) : State :=
  let k := s.knownCauses x sl
  let seen := { sl with causes := k, spans := sl.spans ++ s.newSpans x sl }
  match s.judgement x due sl with
  | .none_ => s
  | .bad =>
    let s1 := badVerdict x sl k false (s.putSlot x { seen with verdict := some .bad, erased := true })
    if sl.erased then s1 else eraseSlot x sl s1
  | .span => eraseSlot x sl (s.putSlot x { seen with spanSeen := true })
  | .final =>
    if k = 0 then s.putSlot x { sl with verdict := some .good }
    else badVerdict x sl k true (s.putSlot x { seen with verdict := some .part })

/-- VERDICT (R218, R219): the first slot that a known bad input or a complete record lets the fibre judge. -/
def verdictOne (x : Fibre) (s : State) : State :=
  match (s.cmt x).slots.find? (fun sl => s.judgement x false sl != .none_) with
  | some sl => judge x false sl s
  | none => s

def execVerdict (x : Fibre) (s : State) : Host.Outcome State Fault Refusal := done (verdictOne x s)

/-- Every verdict of rounds up to `r` is final (R219). -/
def judgeUpTo (x : Fibre) (r : Nat) (s : State) : State :=
  foldS (fun (sl : Slot) s =>
    -- a span acts first, and the verdict follows
    let again (s : State) : State := match (s.cmt x).slots.find? (fun q => q.id == sl.id) with
      | some q => judge x true q s
      | none => s
    again (again s)) ((s.cmt x).slots.filter (fun sl => decide (sl.round ≤ r) && sl.verdict == none)) s

/-! ## Commit (R60, R417, R428, R241) -/

/-- Commit round `r` of fibre `x`. -/
def commitRound (x : Fibre) (r : Nat) (s : State) : State :=
  let s0 := match (s.cmt x).replay with
    | some (q, _) => if q ≤ r then replayEnd x s else s
    | none => s
  let s1 := ringCommit x.idx r ((s0.modBoot (fun b => { b with committed := true })).mapBobs (commitRecs s0.now s0.tbNs x.idx r))
  let keep (v : SetState) : SetState :=
    { v with open_ := v.open_.filter (fun g => decide (r < g.round) || (g.written && decide (r + 1 < g.born))) }
  let s2 := (s1.modCmt x (fun m => { m with nextCommit := r + 1, sets := ⟨keep m.sets.a, keep m.sets.b⟩ })).wr
    (F.CMT_CRND.RND x.idx) r
  -- the peak search of a committed T0 trace (R24)
  match (s.cmt x).slots.find? (fun sl => sl.round == r && sl.tone == 0 && sl.kind == .das && !sl.erased) with
  | some sl => match sl.peak with
    | some p => s2.wrs [(F.SHOT_PEAK.VLD x.idx, 1), (F.SHOT_PEAK.POINT x.idx, p)]
    | none => s2
  | none => s2

/-- The first commit after a release ends the boot sequence (R598, R607). -/
def firstCommit (s : State) : State :=
  if s.boot.counted then s
  else
    let s1 := (s.modBoot (fun q => { q with counted := true }))
    let s2 := s1.wr F.SYS_BOOT.BOOTMS (satN 24 ((s.now - s.boot.bootAt) / 1_000_000))
    if s.rd F.SYS_BOOT.PHASE = 8 then s2.wr F.SYS_BOOT.PHASE 9 else s2

/-- Commit every round up to `r`. -/
def commitUpTo (x : Fibre) : Nat → Nat → State → State
  | 0, _, s => s
  | n + 1, r, s => if (s.cmt x).nextCommit ≤ r then commitUpTo x n r (firstCommit (commitRound x (s.cmt x).nextCommit s)) else s

/-- Commit every round below `e`. -/
def commitBelow (x : Fibre) (e : Nat) (s : State) : State :=
  if e = 0 then s else commitUpTo x (e - (s.cmt x).nextCommit) (e - 1) s

/-- The first round that may not commit yet, of those below `e`: rounds that reach into a running intrusive test wait for the
boundary after it (R571). -/
def State.commitLimit (s : State) (x : Fibre) (e : Nat) : Nat :=
  match s.intrusiveAt with
  | some t0 => match (s.cmt x).rounds.find? (fun i => decide (t0 < i.tB + i.tr)) with
    | some i => min e i.round
    | none => e
  | none => e

/-- Forget what lies before round `r`: slots, rounds and replay entries (R224). -/
def forgetBefore (x : Fibre) (r : Nat) (s : State) : State :=
  s.modCmt x (fun m => { m with
    slots := m.slots.filter (fun sl => decide (r ≤ sl.round)), rounds := m.rounds.filter (fun i => decide (r ≤ i.round)),
    chans := m.chans.foldl (fun l p => mapSet (fun _ => freshChan) l p.1
      { p.2 with entries := p.2.entries.filter (fun e => decide (r ≤ e.round)) }) m.chans })

/-- The commit logic at boundary `t_B(q)` (R60, R219, R230): verdicts of round q − 2 become final, runs whose deadline it is
leave as held fill, and round q − 3 commits. -/
def commitBoundary (x : Fibre) (q : Nat) (s : State) : State :=
  let s1 := if 2 ≤ q then judgeUpTo x (q - 2) s else s
  let s2 := if (s1.cmt x).replay.isSome then s1 else releaseLate x s1
  if 3 ≤ q then
    let s3 := commitBelow x (s2.commitLimit x (q - 2)) s2
    forgetBefore x (min (q - 3) (s3.cmt x).nextCommit) s3
  else s2

/-- The last outstanding rounds of a stopped fibre (R237). -/
def drainAll (x : Fibre) (s : State) : State :=
  match (s.cmt x).stopped with
  | none => s
  | some (last, _) =>
    let s1 := replayEnd x (judgeUpTo x last s)
    commitBelow x (last + 1) (releaseLate x s1)

/-- The boundaries that a stopped fibre would have had and that have come: their verdicts, releases and commits (R60, R230, R237). -/
def drainStep (x : Fibre) (s : State) : State :=
  match (s.cmt x).stopped with
  | none => s
  | some (last, t) =>
    match (s.cmt x).info last with
    | none => s
    | some i => if t ≤ s.now then commitBoundary x (min (last + 3) (last + 1 + (s.now - t) / max 1 i.tr)) s else s

/-- The instant by which a stopped fibre has committed its last round. -/
def Commit.drainAt (m : Commit) : Option Nat :=
  match m.stopped with
  | some (last, t) => match m.info last with
    | some i => some (t + 2 * i.tr)
    | none => some t
  | none => none

/-- An ACQ or deeper reset discards all that is uncommitted (R237): one event for a fibre that had shots. -/
def discardUncommitted (x : Fibre) (s : State) : State :=
  let m := s.cmt x
  let lost := (m.slots.filter (fun sl => sl.launched && decide (m.nextCommit ≤ sl.round))).head?
  let s1 := s.mapBobs (·.filter (fun r => ¬ (r.st = .spec ∧ r.tags.at x.idx ≠ 0)))
  let s2 := s1.setRecall (fun v => { v with ring := v.ring.filter (fun r => !(r.spec && r.data.fibre == x.idx)) })
  let s3 := s2.modCmt x (fun m => { m with
    slots := [], rounds := [], nextCommit := 0, lastBad := none, replay := none, ran := 0, stopped := none, chans := [], chains := [],
    sets := ⟨{ m.sets.a with open_ := [] }, { m.sets.b with open_ := [] }⟩ })
  match lost with
  | some sl => s3.event 0x0602 .info noUnit (some x) (sl.seq % 2 ^ 32) (sl.seq / 2 ^ 32) 0 0
  | none => s3

/-! ## Settings of the filter sets and of stage 9 (R208, R266) -/

/-- LASTRST of a set after a restart from round `r` on; an ENABLE restart bears on the recall ring (R270, R429). -/
def setRestarted (x : Fibre) (j r cause : Nat) (s : State) : State :=
  let s1 := (s.wr (F.FLT_DSSTAT.LASTRST x.idx j) cause).modCmt x (fun m =>
    { m with sets := m.sets.upd j { m.sets.at j with rstAt := 4 * r } })
  if cause = 1 then recallRestart x.idx j s1 else s1

/-- A set's pending word comes into force. -/
def adoptSet (x : Fibre) (j r : Nat) (w : Word) (s : State) : State :=
  let v := (s.cmt x).sets.at j
  let s1 := s.modCmt x (fun m => { m with sets := m.sets.upd j { v with cfg := w, pend := none } })
  (if v.cfg = w then s1 else setRestarted x j r 1 s1).showDelay x.idx j

/-- Pending set words at a boundary `tB` that opens round `r` (R266): those written at least 4 µs before it. -/
def adoptSets (x : Fibre) (r tB : Nat) (s : State) : State :=
  [0, 1].foldl (fun s j => match ((s.cmt x).sets.at j).pend with
    | some (w, t) => if t + 4000 ≤ tB then adoptSet x j r w s else s
    | none => s) s

/-- Pending set words once the commit logic is IDLE. -/
def adoptSetsIdle (x : Fibre) (s : State) : State :=
  [0, 1].foldl (fun s j => match ((s.cmt x).sets.at j).pend with
    | some (w, _) => adoptSet x j 0 w s
    | none => s) s

/-- FLT_DSCFGj of fibre `x` (R253, R266, R300, R426, R488). -/
def dscfgWrite (x : Fibre) (j : Nat) (w : Word) (s : State) : State :=
  let w := w32 (wordField 31 1 w * 2 ^ 31 + wordField 18 2 w * 2 ^ 18 + wordField 0 18 w)
  let v := s.liveView.withSet x.idx j w
  let acq := s.anyAcquiring
  let n := if acq then s.netErr v else 0
  if cfgOk w = false then s.answer .refused
  else if acq ∧ s.laneOver v (fun _ => true) then s.answer .refused
  else if acq = true ∧ s.groundFits v = false then (s.showGround v).answer .refused
  else if n ≠ 0 then (s.wr F.NET_BUDGET.ERR n).answer .refused
  else
    let s1 := s.setReg (R.FLT_DSCFG x.idx j) w
    let s2 := if s.cmState x = cmIdle then adoptSet x j 0 w s1
      else s1.modCmt x (fun m => { m with sets := m.sets.upd j { m.sets.at j with pend := some (w, s.now) } })
    s2.showBudgets.answer .ok

def execFltDscfgWrite (x : Fibre) (j : Fin 2) (w : Word) (s : State) : Host.Outcome State Fault Refusal :=
  done (dscfgWrite x j w s)

/-- FRP_CFG of fibre `x` (R208, R493): FTH, FABS and STSH take effect at the next boundary, the others belong to the
image. -/
def frpCfgWrite (x : Fibre) (w : Word) (s : State) : State :=
  let old := s.reg (R.FRP_CFG x.idx)
  if wordField 4 1 w ≠ wordField 4 1 old ∨ wordField 0 2 w ≠ wordField 0 2 old then s.answer .denied
  else if 49 < wordField 24 6 w then s.answer .refused
  else (s.wrs [(F.FRP_CFG.FABS x.idx, wordField 24 6 w), (F.FRP_CFG.FTH x.idx, wordField 16 8 w),
    (F.FRP_CFG.STSH x.idx, wordField 8 4 w)]).answer .ok

def execFrpCfgWrite (x : Fibre) (w : Word) (s : State) : Host.Outcome State Fault Refusal := done (frpCfgWrite x w s)

/-- LANE_RELEASE (R234) of logical lane `ll`. -/
def execLaneRelease (ll : Fin 32) (s : State) : Host.Outcome State Fault Refusal := done (laneRelease ll s)

end Sys2Proof.Machine
end

