-- ==== Sys2Proof/Machine/Source.lean ====
section
/-!
DEFINITION. Optical sources and emission safety (R101–R136): EMIT_EN and the permit, the source channels with their setpoints,
fades, ceilings and thermal limits, the fault groups, launch-energy judgement and Selvage detection.
-/
namespace Sys2Proof.Machine

/-! ## Channels -/

def offChan : SrcChan :=
  { f := 0, fade := none, ceil := 0, fast := none, rise := none, clamped := false, sensFault := false, sense := 0, drive := 0,
    overFrom := none, shortFrom := none, openFrom := none }

def State.srcChan (s : State) (n : Nat) : SrcChan := mapGet (fun _ => offChan) s.src.chans n
def State.setChan (s : State) (n : Nat) (c : SrcChan) : State :=
  (s.modSrc (fun q => { q with chans := mapSet (fun _ => offChan) s.src.chans n c }))
def State.modNrg (s : State) (x : Fibre) (f : Energy → Energy) : State := s.setNrg x (f (s.nrg x))
def State.modSch (s : State) (x : Fibre) (f : Sched → Sched) : State := s.setSch x (f (s.sch x))

/-- SRC_STAT.FAULT codes (R117). -/
def sfOpen : Nat := 1
def sfShort : Nat := 2
def sfOvercur : Nat := 3
def sfGroup : Nat := 4
def sfEmit : Nat := 5

/-- Seed fibres of a channel (R108). (DEDUCED, assumption 19.) -/
def State.seeds (s : State) (n : Nat) : List Fibre :=
  match s.rd (F.SRC_CFG.SEED n) with
  | 0 => []
  | 1 => [.a]
  | 2 => [.b]
  | _ => [.a, .b]

def State.seeded (s : State) (x : Fibre) : Bool := s.rd (F.SHOT_STAT.SEEDED x.idx) == 1

/-- Live setpoint and fade settings of a channel (R111). -/
def State.liveSet (s : State) (n : Nat) : Nat := s.rd (F.SRC_SET.SETPOINT n).live
def State.liveFadeMs (s : State) (n : Nat) : Nat := s.rd (F.SRC_FADE.FADE_MS n).live

/-- The emission permit of a fibre (R103, R128). -/
def State.permit (s : State) (x : Fibre) : Bool :=
  s.rd F.SRC_EMIT.EMIT_IN == 1 && s.rd F.SRC_EMIT.LATCHED == 0 &&
    s.rd (match x with | .a => F.SRC_EMIT.ALLOW_A | .b => F.SRC_EMIT.ALLOW_B) == 1 && s.rd F.SYS_OPT.OPT_OK == 1 &&
    !s.groupShut (s.groupOf (8 + x.idx)) && !(s.nrg x).gateLoss && s.rd (F.SHOT_SYNEN.EN x.idx) == 1

/-- A Raman trigger may be sent (R103). -/
def State.trigPermit (s : State) (x : Fibre) : Bool :=
  s.permit x && !s.groupShut (s.groupOf (10 + x.idx)) && !(s.nrg x).trigLoss

/-- GATE_x is held low by EMIT_EN or by a take-off of its member (R99, R101, R128). -/
def State.gateHeld (s : State) (x : Fibre) : Bool := s.src.forced || s.gateShut x || (s.nrg x).gateLoss

/-- GATE_x is low from `f` up to now by a force or take-off: a gate window that this meets stays low to its end, and a force or shut
spoils its shot (R99, R101, R218). -/
def holdGate (x : Fibre) (forced : Bool) (f : Nat) (s : State) : State :=
  let s1 := s.modSch x (fun c => match c.gate with
    | some (u, d) => { c with gateCut := c.gateCut || decide (u ≤ s.now ∧ f < d) }
    | none => c)
  if forced then s1.addCause x causeForced (fun sl => decide (sl.gateUp ≤ s.now ∧ f < sl.gateDown)) else s1

/-- A force or take-off of GATE_x begins (R99, R101, R128). -/
def cutGate (x : Fibre) (forced : Bool) (s : State) : State :=
  holdGate x forced s.now (s.modSch x (fun c => { c with forcedAt := some (c.forcedAt.getD s.now) }))

/-- A force or take-off of GATE_x ends, unless another holds it (R99). -/
def liftGate (x : Fibre) (forced : Bool) (s : State) : State :=
  match (s.sch x).forcedAt with
  | none => s
  | some f => if s.gateHeld x then s else holdGate x forced f (s.modSch x (fun c => { c with forcedAt := none }))

/-- Levels of GATE_x and TRIG_x now (R73, R99, R101, R128). -/
def State.gateHigh (s : State) (x : Fibre) : Bool :=
  match (s.sch x).gate with
  | some (u, d) => decide (u ≤ s.now ∧ s.now < d) && !(s.sch x).gateCut && !s.gateHeld x
  | none => false
def State.trigHigh (s : State) (x : Fibre) : Bool :=
  match (s.sch x).trig with
  | some (u, d) => decide (u ≤ s.now ∧ s.now < d)
  | none => false

/-- The trigger of a fibre is cut now, which spoils its trace (R73, R221). -/
def cutTrig (x : Fibre) (s : State) : State :=
  let hit (a b : Nat) : Bool := decide (a ≤ s.now ∧ s.now < b)
  let s1 := s.modSch x (fun c => { c with trig := match c.trig with
    | some (u, d) => if hit u d then some (u, s.now) else some (u, d)
    | none => none })
  let d := s1.dts.at x.idx
  { s1 with dts := s1.dts.upd x.idx { d with traces := d.traces.map (fun t =>
      if hit t.tRL (t.tRL + t.width) then { t with bad := true } else t) } }

/-- Live target 0 and a fast fade down (R128). -/
def fadeOff (n : Nat) (s : State) : State :=
  let now := s.rd (F.SRC_STAT.NOW n)
  (s.wrs [((F.SRC_SET.SETPOINT n).live, 0), (F.SRC_STAT.FADING n, 1)]).setChan n { s.srcChan n with
    f := now, fade := some { v0 := now, v1 := 0, exp := false, k := 0, len := 1000 }, rise := none, fast := none }

/-- Live target and present value 0 at once (R102, R124). -/
def cutOff (n : Nat) (clamp : Bool) (s : State) : State :=
  (s.wrs [((F.SRC_SET.SETPOINT n).live, 0), (F.SRC_STAT.NOW n, 0), (F.SRC_STAT.FADING n, 0)]).setChan n { s.srcChan n with
    f := 0, fade := none, rise := none, fast := none, clamped := clamp }

/-- The current in amperes that a code commands through a sense resistor of `rsns` mΩ (R106). -/
def codeAmps (rsns v : Nat) : Rat := (v * 250 : Nat) / ((65536 * rsns : Nat) : Rat)

/-- The current that channel `n` regulates to (R106). -/
def State.srcAmps (s : State) (n : Nat) : Rat := codeAmps (s.rd (F.SRC_CFG.RSNS n)) (s.rd (F.SRC_STAT.NOW n))

/-- FAULT of a source member unless it carries one. -/
def setFault (n code : Nat) (s : State) : State :=
  if s.rd (F.SRC_STAT.FAULT n) = 0 then s.wr (F.SRC_STAT.FAULT n) code else s

/-- Shut a group: every member is taken off (R128). -/
def shutGroup (g : Nat) (s : State) : State :=
  let s1 := (List.range 8).foldl (fun s n =>
    if s.groupOf n = g then setFault n sfGroup (if (s.srcChan n).clamped then s else fadeOff n s) else s) s
  let s2 := fibres.foldl (fun s x => if s.groupOf (8 + x.idx) = g then cutGate x true s else s) s1
  fibres.foldl (fun s x => if s.groupOf (10 + x.idx) = g then cutTrig x s else s) s2

/-- Latch a fault of a member with its CAUSE code (R128, R129). -/
def memberFault (m cause : Nat) (s : State) : State :=
  let g := s.groupOf m
  let own := s.rd (F.SRC_GRP.MODE g) == 1
  -- the faulting member's own action
  let s1 :=
    -- FAULT = EMIT stays until R102 clears it
    if m < 8 then cutOff m true (if s.rd (F.SRC_STAT.FAULT m) = sfEmit then s else s.wr (F.SRC_STAT.FAULT m) cause)
    else
      let x : Fibre := if m % 2 = 0 then .a else .b
      if m < 10 then cutGate x false (if own then s.modNrg x (fun e => { e with gateLoss := true }) else s)
      else cutTrig x (if own then s.modNrg x (fun e => { e with trigLoss := true }) else s)
  let s2 := if s.rd (F.SRC_GRP.CAUSE g) = 0 then s1.wrs [(F.SRC_GRP.CAUSE g, cause), (F.SRC_GRP.MEMBER g, m)] else s1
  let s3 := if own || s.groupShut g then s2 else shutGroup g (s2.wr (F.SRC_GRP.SHUT g) 1)
  s3.event 0x0301 .fault noUnit none 0 m cause g

/-- Current code of a sense reading `sense`, in codes, reaches a share of full scale. -/
def atShare (sense num den : Nat) : Bool := decide (65536 * num ≤ sense * den)

/-- The conditions of R124 on channel `n`, by the sense current and drive last measured. -/
def State.overCond (s : State) (n : Nat) : Bool := atShare (s.srcChan n).sense (s.rd (F.SRC_PROT.OCLIM n)) 256
def State.shortCond (s : State) (n : Nat) : Bool :=
  let sense := (s.srcChan n).sense
  let low := s.rd (F.SRC_CFG.EN n) == 0 || (s.srcChan n).clamped || s.rd (F.SRC_STAT.NOW n) == 0 || s.src.forced
  decide (10 * (s.rd (F.SRC_STAT.NOW n)) + 65536 ≤ 10 * sense) || (low && atShare sense 1 10)
def State.openCond (s : State) (n : Nat) : Bool :=
  let now := s.rd (F.SRC_STAT.NOW n)
  decide (95 ≤ (s.srcChan n).drive ∧ 2 * (s.srcChan n).sense < now ∧ 1024 ≤ now)

/-- Since when a condition has held without a break: it starts with the first instant at which it holds, and ends with it. -/
def since (now : Nat) (holds : Bool) (from_ : Option Nat) : Option Nat := if holds then some (from_.getD now) else none

/-- The detection times of channel `n` run on, start or restart (R124). -/
def watchFaults (n : Nat) (s : State) : State :=
  let c := s.srcChan n
  s.setChan n { c with
    overFrom := since s.now (s.overCond n) c.overFrom, shortFrom := since s.now (s.shortCond n) c.shortFrom,
    openFrom := since s.now (s.openCond n) c.openFrom }

/-- What the regulator measures on channel `n`: the sense current in codes, and DRVn's share of its range in percent. -/
def measure (n : Nat) (drive : Option Nat) (sense : Nat) (s : State) : State :=
  let c := s.srcChan n
  watchFaults n (s.setChan n { c with sense := sense, drive := drive.getD c.drive })

/-- A condition has held for its detection time. -/
def heldFor (now time : Nat) (from_ : Option Nat) : Bool := match from_ with
  | some f => decide (f + time ≤ now)
  | none => false

/-- A member fault of a source channel is latched once its condition has held for its detection time (R124). -/
def latchFault (n code time : Nat) (from_ : SrcChan → Option Nat) (s : State) : State :=
  if heldFor s.now time (from_ (s.srcChan n)) = true ∧ s.rd (F.SRC_STAT.FAULT n) ≠ code then memberFault n code s else s

/-- OVERCUR on channel `n` with the sense current in codes: 1 µs (R124). -/
def overcur (n sense : Nat) (s : State) : State := latchFault n sfOvercur 1_000 (·.overFrom) (measure n none sense s)

/-- SHORT on channel `n` with the sense current in codes: 10 µs (R124). -/
def shortFault (n sense : Nat) (s : State) : State := latchFault n sfShort 10_000 (·.shortFrom) (measure n none sense s)

/-- OPEN on channel `n` with DRVn's share of its range in percent and the sense current: 100 µs (R124). -/
def openFault (n drive sense : Nat) (s : State) : State := latchFault n sfOpen 100_000 (·.openFrom) (measure n (some drive) sense s)

def execOvercur (n : Fin 8) (sense : Nat) (s : State) : Host.Outcome State Fault Refusal := done (overcur n sense s)
def execShort (n : Fin 8) (sense : Nat) (s : State) : Host.Outcome State Fault Refusal := done (shortFault n sense s)
def execOpen (n : Fin 8) (drive sense : Nat) (s : State) : Host.Outcome State Fault Refusal := done (openFault n drive sense s)

/-- Re-arm one group (R128). -/
def rearmGroup (g : Nat) (s : State) : State :=
  let shut := s.groupShut g
  let s1 := s.wrs [(F.SRC_GRP.SHUT g, 0), (F.SRC_GRP.CAUSE g, 0), (F.SRC_GRP.MEMBER g, 0)]
  let s2 := (List.range 8).foldl (fun s n =>
    if s.groupOf n = g ∧ s.rd (F.SRC_STAT.FAULT n) ≠ sfEmit then
      (s.wr (F.SRC_STAT.FAULT n) 0).setChan n { s.srcChan n with clamped := false } else s) s1
  let s3 := fibres.foldl (fun s x =>
    let s := if s.groupOf (8 + x.idx) = g then s.modNrg x (fun e => { e with gateLoss := false }) else s
    let s := if s.groupOf (8 + x.idx) = g then liftGate x shut s else s
    if s.groupOf (10 + x.idx) = g then s.modNrg x (fun e => { e with trigLoss := false }) else s) s2
  if s.rd (F.SRC_GRP.SHUT g) = 1 ∨ s.rd (F.SRC_GRP.CAUSE g) ≠ 0 then s3.event 0x0301 .clear noUnit none 0 0 0 g else s3

/-- GROUP_REARM (R128): the bits of SRC_GRP_CMD.REARM. -/
def groupRearm (mask : Nat) (s : State) : State :=
  ((List.range 4).foldl (fun s g => if mask / 2 ^ g % 2 = 1 then rearmGroup g s else s) s).answer .ok

def execGroupRearm (mask : Fin 16) (s : State) : Host.Outcome State Fault Refusal := done (groupRearm mask s)

/-! ## EMIT_EN (R101, R102) -/

/-- FAULT = EMIT clears once EMIT_IN = 1 and LATCHED = 0. -/
def clearEmit (s : State) : State :=
  if s.rd F.SRC_EMIT.EMIT_IN = 1 ∧ s.rd F.SRC_EMIT.LATCHED = 0 then
    (List.range 8).foldl (fun s n => if s.rd (F.SRC_STAT.FAULT n) = sfEmit then s.wr (F.SRC_STAT.FAULT n) 0 else s) s
  else s

/-- The outputs are forced and the filter restarts; the low began with EMIT_IN at 1 or 0. -/
def forceLow (s : State) : State :=
  let s1 := fibres.foldl (fun s x => cutTrig x (cutGate x true s)) s
  if s.rd F.SRC_EMIT.EMIT_IN = 1 then
    let s2 := s1.wrs [(F.SRC_EMIT.EMIT_IN, 0), (F.SRC_EMIT.EMIT_LOST, 1),
      (F.SRC_EMIT.LATCHED, if s.rd F.SRC_EMIT.EMLATCH = 1 then 1 else s.rd F.SRC_EMIT.LATCHED)]
    (List.range 8).foldl (fun s n => setFault n sfEmit (cutOff n (s.srcChan n).clamped s)) s2
  else s1

/-- EMIT_EN_LOW: a low of EMIT_EN that has lasted `ns`. Below 20 ns it has no effect; from 20 ns to 50 ns a free value tells
whether it forces; from 50 ns on it forces, and the pin stays low until EMIT_EN_HIGH. (DESIGN CHOICE, assumption 18.) -/
def emitLow (ns : Nat) (s : State) : State :=
  if ns < 20 then s
  else if ns < 50 then
    let s1 := s.spend 1
    if Config.freeNat s.fresh % 2 = 1 ∧ s.pins.emitEn = true then
      fibres.foldl (fun s x => liftGate x true s) ((forceLow s1).modSrc (fun v => { v with emitSince := some s.now }))
    else s1
  else if s.pins.emitEn = true then
    ({ forceLow s with pins := { s.pins with emitEn := false } }).modSrc (fun v =>
      { v with forced := true, emitSince := none, emitLowAt := some s.now })
  else s

/-- EMIT_EN_HIGH: the force ends and the filter of 10 ms begins; during a reset it is held (R102). -/
def emitHigh (s : State) : State :=
  if s.pins.emitEn = false then
    -- a reset holds the filter until its release
    let held := s.boot.episode.any (· < 4) && s.boot.release.isNone
    fibres.foldl (fun s x => liftGate x true s) (((s.modPins (fun q => { q with emitEn := true }))).modSrc (fun v =>
      { v with forced := false, emitSince := if held then none else some s.now, emitLowAt := none }))
  else s

/-- EMIT_FILTER_EXPIRE: 10 ms of uninterrupted high. -/
def emitExpire (s : State) : State :=
  match s.src.emitSince with
  | some t =>
    if s.pins.emitEn = true ∧ s.rd F.SRC_EMIT.EMIT_IN = 0 ∧ t + 10_000_000 ≤ s.now then clearEmit (s.wr F.SRC_EMIT.EMIT_IN 1) else s
  | none => s

/-- SRC_REARM (R102). -/
def srcRearm (s : State) : State :=
  if s.rd F.SRC_EMIT.EMIT_IN = 0 then s.answer .refused else (clearEmit (s.wr F.SRC_EMIT.LATCHED 0)).answer .ok

def execEmitEnLow (ns : Nat) (s : State) : Host.Outcome State Fault Refusal := done (emitLow ns s)
def execEmitEnHigh (s : State) : Host.Outcome State Fault Refusal := done (emitHigh s)
def execEmitFilterExpire (s : State) : Host.Outcome State Fault Refusal := done (emitExpire s)
def execSrcRearm (s : State) : Host.Outcome State Fault Refusal := done (srcRearm s)

/-! ## Setpoints and SYNC (R111–R116) -/

/-- Channels that take part in a batch (R111, R114). -/
def State.batch (s : State) : List Nat :=
  (List.range 8).filter (fun n => s.rd (F.SRC_STAT.STAGED n) == 1 && s.rd (F.SRC_STAT.FAULT n) == 0 && !s.groupShut (s.groupOf n))

/-- A member's present value: the value its fade has reached while it fades, else NOW (R113). -/
def State.fadeFrom (s : State) (n : Nat) : Nat :=
  if (s.srcChan n).fade.isSome then (s.srcChan n).f else s.rd (F.SRC_STAT.NOW n)

/-- A member's fade would rise above IDLE without seed (R114, R118). -/
def State.needsSeed (s : State) (n : Nat) : Bool :=
  let v := s.rd (F.SRC_SET.SETPOINT n)
  decide (s.rd (F.SRC_LIMIT.IDLE n) < v ∧ s.fadeFrom n < v) && (s.seeds n).any (fun x => !s.seeded x)

/-- Apply a member's shadow and begin its fade (R111, R113). -/
def applyMember (n : Nat) (s : State) : State :=
  let v0 := s.fadeFrom n
  let v1 := s.rd (F.SRC_SET.SETPOINT n)
  let s1 := (s.copyReg (R.SRC_SET n) (liveKey (R.SRC_SET n))).copyReg (R.SRC_FADE n) (liveKey (R.SRC_FADE n))
  (s1.wrs [(F.SRC_STAT.STAGED n, 0), (F.SRC_STAT.FADING n, 1)]).setChan n { s.srcChan n with
    f := v0, fade := some { v0 := v0, v1 := v1, exp := s.rd (F.SRC_FADE.EXP n) == 1, k := 0,
                            len := s.rd (F.SRC_FADE.FADE_MS n) * 1000 } }

/-- SYNC_TICK (R111, R114). -/
def syncTick (s : State) : State :=
  match s.src.tick with
  | none => s
  | some t =>
    if s.now < t then s
    else if s.batch.any s.needsSeed then
      (s.wr F.SRC_SYNC.PEND 1).modSrc (fun v => { v with tick := none, armed := false, deferred := true })
    else
      ((s.batch.foldl (fun s n => applyMember n s) s).wr F.SRC_SYNC.PEND 0).modSrc (fun v =>
        { v with tick := none, armed := false, deferred := false })

/-- A write to SRC_SET_n or SRC_FADE_n (R111, R114, R115). One that completes on a SYNC tick or later finds that tick's batch applied
(R112). -/
def srcSetWrite (n : Nat) (w : Word) (s0 : State) : State :=
  let s := syncTick s0
  if s.rd F.SRC_SYNC.PEND = 1 then s.answer .busy
  else (s.wrs [(F.SRC_SET.SETPOINT n, wordField 0 16 w), (F.SRC_STAT.STAGED n, 1)]).answer .ok

def srcFadeWrite (n : Nat) (w : Word) (s0 : State) : State :=
  let s := syncTick s0
  if s.rd F.SRC_SYNC.PEND = 1 then s.answer .busy
  else if wordField 0 16 w = 0 then s.answer .refused
  else (s.wrs [(F.SRC_FADE.EXP n, wordField 16 1 w), (F.SRC_FADE.FADE_MS n, wordField 0 16 w), (F.SRC_STAT.STAGED n, 1)]).answer .ok

def execSrcSetWrite (n : Fin 8) (w : Word) (s : State) : Host.Outcome State Fault Refusal := done (srcSetWrite n w s)
def execSrcFadeWrite (n : Fin 8) (w : Word) (s : State) : Host.Outcome State Fault Refusal := done (srcFadeWrite n w s)

/-- SRC_SYNC.GO: the tick is the second TIME edge strictly after the write (R112). (DEDUCED, assumption 10.) A second GO before that
tick joins it. (DESIGN CHOICE, assumption 90.) -/
def syncGo (rndsel : Nat) (s0 : State) : State :=
  let s := syncTick s0
  if s.rd F.SRC_SYNC.PEND = 1 then s.answer .busy
  else if rndsel = 3 then s.answer .refused
  else ((s.wr F.SRC_SYNC.RNDSEL rndsel).modSrc (fun v => { v with
    tick := match v.tick with | some t => some t | none => some ((s.now / 4 + 2) * 4) })).answer .ok

/-- SRC_SYNC.ARMRND (R112, R116). (DEDUCED, assumption 10.) -/
def syncArmrnd (rndsel : Nat) (s0 : State) : State :=
  let s := syncTick s0
  if s.rd F.SRC_SYNC.PEND = 1 then s.answer .busy
  else if rndsel = 0 ∨ rndsel = 3 then s.answer .refused
  else ((s.wrs [(F.SRC_SYNC.RNDSEL, rndsel), (F.SRC_SYNC.PEND, 1)]).modSrc (fun v => { v with armed := true })).answer .ok

def execSyncGo (rndsel : Fin 4) (s : State) : Host.Outcome State Fault Refusal := done (syncGo rndsel s)
def execSyncArmrnd (rndsel : Fin 4) (s : State) : Host.Outcome State Fault Refusal := done (syncArmrnd rndsel s)

def execSyncTick (s : State) : Host.Outcome State Fault Refusal := done (syncTick s)

/-- A ROUND event of fibre `x`, delivered on the first TIME edge at or after the boundary (R89, R112, R114, R118). -/
def srcRound (x : Fibre) (tB : Nat) (s : State) : State :=
  let edge := (tB + 3) / 4 * 4
  let s1 := (List.range 8).foldl (fun s n =>
    if s.rd (F.SRC_STAT.HELD n) = 1 ∧ (s.seeds n).contains x = true ∧ (s.seeds n).all s.seeded = true then
      s.wr (F.SRC_STAT.HELD n) 0 else s) s
  let sel := s.rd F.SRC_SYNC.RNDSEL
  if s.src.deferred then
    if (s.batch.any s.needsSeed) = false then s1.modSrc (fun v => { v with tick := some edge }) else s1
  else if s.src.armed = true ∧ sel = x.idx + 1 then s1.modSrc (fun v => { v with tick := some edge })
  else s1

/-! ## Thermal limits (R120, R121) -/

/-- The channel's sensor channel reports a fault (R120). -/
def State.sensorBad (s : State) (m : Nat) : Bool :=
  s.rd (F.SEN_STAT.CLAMP m) == 1 || s.rd (F.SEN_STAT.OOR m) == 1 || s.rd (F.SEN_STAT.IMPF m) == 1

/-- The sensor channel delivers settled output (R120). -/
def State.sensorSettled (s : State) (m : Nat) : Bool :=
  s.rd (F.FLT_AUX_STAT.STATE (40 + m)) == 2 && s.rd (F.FLT_AUX_STAT.STALE (40 + m)) == 0 && !s.sensorBad m

/-- TABLE mode of a channel. -/
def State.tableMode (s : State) (n : Nat) : Bool := s.rd (F.SRC_CFG.SNEN n) == 1 && s.sensorSettled (s.rd (F.SRC_CFG.SNSEL n))

/-- The highest of the three die temperatures in 0.01 °C (HK_MON4 to HK_MON6), once each has been converted. -/
def State.dieTemp (s : State) : Option Int :=
  if [4, 5, 6].all (fun n => s.rd (F.HK_MON.QUAL n) != 0) then
    some ([4, 5, 6].foldl (fun (m : Int) n => max m (s.rdI (F.HK_MON.VALUE n))) (-32768))
  else none

/-- A channel's table: temperatures in 0.01 °C and limits. -/
def State.thermTable (s : State) (n : Nat) : List (Int × Nat) :=
  (List.range 8).map (fun k => (s.rdI (F.SRC_TBL_DATA.TEMP (8 * n + k)), s.rd (F.SRC_TBL_DATA.LIMIT (8 * n + k))))

/-- Linear interpolation in a table, truncated toward zero (R121). -/
def tableLimit (t : Int) : List (Int × Nat) → Nat
  | [] => 0
  | [(_, l)] => l
  | (t0, l0) :: (t1, l1) :: rest =>
    if t ≤ t0 then l0
    else if t < t1 then ((l0 : Int) + ((l1 : Int) - l0) * (t - t0) / (t1 - t0)).toNat
    else tableLimit t ((t1, l1) :: rest)

/-- DERATE's limit at a temperature in 0.01 °C, truncated toward zero. -/
def derateLimit (smax derate : Nat) (knee t : Int) : Nat :=
  let overs := t - 10 * knee
  if overs ≤ 0 then smax else (max 0 ((smax : Int) * (100_000 - derate * overs)) / 100_000).toNat

/-- The temperature of DERATE mode: the sensor's picot value, or the die's (R120). -/
def State.derateTemp (s : State) (n : Nat) : Option Int :=
  let m := s.rd (F.SRC_CFG.SNSEL n)
  if s.rd (F.SRC_CFG.SNEN n) = 1 ∧ s.sensorBad m = false ∧ (s.auxChain (40 + m)).core.pic.isEmpty = false ∧
      dsEn (s.auxChain (40 + m)).cfg = true then
    some (s.rdI (F.FLT_AUX_VAL.PICOT (40 + m)))
  else s.dieTemp

/-- The thermal limit of a channel (R120, R121). -/
def State.thermLimit (s : State) (n : Nat) : Nat :=
  if s.tableMode n then tableLimit (s.rdI (F.FLT_AUX_VAL.HOLD (40 + s.rd (F.SRC_CFG.SNSEL n)))) (s.thermTable n)
  else match s.derateTemp n with
    | some t => derateLimit (s.rd (F.SRC_LIMIT.SMAX n)) (s.rd F.SRC_THERM.DERATE) (s.rdI F.SRC_THERM.KNEE) t
    | none => 0

/-! ## The regulator (R107, R113, R119) -/

/-- A fade's value at its present step (R113). -/
def fadeValue (d : Fade) : Nat :=
  if d.len ≤ d.k then d.v1
  else if d.exp then
    let e := fxExp (-(rndDiv (5 * d.k * fxOne) d.len))
    (rndDiv ((d.v1 : Int) * fxOne + ((d.v0 : Int) - d.v1) * e) fxOne).toNat
  else (rndDiv ((d.v0 : Int) * d.len + ((d.v1 : Int) - d.v0) * d.k) d.len).toNat

/-- The next step of a fade, with its value, or its end. -/
def fadeStep (d : Fade) : Option Fade × Nat :=
  let d' := { d with k := d.k + 1 }
  (if d'.len ≤ d'.k then none else some d', fadeValue d')

/-- Power reduction of a fibre is in force: PROBE, or commanded (R132). -/
def State.reduced (s : State) (x : Fibre) : Bool :=
  (s.sch x).probeReq || (s.sch x).probing || s.rd (F.SHOT_STAT.STATE x.idx) == 3

/-- A channel is unseeded (R119, R132). (DEDUCED, assumption 19.) -/
def State.unseeded (s : State) (n : Nat) : Bool :=
  (s.seeds n).any (fun x =>
    s.rd (F.SHOT_STAT.STATE x.idx) == 0 || s.reduced x ||
      (match s.src.lastLaunch.at x.idx with
       | some t => decide (t + s.rd (F.SRC_PROT.SEEDLOSS n) * 1000 ≤ s.now)
       | none => true))

/-- UNSEED and HELD of a channel follow its seed (R118, R119). -/
def seedState (n : Nat) (s : State) : State :=
  if s.unseeded n then s.wrs [(F.SRC_STAT.UNSEED n, 1), (F.SRC_STAT.HELD n, 0)]
  else if s.rd (F.SRC_STAT.UNSEED n) = 1 then s.wrs [(F.SRC_STAT.UNSEED n, 0), (F.SRC_STAT.HELD n, 1)]
  else s

/-- The ceiling of a channel: SMAX, the thermal limit, and IDLE while it lacks seed (R107). -/
def State.ceiling (s : State) (n : Nat) : Nat :=
  let c := min (s.rd (F.SRC_LIMIT.SMAX n)) (s.thermLimit n)
  if s.rd (F.SRC_STAT.UNSEED n) = 1 ∨ s.rd (F.SRC_STAT.HELD n) = 1 then min c (s.rd (F.SRC_LIMIT.IDLE n)) else c

/-- The ceiling's course over one update: the fast fade and the rise after it, and the ceiling in force (R107). -/
def ceilStep (smax ms now ceil : Nat) (c : SrcChan) : SrcChan × Nat :=
  let fast := match c.fast with
    | some d => if d.v1 = ceil then some d
      else if ceil < now then some { v0 := now, v1 := ceil, exp := false, k := 0, len := 1000 } else none
    | none => if ceil < now then some { v0 := now, v1 := ceil, exp := false, k := 0, len := 1000 } else none
  match fast with
  | some d =>
    let (d', v) := fadeStep d
    ({ c with ceil := ceil, fast := d', rise := none }, v)
  | none =>
    let begun := match c.rise with
      | some r => some r
      | none => if c.ceil < ceil ∧ now < ceil then some (now, 0) else none
    match begun with
    | some (vr, k) =>
      let k' := if c.rise.isNone then 0 else k + 1
      let v := min ceil (vr + smax * k' / (max 1 ms * 1000))
      ({ c with ceil := ceil, fast := none, rise := if v = ceil then none else some (vr, k') }, v)
    | none => ({ c with ceil := ceil, fast := none, rise := none }, ceil)

/-- One update of a channel. -/
def regulate (n : Nat) (s0 : State) : State :=
  let s := seedState n s0
  let bad := s.rd (F.SRC_CFG.SNEN n) == 1 && s.sensorBad (s.rd (F.SRC_CFG.SNSEL n))
  let c0 := { s.srcChan n with sensFault := bad }
  let s := if bad != (s.srcChan n).sensFault then s.event 0x0303 (if bad then .warn else .clear) noUnit none 0 n 0 0 else s
  let (fade, f) := match c0.fade with
    | some d => fadeStep d
    | none => (none, c0.f)
  -- a channel with EN = 0 holds NOW at 0; its fade value runs on
  let (c1, inForce) :=
    if s.rd (F.SRC_CFG.EN n) = 0 then ({ c0 with ceil := 0, fast := none, rise := none }, 0)
    else ceilStep (s.rd (F.SRC_LIMIT.SMAX n)) (s.liveFadeMs n) (s.rd (F.SRC_STAT.NOW n)) (s.ceiling n) c0
  watchFaults n ((s.wrs [(F.SRC_STAT.NOW n, min f inForce), (F.SRC_STAT.FADING n, if fade.isSome || c1.fast.isSome then 1 else 0),
    (F.SRC_STAT.THMODE n, if s.tableMode n then 0 else 1), (F.SRC_STAT.THLIM n, if s.thermLimit n < f then 1 else 0)]).setChan n
    { c1 with f := f, fade := fade })

/-- A fade that lowers a channel seeded by the fibre is in progress (R125). -/
def State.lowering (s : State) (x : Fibre) : Bool :=
  (List.range 8).any (fun n => (s.seeds n).contains x &&
    ((s.srcChan n).fast.isSome || (match (s.srcChan n).fade with | some d => decide (d.v1 < d.v0) | none => false)))

/-- LESUSP (R125, R130). -/
def showSusp (x : Fibre) (s : State) : State :=
  s.wr (F.SRC_PLOSS.LESUSP x.idx)
    (if s.lowering x ∨ 0 < (s.nrg x).suspend ∨ (s.sch x).round < 16 then 1 else 0)

/-- Judgement stays suspended while a lowering fade runs and for four rounds after it. -/
def markLowering (x : Fibre) (s : State) : State :=
  showSusp x (if s.lowering x then s.modNrg x (fun e => { e with suspend := 4, ramanSuspend := 4 }) else s)

/-- REGULATOR_UPDATE (R106, R107): the update of all eight channels, due once a µs. -/
def regulatorUpdate (s : State) : State :=
  if s.now < s.src.updDue then s
  else
    (fibres.foldl (fun s x => markLowering x s) ((List.range 8).foldl (fun s n => regulate n s)
      (s.modSrc (fun v => { v with updDue := s.now + 1000 })))).hkNote 9 s.now

def execRegulatorUpdate (s : State) : Host.Outcome State Fault Refusal := done (regulatorUpdate s)

/-- SEED_LOSS (R119) on channel `n`. -/
def execSeedLoss (n : Fin 8) (s : State) : Host.Outcome State Fault Refusal := onlyIf (s.unseeded n) s (seedState n s)

/-! ## Launch energy (R125–R127) -/

/-- The baseline after a round of value `e` (R125), in integers; the division truncates toward zero. -/
def baseline (susp : Bool) (b e : Int) : Int :=
  if susp ∨ b ≤ e then e else if b ≤ 10 * e then b + (e - b).tdiv 256 else b

/-- N / M at least FRES dB (R131). -/
def State.isFresnel (s : State) (x : Fibre) (m : ShotMetrics) : Bool :=
  decide (16 * (s.rd (F.SRC_SELV.FRES x.idx) : Int) ≤ dbOf m.n - dbOf m.m)

/-- A power below the noise floor plus a margin in dB. -/
def State.belowNf (s : State) (x : Fibre) (v margin : Nat) : Bool :=
  decide (dbOf v < s.rdI (F.FRP_NF.NFDB x.idx) + 16 * (margin : Int))

/-- Power reduction (R132, R133): FRESNEL 1 or ABSENT 2 at a point, in round `r`. Every launched shot of the round is bad, those still
to be launched too. -/
def powerReduce (x : Fibre) (cause point r : Nat) (s : State) : State :=
  let xi := x.idx
  let new_ := !(s.reduced x)
  let s1 := (s.addCause x causeSelv (fun sl => sl.round == r)).modCmt x (fun m =>
    { m with rounds := m.rounds.map (fun i => if i.round = r then { i with selv := true } else i) })
  let s2 := (s1.wrs [(F.SRC_SELVST.CAUSE xi, cause), (F.SRC_SELVST.POINT xi, point)]).modNrg x (fun e => { e with clean := 0 })
  if new_ then
    (s2.modSch x (fun c => { c with probeReq := true, probeEnd := false, probeAge := 0 })).event 0x0302 .fault noUnit (some x) 0 point 0 0
  else s2.modSch x (fun c => { c with probeEnd := false })

/-- The first round whose launched DAS shots await evaluation (R125). -/
def State.evalRound (s : State) (x : Fibre) : Option RoundInfo :=
  (s.cmt x).rounds.find? (fun i => i.low.isNone && (s.cmt x).slots.any (fun sl => sl.round == i.round && sl.kind == .das))

/-- Point 200 of a shot has left the front pipeline (R59, R125). -/
def State.point200 (s : State) (x : Fibre) (sl : Slot) : Nat := sl.tL + s.rd (F.SHOT_LRP.DELAY x.idx) + 200 + 24 + sl.w + 192

/-- The mean of a round's photodiode conversions P(r), truncated toward zero. -/
def RoundInfo.pd (i : RoundInfo) : Int := if i.pdCount = 0 then 0 else i.pdSum.tdiv i.pdCount

/-- P(r) does not stand against ABSENT: PDEN = 0 or 2 · P(r) ≥ P_B (R131). -/
def State.pdHolds (s : State) (x : Fibre) (r : Nat) : Bool :=
  s.rd (F.SRC_PLOSS.PDEN x.idx) == 0 ||
    decide ((s.nrg x).pdBase ≤ 2 * (match (s.cmt x).info r with | some i => i.pd | none => 0))

/-- A launch's photodiode conversion of the round is still due (R125). -/
def State.pdDue (s : State) (x : Fibre) (r : Nat) : Bool :=
  s.rd (F.SRC_PLOSS.PDEN x.idx) == 1 && s.hk.pds.any (fun p => p.2.1 == x && p.2.2 == r)

/-- L_pts as configured, which R131 keeps testing. -/
def State.fibrePts (s : State) (x : Fibre) : Nat := s.rd (F.SHOT_FLEN.LEN x.idx)

/-- The metrics of a shot over its grid points up to `last`: its words begin at point `first`; `gw` is the guard window in force
(R24, R204). -/
def State.shotMetrics (s : State) (x : Fibre) (sl : Slot) (gw : Nat × Nat) (last : Nat) (first : Int) (ws : List FrontWord) :
    ShotMetrics :=
  match sl.pulse with
  | some pl =>
    let g := s.gridOf x sl.tL sl.fMHz pl first ws
    metricsOf g.p (s.fibrePts x) gw last (s.powers g (last / g.p + 1))
  | none => metricsOf 1 (s.fibrePts x) gw last []

/-- E of the round's evaluated shots joins their slots. -/
def putEnergy (x : Fibre) (es : List (Nat × Nat)) (s : State) : State :=
  s.mapSlots x (fun sl => match es.find? (fun p => p.1 == sl.id) with
    | some p => { sl with e := some p.2 }
    | none => sl)

/-- LAUNCH_ENERGY_EVAL (R125, R126, R131): the first round whose shots await it, once its last DAS shot's point 200 has left the front
pipeline; `shots` holds the words of each of its launched DAS shots, from point `first` on, and `refs` the reference samples since those
before. The round's photodiode conversions have then been taken. (DEDUCED, assumption 19.) -/
def launchEval (x : Fibre) (refs : List RefSample) (first : Int) (shots : List (List FrontWord)) (s0 : State) : State :=
  let xi := x.idx
  match s0.evalRound x with
  | none => s0
  | some i =>
    let all := (s0.cmt x).slots.filter (fun sl => sl.round == i.round)
    let mine := all.filter (fun sl => sl.kind == .das)
    if all.length < i.nT ∨ shots.length ≠ mine.length ∨ mine.any (fun sl => decide (s0.now < s0.point200 x sl)) ∨
        s0.pdDue x i.round = true then s0
    else
      let s := s0.cordRun refs
      let ms := (mine.zip shots).map (fun p => s.shotMetrics x p.1 (0, 0) 200 first p.2)
      let e := s.nrg x
      let susp := s.lowering x || decide (0 < e.suspend) || decide (i.round < 16)
      let er := sumN (ms.map (·.e)) / ms.length
      let b := s.rd (F.SRC_LEBASE.BASE xi)
      let pden := s.rd (F.SRC_PLOSS.PDEN xi) == 1
      let p := i.pd
      let fres := ms.find? (s.isFresnel x)
      let absent := s.seeded x && ms.all (fun m => s.belowNf x m.m (s.rd (F.SRC_SELV.ABSDB xi))) && s.pdHolds x i.round
      let selvage := fres.isSome || absent || i.selv
      let low := !selvage && ((!susp && decide (10 * er < b)) ||
        (pden && decide (10 * p < e.pdBase ∨ p < s.rd (F.SRC_PLOSS.PDMIN xi) * 256)))
      let n := if low then min 3 (s.rd (F.SRC_PLOSS.LOWCNT xi) + 1) else 0
      let s1 := (s.wrs [(F.SRC_LEBASE.BASE xi, unsgn 32 (baseline susp b er)), (F.SRC_PLOSS.LOWCNT xi, n)]).modNrg x (fun e =>
        { e with pdBase := if pden then baseline susp e.pdBase p else e.pdBase, suspend := e.suspend - 1 })
      let s2 := (putEnergy x ((mine.zip ms).map (fun p => (p.1.id, p.2.e))) s1).modCmt x (fun c => { c with rounds := c.rounds.map (fun q =>
        if q.round = i.round then { q with low := some low } else q) })
      let s3 := if low then s2.addCause x causeLowRnd (fun sl => sl.round == i.round && sl.kind == .das) else s2
      let s4 := match fres with
        | some m => powerReduce x 1 m.nPoint i.round s3
        | none => if absent then powerReduce x 2 0 i.round s3 else s3
      let s5 := if n = 3 ∧ low = true ∧ s.gateShut x = false ∧ e.gateLoss = false then memberFault (8 + xi) 4 s4 else s4
      showSusp x s5

def execLaunchEnergyEval (x : Fibre) (refs : List RefSample) (first : Int) (shots : List (List FrontWord)) (s : State) :
    Host.Outcome State Fault Refusal := done (launchEval x refs first shots s)

/-- RAMAN_ROUND_EVAL (R127): the first complete Raman trace not yet judged. -/
def ramanEval (x : Fibre) (s : State) : State :=
  let xi := x.idx
  let d := s.dts.at xi
  match d.traces.find? (fun t => t.sums.isSome && !t.judged) with
  | none => s
  | some t =>
    let e := s.nrg x
    let er : Int := match t.sums with | some (v : TraceSum) => v.e | none => 0
    let susp := s.lowering x || decide (0 < e.ramanSuspend) || decide (e.ramanRounds < 16)
    let low := !susp && decide (10 * er < e.ramanBase)
    let n := if low then min 3 (s.rd (F.SRC_PLOSS.TLOWCNT xi) + 1) else 0
    let s1 := (s.wr (F.SRC_PLOSS.TLOWCNT xi) n).modNrg x (fun e =>
      { e with ramanBase := baseline susp e.ramanBase er, ramanRounds := e.ramanRounds + 1, ramanSuspend := e.ramanSuspend - 1 })
    let s2 := { s1 with dts := s1.dts.upd xi { d with traces := d.traces.map (fun q =>
      if q.round = t.round then { q with judged := true, bad := q.bad || low } else q) } }
    if n = 3 ∧ low = true ∧ s.groupShut (s.groupOf (10 + xi)) = false ∧ e.trigLoss = false then memberFault (10 + xi) 4 s2 else s2

def execRamanRoundEval (x : Fibre) (s : State) : Host.Outcome State Fault Refusal := done (ramanEval x s)

/-! ## Shot records and Selvage (R131–R134, R206, R212, R236) -/

/-- The first point from which every later 64-point mean lies below the threshold; none if the last one does not. -/
def quietFrom (low : Nat → Bool) (blocks : List Nat) : Option Nat :=
  let trailing := (blocks.reverse.takeWhile low).length
  if trailing = 0 then none else some (64 * (blocks.length - trailing))

/-- The first launched shot whose record is not complete (R206). -/
def State.openShot (s : State) (x : Fibre) : Option Slot := (s.cmt x).slots.find? (fun sl => sl.launched && !sl.complete)

/-- OVERLEN is first found in a shot (R131, R134, R236). A shot that was launched before the sounding round and ends in it finds nothing
new. (DEDUCED, assumption 20.) -/
def overlenFound (x : Fibre) (sl : Slot) (s : State) : State :=
  if s.rd (F.CMT_STAT.OVERLEN x.idx) = 1 ∨ (s.sch x).sounding = true then s
  else
    let s1 := s.addCause x causeOverlen (fun q => decide (sl.id ≤ q.id) && q.kind == .das)
    (s1.wrs [(F.CMT_STAT.OVERLEN x.idx, 1), (F.SRC_SELVST.CAUSE x.idx, 3)]).modSch x (fun c => { c with soundReq := true })

/-- BREAK on a T0 shot (R131, R134): a new one raises an event with the break point, the first from which every 64-point mean up to
L_pts − 1 lies below the margin. Where the last block does not, the break point is L_pts − 1. (DESIGN CHOICE, assumption 89.) -/
def breakTest (x : Fibre) (m : ShotMetrics) (s : State) : State :=
  let xi := x.idx
  let g := s.rd (F.SRC_SELV.GTHR xi)
  if s.belowNf x m.endMean g then
    let p := (quietFrom (fun v => s.belowNf x v g) m.blocks).getD (s.fibrePts x - 1)
    let s1 := s.wrs [(F.SRC_SELVST.CAUSE xi, 4), (F.SRC_SELVST.POINT xi, p)]
    if (s.nrg x).broken then s1
    else (s1.modNrg x (fun e => { e with broken := true })).event 0x0302 .fault noUnit (some x) 0 p 0 0
  else s.modNrg x (fun e => { e with broken := false })

/-- The guard window in force: the configured one, or after a re-plan the run from L_m (R70, R81). -/
def State.guardWindow (s : State) (x : Fibre) (w : Nat) : Nat × Nat :=
  let xi := x.idx
  let g := s.rd (F.SHOT_GUARD.GUARD xi)
  match (s.sch x).lm with
  | some l => if (s.sch x).replan then (0, 0) else (l, min (l + g) ((s.sch x).tr - s.rd (F.SHOT_LRP.DELAY xi) - w))
  | none => (s.rd (F.SHOT_FLEN.LEN xi), s.rd (F.SHOT_FLEN.LEN xi) + g)

/-- The last point that a sounding trace captures (R134). -/
def State.soundLast (s : State) (x : Fibre) (w : Nat) : Nat := 1_999_999 - s.rd (F.SHOT_LRP.DELAY x.idx) - w

/-- The sounding trace gives L_m (R81, R134). (DEDUCED, assumption 20.) -/
def soundingEnd (x : Fibre) (sl : Slot) (m : ShotMetrics) (s : State) : State :=
  let xi := x.idx
  let lm := (quietFrom (fun v => s.belowNf x v (s.rd (F.SRC_SELV.GTHR xi))) m.blocks).getD (s.soundLast x sl.w)
  let s1 := (s.wrs [(F.SRC_SELVST.CAUSE xi, 3), (F.SRC_SELVST.POINT xi, lm)]).modSch x (fun c =>
    { c with lm := some lm, replan := true, heldTo := some (max (c.tB + 2_000_000) (s.now + 2000)) })
  (s1.event 0x0202 .warn noUnit (some x) 0 lm 0 0).event 0x0302 .fault noUnit (some x) 0 lm 0 0

/-- A probe shot's conditions (R131–R133). -/
def probeTest (x : Fibre) (sl : Slot) (fresnel absent : Bool) (point : Nat) (s : State) : State :=
  let xi := x.idx
  if fresnel then powerReduce x 1 point sl.round s
  else if absent then powerReduce x 2 0 sl.round s
  else
    let n := (s.nrg x).clean + 1
    let s1 := s.modNrg x (fun e => { e with clean := n })
    if 3 ≤ n ∧ s.rd (F.SRC_SELVST.STATE xi) = 1 then
      ((s1.wr (F.SRC_SELVST.STATE xi) 2).modSch x (fun c => { c with probeEnd := true, probeReq := false })).event 0x0302 .clear noUnit
        (some x) 0 0 0 0
    else s1

/-- The conditions of R131 that one shot's metrics meet, as the record's flags: FRESNEL, ABSENT, OVERLEN and BREAK, bit 0 up. -/
def State.selvFlags (s : State) (x : Fibre) (sl : Slot) (gw : Nat × Nat) (m : ShotMetrics) : Nat :=
  let g := s.rd (F.SRC_SELV.GTHR x.idx)
  (if s.isFresnel x m then 1 else 0) +
  (if s.belowNf x m.m (s.rd (F.SRC_SELV.ABSDB x.idx)) && s.pdHolds x sl.round then 2 else 0) +
  (if gw.1 < gw.2 ∧ s.belowNf x m.guard g = false then 4 else 0) +
  (if sl.tone = 0 ∧ s.belowNf x m.endMean g = true then 8 else 0)

/-- Selvage acts on a shot's conditions (R131–R134): FRESNEL in any shot, ABSENT in a probe shot, OVERLEN in a DAS shot, BREAK in a T0
shot. -/
def selvageAct (x : Fibre) (sl : Slot) (flags : Nat) (m : ShotMetrics) (s : State) : State :=
  let s1 := match sl.kind with
    | .probe => probeTest x sl (nthBit flags 0) (nthBit flags 1) m.nPoint s
    | _ => if nthBit flags 0 then powerReduce x 1 m.nPoint sl.round s else s
  let s2 := if sl.kind = .das ∧ nthBit flags 2 = true then overlenFound x sl s1 else s1
  if sl.tone = 0 then breakTest x m s2 else s2

/-- SHOT_RECORD_COMPLETE (R206): the record of the first shot in flight is delivered. Its trace's words begin at point `first`; `refs` are
the reference samples since those before. -/
def shotRecord (x : Fibre) (refs : List RefSample) (first : Int) (ws : List FrontWord) (s0 : State) : State :=
  let xi := x.idx
  match s0.openShot x with
  | none => s0
  | some sl =>
    if s0.now + sl.w + 1 < sl.tL + sl.tmin + 216 then s0
    else
      let s := s0.cordRun refs
      let t1 := sl.tL + sl.tmin
      let gw := s.guardWindow x sl.w
      let m := s.shotMetrics x sl gw (max (s.fibrePts x) gw.2 - 1) first ws
      let cord := s.rd F.FRP_CD_CFG.EN == 1 && (!sl.cordOk || s.lockMissed (sl.tL + s.rd (F.FRP_CDT.EMIT xi)) t1)
      let selv := s.selvFlags x sl gw m
      let flags := s.traceFlags x sl
      let s1 := reflag x sl flags (s.putSlot x { sl with
        complete := true, causes := s.knownCauses x sl ||| (if cord then causeCord else 0), flags := flags, cordOk := !cord,
        peak := some m.peak, e := some m.e, selv := selv })
      let s2 := if sl.tone = 0 then s1.wrs [(F.FRP_HM0.NDB xi, unsgn 16 (dbOf m.n)), (F.FRP_HM0.MDB xi, unsgn 16 (dbOf m.m)),
          (F.FRP_HM1.GDB xi, unsgn 16 (dbOf m.guard)), (F.FRP_HM1.EDB xi, unsgn 16 (dbOf m.endMean))] else s1
      let s3 := selvageAct x sl selv m s2
      if sl.kind = .sound then soundingEnd x sl (s.shotMetrics x sl gw (s.soundLast x sl.w) first ws) s3 else s3

def execShotRecordComplete (x : Fibre) (refs : List RefSample) (first : Int) (ws : List FrontWord) (s : State) :
    Host.Outcome State Fault Refusal := done (shotRecord x refs first ws s)

end Sys2Proof.Machine
end

