-- ==== Sys2Proof/Machine/Dts.lean ====
section
/-!
DEFINITION. Temperature sensing (R207, R221, R311–R342): Raman traces, averaging periods, period records and the temperature
solution.
-/
namespace Sys2Proof.Machine

/-! ## Settings -/

/-- First point of bin `i` on fibre `x` (R313, R328). -/
def State.binStart (s : State) (x i : Nat) : Nat :=
  let g := s.dtsReg x
  let st := s.rd (F.DTS_START.START g)
  let wb := s.rd (F.DTS_CFG.WB g)
  if s.dtsDual ∧ x = 1 then s.rd F.DTS_LOOP.LOOP - st - (i + 1) * wb else st + i * wb

/-- DTS channels that a fibre counts against R37. -/
def State.dtsChannels (s : State) (x : Nat) : Nat := if s.dtsOn x then s.nbActive x else 0

/-- The codes of R331 that a fibre's settings give under plans `p` of both fibres. -/
def State.dtsCodes (s : State) (x : Nat) : List Nat :=
  let g := s.dtsReg x
  let wb := s.rd (F.DTS_CFG.WB g)
  let nb := s.nbActive x
  let pl := s.plan true x
  let q := s.plan true (1 - x)
  let first := s.rd (F.DTS_REF.REFSTART g)
  let cnt := s.rd (F.DTS_REF.REFCNT g)
  let sn := s.rd (F.DTS_CFG.SNSEL g)
  let exp := s.rd (F.DTS_CFG.AVGEXP g)
  let dualBad := s.dtsDual && (s.rd (F.SHOT_STAT.STATE (1 - x)) == 0 ||
    decide (pl.div * s.rd (F.SHOT_TRPER.TR_ACT x) ≠ q.div * s.rd (F.SHOT_TRPER.TR_ACT (1 - x))) ||
    decide (s.rd F.DTS_LOOP.LOOP < s.rd (F.DTS_START.START 0) + nb * wb ∨
      s.rd (F.SHOT_FLEN.LEN 1) < s.rd F.DTS_LOOP.LOOP - s.rd (F.DTS_START.START 0)))
  (if wb < 2 ∨ 256 < wb then [1] else []) ++ (if s.nbFit x = 0 then [2] else []) ++
  (if s.rd (F.SHOT_GUARD.GUARD x) < pl.twidth + 1124 then [3] else []) ++
  (if s.rd (F.DTS_CFG.FIXED g) = 0 ∧ (cnt = 0 ∨ min nb 16384 < first + cnt) then [4] else []) ++
  (if dualBad then [5] else []) ++ (if pl.mode = 0 then [6] else []) ++
  (if s.rd (F.DTS_CFG.FIXED g) = 0 ∧ (s.rd (F.SEN_CFG.EN sn) = 0 ∨ s.rd (F.SEN_CFG.CONV sn) ≠ 1 ∨ s.rd (F.FLT_AUX_CFG.EN (40 + sn)) = 0)
    then [7] else []) ++
  (if exp < 10 ∨ 24 < exp then [8] else [])

/-! ## State -/

def emptySum (nb : Nat) : TraceSum :=
  { as_ := List.replicate nb 0, st := List.replicate nb 0, ovr := List.replicate nb 0, darkAs := 0, darkSt := 0, e := 0,
    dovr := false, sub := false, cal := false }

def State.dt (s : State) (x : Fibre) : Dts := s.dts.at x.idx
def State.setDt (s : State) (x : Fibre) (d : Dts) : State := { s with dts := s.dts.upd x.idx d }
def State.modDt (s : State) (x : Fibre) (f : Dts → Dts) : State := s.setDt x (f (s.dt x))

/-- The timestamp of an instant, in 2^-16 ns (R51): from the present TIME edge on, its value before a step or SET on it; for an
instant before that edge, the value on the edge before, likewise. -/
def State.stampAt (s : State) (t : Nat) : Nat :=
  let v : Int :=
    if s.now ≤ t then (s.tb.edge : Int) + (s.tbInc : Int) * ((t : Int) - s.now) / 4
    else (s.tb.prev : Int) + (s.tb.prevInc : Int) * ((t : Int) + 4 - s.now) / 4
  ((v / 65536) % (2 ^ 80 : Int)).toNat

/-- A period beginning at an instant. -/
def newPeriod (nb t ts : Nat) : Period :=
  { good := 0, bad := 0, sums := emptySum nb, first := 0, last := 0, startAt := t, startTs := ts }

/-- DTS of one fibre stops with its period discarded (R318). -/
def dtsHalt (x : Fibre) (s : State) : State :=
  (s.modDt x (fun d => { d with traces := [], period := none, run := false })).wrs
    [(F.DTS_STAT.STATE x.idx, 0), (F.DTS_STAT.NBACT x.idx, 0), (F.DTS_GOOD.GOOD x.idx, 0)]

/-- A stop of fibre `x` (R318). Under DUAL the pair needs both fibres, and a stop of either ends it. (DEDUCED, assumption 99.) -/
def dtsStop (x : Fibre) (s : State) : State :=
  let s1 := dtsHalt x s
  if s.dtsDual = true ∧ (s.dt x).run = true then dtsHalt x.other s1 else s1

/-- The check of R331 fails with a code: DTS of the fibre stops, or of both under DUAL. -/
def dtsFail (x : Fibre) (c : Nat) (s : State) : State :=
  let s1 := (dtsHalt x (s.wr (F.DTS_STAT.ERR x.idx) c)).event 0x0A01 .warn noUnit (some x) 0 c 0 0
  if s.dtsDual then dtsHalt x.other (s1.wr (F.DTS_STAT.ERR x.other.idx) c) else s1

/-- Acquisition start of fibre `x` with t_B(0) at `t` (R316, R318, R329, R331). -/
def dtsStart (x : Fibre) (t : Nat) (s : State) : State :=
  let s0 := (s.wr (F.DTS_PER.K x.idx) 0).modDt x (fun d => { d with
    traces := [], period := none, run := false, lnC := none,
    coef := s.reg (R.DTS_COEF (s.dtsReg x.idx)), lnc := s.reg (R.DTS_LNC (s.dtsReg x.idx)), pend := [], changed := false })
  if s.dtsOn x.idx then
    -- under DUAL the first fibre to start waits for the other
    if s.dtsDual = true ∧ s.rd (F.SHOT_STAT.STATE x.other.idx) = 0 then s0
    else match lowestCode (s.dtsCodes x.idx) with
      | 0 =>
        let go (y : Fibre) (s : State) : State :=
          (s.modDt y (fun d => { d with run := true, period := some (newPeriod (s.nbActive y.idx) t (s.stampAt t)) })).wrs
            [(F.DTS_STAT.ERR y.idx, 0), (F.DTS_STAT.STATE y.idx, 1), (F.DTS_STAT.NBACT y.idx, s.nbActive y.idx),
             (F.DTS_PER.K y.idx, 0), (F.DTS_GOOD.GOOD y.idx, 0), (F.DTS_STAT.REFHOLD y.idx, 0)]
        let s1 := go x s0
        if s.dtsDual then go x.other s1 else s1
      | c => dtsFail x c s0
  else dtsHalt x (s0.wr (F.DTS_STAT.ERR x.idx) 0)

/-- Adoption of a plan that changes T_R or the Raman fields repeats the check (R331). -/
def dtsRecheck (x : Fibre) (s : State) : State :=
  if (s.dt x).run then
    match lowestCode (s.dtsCodes x.idx) with
    | 0 => s
    | c => dtsFail x c s
  else s

/-! ## Raman traces (R207, R221, R312–R315) -/

/-- The AS or ST function of a fibre. -/
def asFunc (x : Nat) : Nat := 8 + 2 * x
def stFunc (x : Nat) : Nat := 9 + 2 * x

/-- x′ of R312: the code of a function's sample taken at `t`, brought to nominal magnitude by the slice that produced it. -/
def State.ramanValue (s : State) (f t : Nat) (code : Int) : Int :=
  let m := s.rd (F.SLC_GCAL_DATA.MAG (6 * s.roleAt f t + s.fixedGain f))
  if m = 0 then code else rndDiv (code * 32768) m

/-- Some fault span of the fibre's Raman functions, or an intrusive calibration of their slices, meets a trace (R221). -/
def State.ramanSpoilt (s : State) (x t0 t1 : Nat) : Bool :=
  s.slices.spans.any (fun p => decide (p.1 = asFunc x ∨ p.1 = stFunc x) && decide (p.2.t0 < t1 ∧ t0 ≤ p.2.t1)) ||
    s.intruded (fun f => f == asFunc x || f == stFunc x) t0 t1

/-- Slice-input times of a trace: its first point and the end of its last. -/
def State.ramanTimes (s : State) (x : Nat) (t : RamanTrace) : Nat × Nat :=
  (t.tRL + s.rd (F.DTS_RLRP.DELAY x), t.tRL + s.rd (F.DTS_RLRP.DELAY x) + t.len)

/-- The sums of a Raman trace (R207, R314, R315). -/
def traceSum (x : Fibre) (t : RamanTrace) (ws : List RamanWord) (s : State) : TraceSum :=
  let xi := x.idx
  let times := s.ramanTimes xi t
  let va := ws.zipIdx.map (fun w => s.ramanValue (asFunc xi) (times.1 + w.2) w.1.as_)
  let vs := ws.zipIdx.map (fun w => s.ramanValue (stFunc xi) (times.1 + w.2) w.1.st)
  let n := t.len
  let dark (l : List Int) : Int := ((l.drop (n - 1024)).take 1024).foldl (· + ·) 0
  let da := dark va
  let ds := dark vs
  let la := rndDiv da 1024
  let ls := rndDiv ds 1024
  let wb := s.rd (F.DTS_CFG.WB (s.dtsReg xi))
  let nb := s.rd (F.DTS_STAT.NBACT xi)
  let sum (l : List Int) (lv : Int) (i : Nat) : Int :=
    ((l.drop (s.binStart xi i)).take wb).foldl (fun a v => a + (v - lv)) 0
  let ovr (l : List RamanWord) : Nat := sumN (l.map (fun w => (if w.ovrAs then 1 else 0) + (if w.ovrSt then 1 else 0)))
  let raman (f : Nat) : Bool := f == asFunc xi || f == stFunc xi
  { as_ := (List.range nb).map (sum va la), st := (List.range nb).map (sum vs ls),
    ovr := (List.range nb).map (fun i => ovr ((ws.drop (s.binStart xi i)).take wb)), darkAs := da, darkSt := ds,
    e := ((vs.drop 20).take 181).foldl (fun a v => a + (v - ls)) 0,
    dovr := decide (0 < ovr ((ws.drop (n - 1024)).take 1024)),
    sub := s.slices.subs.any (fun r => raman r.func && decide (r.start < times.2) &&
      (match r.stop with | some e => decide (times.1 < e) | none => true)),
    cal := s.slices.swaps.any (fun p => raman p.1 && decide (times.1 < p.2.1 ∧ p.2.1 < times.2)) ||
      [asFunc xi, stFunc xi].any (fun f => decide (times.1 ≤ mapGet (fun _ => (0 : Nat)) s.slices.calTimes (s.role f) ∧
        0 < mapGet (fun _ => (0 : Nat)) s.slices.calTimes (s.role f))) }

/-- The Raman slices count the over-range samples of a trace (R155). -/
def countRaman (x t : Nat) (ws : List RamanWord) (s : State) : State :=
  let last := t + ws.length - 1
  let one (f : Nat) (isOvr : RamanWord → Bool) (s : State) : State :=
    [s.roleAt f t, s.roleAt f last].eraseDups.foldl (fun (s : State) n =>
      countOvr n last (ws.zipIdx.map (fun w => isOvr w.1 && s.roleAt f (t + w.2) == n)) s) s
  one (stFunc x) (·.ovrSt) (one (asFunc x) (·.ovrAs) s)

/-- RAMAN_TRACE_COMPLETE (R207): the words of the first trace that awaits them, points 0 onwards. -/
def ramanTrace (x : Fibre) (ws : List RamanWord) (s : State) : State :=
  let xi := x.idx
  match (s.dt x).traces.find? (fun t => t.sums.isNone) with
  | none => s
  | some t =>
    let times := s.ramanTimes xi t
    if s.now + 1 < times.2 + 56 then s
    else
      let lost := s.role (asFunc xi) == 0xF || s.role (stFunc xi) == 0xF
      let v := traceSum x t ws s
      (countRaman xi times.1 ws s).modDt x (fun d => { d with traces := d.traces.map (fun q =>
        if q.round = t.round then { q with sums := some v, bad := q.bad || lost || s.ramanSpoilt xi times.1 times.2 } else q) })

def execRamanTraceComplete (x : Fibre) (ws : List RamanWord) (s : State) : Host.Outcome State Fault Refusal :=
  done (ramanTrace x ws s)

/-! ## The temperature solution (R322–R327, R330) -/

/-- ln R of a ratio with 30 fraction bits. -/
def lnRatio (r : Nat) : Int := if r = 0 then Config.lnZero else fxLnRatio r (2 ^ 30)

/-- z of bin `i` in km with 64 fraction bits (R3, R313). -/
def State.binKm (s : State) (x i : Nat) : Int :=
  let p2 : Int := 2 * (s.rd (F.DTS_START.START (s.dtsReg x)) + i * s.rd (F.DTS_CFG.WB (s.dtsReg x))) +
    s.rd (F.DTS_CFG.WB (s.dtsReg x)) - 1
  rndDiv (p2 * 29_979_245_800_000 * fxOne) (4_000_000_000_000 * max 1 (s.rd (F.SHOT_NG.NG x) : Int))

/-- A closed period as the solution takes it: label, ratios and RZ by bin, OVR counts, flags, T_ref. -/
structure Closed where
  label : Nat
  ratios : List Nat
  rz : List Bool
  ovr : List Nat
  dovr : Bool
  sub : Bool
  cal : Bool
  lost : Bool
  tref : Int
  stale : Bool
deriving DecidableEq, Repr

/-- The ratio of a bin: 30 fraction bits, saturated; 0 when ΣST ≤ 0 (R207, R321). -/
def binRatio (a b : Int) : Nat := if b ≤ 0 then 0 else satN 32 (rndDiv (max 0 a * 2 ^ 30) b).toNat

/-- L of every bin, none where it carries RZ (R324, R330). -/
def State.binL (s : State) (x : Nat) (a : Closed) (b : Option Closed) (dalpha : Int) : List (Option Int) :=
  (List.range a.ratios.length).map (fun i =>
    let ra := a.ratios.getD i 0
    match b with
    | none => if a.rz.getD i true then none
      else some (lnRatio ra + rndDiv (dalpha * fxMul (fxLnNat 10) (s.binKm x i)) 100_000)
    | some c =>
      let rb := c.ratios.getD i 0
      if a.rz.getD i true || c.rz.getD i true then none else some ((lnRatio ra + lnRatio rb) / 2))

/-- lnC from the reference bins (R324). -/
def refLnC (gamma tref : Int) (ls : List Int) : Option Int :=
  if ls.isEmpty ∨ tref + 27315 ≤ 0 then none
  else some (rndDiv (gamma * fxOne) (tref + 27315) + rndDiv (ls.foldl (· + ·) 0) (ls.length : Int))

/-- A temperature sample (R324, R326), within ±1 LSB of the exact result: value, erased, saturated. -/
def tempOf (free : Nat) (gamma : Int) (lnC : Option Int) (l : Option Int) : Int × Bool × Bool :=
  match lnC, l with
  | some c, some v =>
    if c - v ≤ 0 then (-32768, true, false)
    else
      let t := within1 free (gamma * fxOne - 27315 * (c - v)) (c - v)
      (satI 16 t, false, satI 16 t != t)
  | _, _ => (-32768, true, false)

/-- The least-squares slope of (ln R_B − ln R_A)/2 against z, in 0.0001 dB/km (R330); none where the points give no slope. -/
def fittedLoss (pts : List (Int × Int)) : Option Int :=
  let n : Int := pts.length
  let sx := pts.foldl (fun a p => a + p.1) 0
  let sy := pts.foldl (fun a p => a + p.2) 0
  let sxx := pts.foldl (fun a p => a + p.1 * p.1) 0
  let sxy := pts.foldl (fun a p => a + p.1 * p.2) 0
  let den := n * sxx - sx * sx
  if den ≤ 0 then none else some (rndDiv ((n * sxy - sx * sy) * 100_000 * fxOne) (den * fxLnNat 10))

/-- The solution's records of a period of fibre `x`, with the state that lnC leaves (R324–R327). -/
def solve (x : Fibre) (a : Closed) (b : Option Closed) (s : State) : State × List Sol :=
  let xi := x.idx
  let g := s.dtsReg xi
  let d := s.dt x
  let gamma : Int := wordField 0 16 d.coef
  let dalpha := sgn 16 (wordField 16 16 d.coef)
  let ls := s.binL xi a b dalpha
  let lost := a.lost || (match b with | some c => c.lost | none => false)
  let refs := (List.range (s.rd (F.DTS_REF.REFCNT g))).filterMap (fun k =>
    let i := s.rd (F.DTS_REF.REFSTART g) + k
    let clean := decide (a.ovr.getD i 0 = 0) && (match b with | some c => decide (c.ovr.getD i 0 = 0) | none => true)
    if clean then ls.getD i none else none)
  let fixed := s.rd (F.DTS_CFG.FIXED g) == 1
  let formed : Option Int :=
    if fixed then some (d.lnc.toInt * 2 ^ 40) else if a.stale ∨ lost then none else refLnC gamma a.tref refs
  let lnC := match formed with
    | some v => some v
    | none => d.lnC
  let held := formed.isNone
  let sub := a.sub || (match b with | some c => c.sub | none => false)
  let cal := a.cal || d.changed || (match b with | some c => c.cal | none => false)
  let n := a.ratios.length
  let outs : List (Bool × Word) := (List.range n).map (fun i =>
    let (t, er, sat) := tempOf (Config.freeNat (s.fresh + i)) gamma lnC (ls.getD i none)
    let er := er || lost
    let ov := a.ovr.getD i 0 + (match b with | some c => c.ovr.getD i 0 | none => 0)
    let clip := decide (0 < ov) || a.dovr || (match b with | some c => c.dovr | none => false) || sat
    let q := (if er then 16 else 1) + (if clip then 2 else 0) + (if sub then 32 else 0) + (if cal then 128 else 0)
    (er, w32 (unsgn 16 (if er then -32768 else t) * 65536 + q)))
  let words := outs.map (·.2)
  let k := s.rd (F.DTS_PER.K xi)
  let loss := match b with
    | none => some 0
    | some c => fittedLoss ((List.range n).filterMap (fun i =>
        if (outs.getD i (true, 0)).1 then none
        else some (s.binKm xi i, (lnRatio (c.ratios.getD i 0) - lnRatio (a.ratios.getD i 0)) / 2)))
  let label := match b with
    | none => a.label
    | some c => (a.label + c.label) / 2
  let word (which : Nat) (v : Option Int) : Word := match v with
    | some v => if satI 32 v = v then w32I v else Config.openTrailer k which
    | none => Config.openTrailer k which
  let lnW := word 0 (lnC.map (fun v => rndDiv v (2 ^ 40)))
  let m := ceilDiv n 16384
  let recs := (List.range m).map (fun j =>
    let part := (words.drop (16384 * j)).take 16384
    let pay := if j + 1 = m then part ++ [lnW, word 1 loss] else part
    let r : Record := {
      kind := 4, fibre := 0, pic := false, bad := false, ns := pay.length, h1 := w32 (16384 * j), h2 := w32 label, h3 := 0,
      payload := pay, label := label, born := 0 }
    ({ k := k, m := j, last := decide (j + 1 = m), lnC := lnC.map (fun _ => lnW), data := r } : Sol))
  let s1 := (s.modDt x (fun d => { d with lnC := lnC, changed := false })).wrs
    [(F.DTS_STAT.REFHOLD xi, if held ∧ lnC.isSome then 1 else 0)]
  let s2 := s1.spend n
  let s3 := if held = true ∧ lnC.isSome = true ∧ s.rd (F.DTS_STAT.REFHOLD xi) = 0 then
      s2.event 0x0A01 .warn noUnit (some x) 0 0 0 0 else s2
  (s3, recs)

/-! ## Closing a period (R316–R321, R329) -/

/-- What a period gives the solution, with the reference temperature captured now (R323). -/
def closedOf (x : Fibre) (p : Period) (lost : Bool) (at_ : Nat) (s : State) : Closed :=
  let sn := 40 + s.rd (F.DTS_CFG.SNSEL (s.dtsReg x.idx))
  let n := s.rd (F.DTS_STAT.NBACT x.idx)
  let v := if lost then emptySum n else p.sums
  { label := (if lost then (p.startTs + s.stampAt at_) / 2 else (p.first + p.last) / 2) / 65536,
    ratios := (List.range n).map (fun i => binRatio (v.as_.getD i 0) (v.st.getD i 0)),
    rz := (List.range n).map (fun i => decide (v.st.getD i 0 ≤ 0)), ovr := v.ovr, dovr := v.dovr,
    sub := v.sub, cal := v.cal, lost := lost, tref := s.rdI (F.FLT_AUX_VAL.HOLD sn),
    stale := s.rd (F.FLT_AUX_STAT.STALE sn) == 1 }

/-- Mean dark level in 1/16 of x′. -/
def darkLevel (sum : Int) (good : Nat) : Int := if good = 0 then 0 else rndDiv (16 * sum) (1024 * (good : Int))

/-- The period records of R321. (DEDUCED, assumption 72.) -/
def periodRecords (x : Fibre) (p : Period) (c : Closed) (s : State) : List Record :=
  let xi := x.idx
  let n := c.ratios.length
  let m := ceilDiv n 16384
  let v := if c.lost then emptySum n else p.sums
  (List.range m).map (fun k =>
    let lo := 16384 * k
    let cnt := min 16384 (n - lo)
    let bins := List.range cnt |>.map (· + lo)
    let words := bins.flatMap (fun i =>
      let a := unsgn 48 (v.as_.getD i 0)
      let b := unsgn 48 (v.st.getD i 0)
      [w32 a, w32 b, w32 (a / 2 ^ 32 * 65536 + b / 2 ^ 32), w32 (c.ratios.getD i 0)])
    let codes := bins.map (fun i => (if v.st.getD i 0 ≤ 0 then 128 else 0) + min 127 (v.ovr.getD i 0))
    let pay := [w32 p.good, w32 p.bad, w32I (darkLevel v.darkAs p.good), w32I (darkLevel v.darkSt p.good),
      w32 ((if c.stale then 65536 else 0) + unsgn 16 c.tref),
      w32 (k * 2 ^ 24 + m * 2 ^ 16 + (if s.dtsDual then 16 else 0) + (if c.dovr then 8 else 0) + (if c.cal then 4 else 0) +
        (if c.sub then 2 else 0) + (if c.lost then 1 else 0)),
      w32 (s.rd (F.DTS_PER.K xi)), w32 (c.label / 2 ^ 32)] ++ words ++ packQuality codes
    { kind := 5, fibre := xi, pic := false, bad := c.lost, ns := pay.length, h1 := w32 lo, h2 := w32 c.label, h3 := 0,
      payload := pay, label := c.label, born := 0 })

/-- Instants from which the records of a close are readable: 160 ns after each is complete (R320). -/
def recordTimes (t n m : Nat) : List Nat :=
  (List.range m).map (fun k => t + 2160 + ceilDiv (5 * min (16384 * (k + 1)) n) 2)

/-- Coefficients written at least 4 µs before a close come into force with it (R325). -/
def adoptCoef (x : Fibre) (at_ : Nat) (s : State) : State :=
  let due (p : Nat × Bool × Word) : Bool := decide (p.1 + 4000 ≤ at_)
  s.modDt x (fun d =>
    let d1 := (d.pend.filter due).foldl (fun (d : Dts) p => if p.2.1 then { d with lnc := p.2.2 } else { d with coef := p.2.2 }) d
    { d1 with pend := d.pend.filter (fun p => !due p), changed := d1.coef != d.coef || d1.lnc != d.lnc })

/-- The next period of a fibre: it begins with the first trace after the last counted one (R316). A LOST period with no trace in hand is
followed at once by the next, so that a fibre without traces closes period after period as LOST (R317). (DEDUCED, assumption 99.) -/
def nextPeriod (x : Fibre) (lost : Bool) (at_ : Nat) (s : State) : State :=
  let k := (s.rd (F.DTS_PER.K x.idx) + 1) % 2 ^ 32
  let n := s.rd (F.DTS_STAT.NBACT x.idx)
  let next (d : Dts) : Option Period := match d.traces.head? with
    | some t => some (newPeriod n t.tRL t.ts)
    | none => if lost then some (newPeriod n at_ (s.stampAt at_)) else none
  ((s.modDt x (fun d => { d with period := next d })).wrs
    [(F.DTS_PER.K x.idx, k), (F.DTS_GOOD.GOOD x.idx, 0), (F.DTS_STAT.STATE x.idx, 1)])

/-- Queue a fibre's period records. -/
def queueRaw (x : Fibre) (p : Period) (c : Closed) (at_ : Nat) (s : State) : State :=
  let recs := periodRecords x p c s
  s.modDt x (fun d => { d with out := d.out ++ (recordTimes at_ c.ratios.length recs.length).zip recs })

/-- A fibre's period; an empty one where it awaits its first trace. -/
def State.periodNow (s : State) (x : Fibre) (at_ : Nat) : Period :=
  (s.dt x).period.getD (newPeriod (s.rd (F.DTS_STAT.NBACT x.idx)) at_ (s.stampAt at_))

/-- Close the period of one fibre, or the pair of both, at an instant (R316, R317, R329). (DEDUCED, assumption 72.) -/
def dtsClose (x : Fibre) (lost : Bool) (at_ : Nat) (s : State) : State :=
  let lose (y : Fibre) (u : State) : State :=
    if lost then (u.wr (F.DTS_STAT.LOSTSEEN y.idx) 1).event 0x0A01 .warn noUnit (some y) 0 (s.rd (F.DTS_PER.K y.idx)) 0 0 else u
  if s.dtsDual then
    if (s.dt .a).run && (s.dt .b).run then
      let s0 := adoptCoef .a at_ s
      let p := s.periodNow .a at_
      let q := s.periodNow .b at_
      let ca := closedOf .a p lost at_ s0
      let cb := { closedOf .b q lost at_ s0 with tref := ca.tref, stale := ca.stale }
      let s1 := queueRaw .b q cb at_ (queueRaw .a p ca at_ s0)
      let (s2, sol) := solve .a ca (some cb) s1
      lose .b (lose .a (nextPeriod .b lost at_ (nextPeriod .a lost at_ (s2.modDt .a (fun d => { d with sols := d.sols ++ sol })))))
    else s
  else match (s.dt x).period with
    | none => s
    | some p =>
      let s0 := adoptCoef x at_ s
      let c := closedOf x p lost at_ s0
      let (s2, sol) := solve x c none (queueRaw x p c at_ s0)
      lose x (nextPeriod x lost at_ (s2.modDt x (fun d => { d with sols := d.sols ++ sol })))

/-- Good traces of a period (R316). -/
def State.dtsAvg (s : State) (x : Nat) : Nat := 2 ^ s.rd (F.DTS_CFG.AVGEXP (s.dtsReg x))

/-- Add a good trace to a period. -/
def addTrace (t : RamanTrace) (v : TraceSum) (p : Period) : Period :=
  let q := p.sums
  { p with
    good := p.good + 1, first := if p.good = 0 then t.ts else p.first, last := t.ts,
    sums := { as_ := List.zipWith (· + ·) q.as_ v.as_, st := List.zipWith (· + ·) q.st v.st,
              ovr := List.zipWith (fun a b => min 127 (a + b)) q.ovr v.ovr, darkAs := q.darkAs + v.darkAs,
              darkSt := q.darkSt + v.darkSt, e := 0, dovr := q.dovr || v.dovr, sub := q.sub || v.sub, cal := q.cal || v.cal } }

/-- A trace's verdict is final (R221, R316): a bad one is skipped, a good one counted; the AVG-th closes the period at the round
boundary that has come. -/
def finishTrace (x : Fibre) (t : RamanTrace) (s : State) : State :=
  let xi := x.idx
  let times := s.ramanTimes xi t
  let bad := t.bad || t.sums.isNone || s.ramanSpoilt xi times.1 times.2
  let s0 := s.modDt x (fun d => { d with traces := d.traces.filter (fun q => q.round != t.round) })
  let s1 := if bad then s0.bump (F.CMT_TBAD.COUNT xi) else s0
  match (s.dt x).period, t.sums with
  | some p, some v =>
    if bad then s1.modDt x (fun d => { d with period := some { p with bad := p.bad + 1 } })
    else if s.dtsAvg xi ≤ p.good then s1
    else
      let p' := addTrace t v p
      let s2 := (s1.modDt x (fun d => { d with period := some p' })).wr (F.DTS_GOOD.GOOD xi) p'.good
      if p'.good < s.dtsAvg xi then s2
      else if s.dtsDual then
        match (s2.dt x.other).period with
        | some q => if s.dtsAvg xi ≤ q.good then dtsClose x false (s.sch x).tB s2 else s2.wr (F.DTS_STAT.STATE xi) 2
        | none => s2.wr (F.DTS_STAT.STATE xi) 2
      else dtsClose x false (s.sch x).tB s2
  | some p, none => s1.modDt x (fun d => { d with period := some { p with bad := p.bad + 1 } })
  | none, _ => s1

/-- Traces of rounds up to `r` have their final verdicts. -/
def dtsBoundary (x : Fibre) (q : Nat) (s : State) : State :=
  if 2 ≤ q then foldS (finishTrace x) ((s.dt x).traces.filter (fun t => decide (t.round ≤ q - 2))) s else s

/-- The timeout of R317 and R329, in ns. -/
def State.dtsTimeout (s : State) (x : Nat) : Nat :=
  let one (y : Nat) : Nat := (s.plan true y).div * s.rd (F.SHOT_TRPER.TR_ACT y)
  4 * s.dtsAvg x * (if s.dtsDual then max (one 0) (one 1) else one x)

/-- The start that a fibre's timeout runs from: its period's, or under DUAL the pair's, whose periods may begin apart (R317, R329). -/
def State.dtsStartAt (s : State) (x : Fibre) : Option Nat :=
  match (s.dt x).period, (s.dt x.other).period with
  | some p, some q => some (if s.dtsDual then min p.startAt q.startAt else p.startAt)
  | some p, none => some p.startAt
  | none, some q => if s.dtsDual then some q.startAt else none
  | none, none => none

/-- PERIOD_TIMEOUT (R317). -/
def periodTimeout (x : Fibre) (s : State) : State :=
  match s.dtsStartAt x with
  | some t0 =>
    let t := t0 + s.dtsTimeout x.idx
    if (s.dt x).run = true ∧ t ≤ s.now then dtsClose x true t s else s
  | none => s

def execPeriodTimeout (x : Fibre) (s : State) : Host.Outcome State Fault Refusal := done (periodTimeout x s)

/-- PERIOD_RECORD_WRITE (R320): the oldest period record that is due goes to its bobbin. -/
def periodWrite (x : Fibre) (s : State) : State :=
  match (s.dt x).out with
  | [] => s
  | (t, r) :: rest =>
    if s.now < t then s
    else ((s.modDt x (fun d => { d with out := rest })).produce (s.rd (F.DTS_BOB.RAW x.idx)) r .queued noTags none).1

def execPeriodRecordWrite (x : Fibre) (s : State) : Host.Outcome State Fault Refusal := done (periodWrite x s)

/-! ## The solution's lane (R322, R327, R330) -/

/-- Lane n serves the temperature solution as ACTIVE: the group of fibres it solves. -/
def State.solGroup (s : State) (n : Nat) : Option Fibre :=
  let l := s.logical (s.laneLL n)
  if s.laneMode n == laneActive && l.solution then
    fibres.find? (fun x => s.dtsReg x.idx == x.idx && s.rd (F.DTS_CFG.EN x.idx) == 1 && s.rd (F.DTS_CFG.LL x.idx) == s.laneLL n)
  else none

/-- Clocks of the solution for a record of `n` bins (R322). -/
def solClocks (dual : Bool) (n : Nat) : Nat := 600 + (if dual then 36 else 24) * n

/-- The solution's SHDR reads the next period record of IN0, or of IN1 under DUAL. Once it holds what it needs, its SEND falls the
clocks of R322 later. (DEDUCED, assumption 100.) -/
def solRead (x : Fibre) (n port : Nat) (s : State) : State :=
  let ll := s.laneLL n
  let l := s.logical ll
  match l.inBob port with
  | none => s
  | some b =>
    let p := l.core.ins.getD port emptyPort
    if ((s.dt x).got.at port).isSome then s
    else match s.portNext l port b p.pos with
      | none => laneWait ll l s
      | some st =>
        let r := st.data
        let key := ((wordAt r.payload 6).toNat, wordField 24 8 (wordAt r.payload 5))
        let got := (s.dt x).got.upd port (some key)
        let bins := (r.payload.length - 8) * 4 / 17
        let ready := !s.dtsDual || (got.a.isSome && got.b.isSome)
        let clocks := solClocks s.dtsDual bins
        let l1 := { l with core := { l.core with ins := setAt l.core.ins port { p with pos := st.idx + 1 } }, wait := false,
                           retired := s.now, busy := l.busy + if ready then clocks else 0 }
        ((((s.setLogical ll l1).readPages b (.lanePort ll port) p.pos (st.idx + 1))).modDt x (fun d => { d with
          got := got, solAt := if ready then some (s.now + ceilDiv (5 * clocks) 4) else d.solAt })).sweepBob b

/-- The solution's SEND: the record of what it read goes to OUT0, released at once (R327, R234). A period's last record shows the lnC in
use (R338). -/
def solSend (x : Fibre) (n : Nat) (s : State) : State :=
  let d := s.dt x
  let ll := s.laneLL n
  match d.solAt with
  | none => s
  | some t =>
    if s.now < t then s
    else
      let b := s.rd (F.DTS_BOB.OUT (s.dtsReg x.idx))
      let key := if s.dtsDual = true ∧ d.got.a ≠ d.got.b then none else d.got.a
      let finish (s : State) : State := s.modDt x (fun d => { d with got := ⟨none, none⟩, solAt := none })
      match d.sols.find? (fun q => some (q.k, q.m) == key) with
      | none => finish s
      | some q =>
        let (s1, ok) := s.gateWrite b (s.rd (F.GND_BCLAIM.CLAIM b)) (laneUnit n) q.data .queued noTags none
        if ok then
          let s2 := finish (s1.modDt x (fun d => { d with sols := (d.sols.dropWhile (fun p => p != q)).drop 1 }))
          match q.last, q.lnC with
          | true, some w => s2.wr (F.DTS_LNCACT.LNCACT x.idx) w.toNat
          | _, _ => s2
        else laneWait ll (s.logical ll) s

/-- DTS_COEF_WRITE (R325): DTS_COEF, or DTS_LNC when `lnc`. GAMMA outside its range is refused (R624). -/
def coefWrite (x : Fibre) (lnc : Bool) (w : Word) (s : State) : State :=
  let put (s : State) : State := (s.modDt x (fun d => { d with pend := d.pend ++ [(s.now, lnc, w)] })).answer .ok
  if lnc then put (s.setReg (R.DTS_LNC x.idx) w)
  else if wordField 0 16 w < 50000 then s.answer .refused
  else put (s.setReg (R.DTS_COEF x.idx) w)

def execDtsCoefWrite (x : Fibre) (lnc : Bool) (w : Word) (s : State) : Host.Outcome State Fault Refusal :=
  done (coefWrite x lnc w s)

end Sys2Proof.Machine
end

