-- ==== Sys2Proof/Machine/LaneIsa.lean ====
section
/-!
DEFINITION. The meanings of the lane instructions (R291): each issues on a physical lane at whose PC its word stands, and
changes the core of the logical lane that it serves.
-/
namespace Sys2Proof.Machine

/-- Plain use of one cycle. -/
def use1 (reads accs loads macs : List Nat) : Use := { cyc := 1, reads := reads, accs := accs, loads := loads, macs := macs }

/-- The first multiplier operand: the word at PA in the memory SRC names, then the pointer's modification (R290). -/
def opA (f : FmtM) (c : LaneCore) : Word × LaneCore := (c.mem f.src (c.ptr f.pa), c.postMod f.pa f.ma 1)

/-- The second operand of a single product: the other data memory through PB, or C through CP (R290). -/
def opB (f : FmtM) (l : Logical) (c : LaneCore) : Word × LaneCore :=
  if f.sb = 0 then (c.mem (1 - f.src) (c.ptr f.pb), c.postMod f.pb f.mb 1)
  else (coefAt l (c.ptr f.cp), c.postMod f.cp f.mc 1)

/-- The four consecutive C words of a broadcast; the address's low two bits are ignored (R281). -/
def quad (f : FmtM) (l : Logical) (c : LaneCore) (i : Nat) : Word := coefAt l (c.ptr f.cp / 4 * 4 + i)

/-- A broadcast group: `step` gives accumulator i's new value from its old one and the product. -/
def broadcast (assign : Bool) (neg : Bool) (f : FmtM) (l : Logical) (c : LaneCore) : LaneCore :=
  let (a, c1) := opA f c
  let c2 := c1.postMod f.cp f.mc 4
  (List.range 4).foldl (fun k i =>
    let p := opx a * opx (quad f l c i)
    let r : Int := resMul (opx a) (opx (quad f l c i))
    if assign then k.checked i p (res7 r)
    else if neg then k.checked i (k.acc i - p) (k.predict i (-r)) else k.checked i (k.acc i + p) (k.predict i r)) c2

/-- The pair at a pointer, its low address bit ignored (R281). -/
def pairAt (m p : Nat) (c : LaneCore) : Word × Word := (c.mem m (p / 2 * 2), c.mem m (p / 2 * 2 + 1))

/-- A complex group: the four partial products of an X pair and a Y pair (R280, R291). -/
def complexGroup (assign : Bool) (f : FmtM) (c : LaneCore) : LaneCore :=
  let (xr, xi) := pairAt 0 (c.ptr f.pa) c
  let (yr, yi) := pairAt 1 (c.ptr f.pb) c
  let c1 := (c.postMod f.pa f.ma 2).postMod f.pb f.mb 2
  let ps : List (Nat × Int × Int) := [(0, opx xr, opx yr), (1, opx xi, opx yi), (2, opx xr, opx yi), (3, opx xi, opx yr)]
  ps.foldl (fun k q =>
    let p := q.2.1 * q.2.2
    let r := resMul q.2.1 q.2.2
    if assign then k.checked q.1 p r else k.checked q.1 (k.acc q.1 + p) (k.predict q.1 r)) c1

/-- A single product of the two operands, its predicted residue, and the core after their fetches. -/
def product (f : FmtM) (l : Logical) (c : LaneCore) : Int × Nat × LaneCore :=
  let (a, c1) := opA f c
  let (b, c2) := opB f l c
  -- the two pointers differ, or neither is modified (R298): the modifications compose
  (opx a * opx b, resMul (opx a) (opx b), { c1 with pt := (List.range 8).map (fun i =>
    if c2.ptr i ≠ c.ptr i then c2.ptr i else c1.ptr i) })

/-- D[DD] and the flags of a result word. -/
def putD (c : LaneCore) (d : Nat) (v : Word) (fl : Nat) : LaneCore := (c.setD d v).setFl fl

/-- The shift count of ASH and LSH (R291). -/
def shiftCount (f : FmtR) (c : LaneCore) : Int := if f.i = 1 then f.shi else sgn 6 ((c.dreg f.db).toNat)

/-- ASH: a saturating left shift or an arithmetic, truncating right shift. -/
def ashCore (f : FmtR) (c : LaneCore) : LaneCore :=
  let v := c.dreg f.da
  let s := shiftCount f c
  let wide : Int := if 0 ≤ s then v.toInt * 2 ^ s.toNat else v.toInt / 2 ^ (-s).toNat
  let r := sat32 wide
  let clip := clips32 wide
  putD c f.dd r (flSat (flZNCV c.fl r (shiftOut v s) clip) clip)

/-- LSH: a logical shift both ways; 32 places or more give 0. -/
def lshCore (f : FmtR) (c : LaneCore) : LaneCore :=
  let v := c.dreg f.da
  let s := shiftCount f c
  let r : Word := if 0 ≤ s then v <<< s.toNat else v >>> (-s).toNat
  putD c f.dd r (flZNCV c.fl r (shiftOut v s) false)

/-- BMAC (R291). Broadcast multiply-accumulate into AC0–AC3. -/
def execBmac (n : Fin 33) (f : FmtM) (s : State) : Host.Outcome State Fault Refusal :=
  issue n (encM 0x01 f) (use1 [] [] [] [0, 1, 2, 3]) (fun l c => broadcast false false f l c) s

/-- BMSU (R291). Broadcast multiply-subtract from AC0–AC3. -/
def execBmsu (n : Fin 33) (f : FmtM) (s : State) : Host.Outcome State Fault Refusal :=
  issue n (encM 0x02 f) (use1 [] [] [] [0, 1, 2, 3]) (fun l c => broadcast false true f l c) s

/-- BMPY (R291). Broadcast multiply assigning AC0–AC3. -/
def execBmpy (n : Fin 33) (f : FmtM) (s : State) : Host.Outcome State Fault Refusal :=
  issue n (encM 0x03 f) (use1 [] [] [] [0, 1, 2, 3]) (fun l c => broadcast true false f l c) s

/-- CMAC (R291). Complex multiply-accumulate. -/
def execCmac (n : Fin 33) (f : FmtM) (s : State) : Host.Outcome State Fault Refusal :=
  issue n (encM 0x04 f) (use1 [] [] [] [0, 1, 2, 3]) (fun _ c => complexGroup false f c) s

/-- CMPY (R291). Complex multiply, assigning. -/
def execCmpy (n : Fin 33) (f : FmtM) (s : State) : Host.Outcome State Fault Refusal :=
  issue n (encM 0x05 f) (use1 [] [] [] [0, 1, 2, 3]) (fun _ c => complexGroup true f c) s

/-- SMAC (R291). Single multiply-accumulate. -/
def execSmac (n : Fin 33) (f : FmtM) (s : State) : Host.Outcome State Fault Refusal :=
  issue n (encM 0x06 f) (use1 [] [] [] [f.acd])
    (fun l c => let (p, r, c1) := product f l c; c1.checked f.acd (c.acc f.acd + p) (c.predict f.acd r)) s

/-- SMSU (R291). Single multiply-subtract. -/
def execSmsu (n : Fin 33) (f : FmtM) (s : State) : Host.Outcome State Fault Refusal :=
  issue n (encM 0x07 f) (use1 [] [] [] [f.acd])
    (fun l c => let (p, r, c1) := product f l c; c1.checked f.acd (c.acc f.acd - p) (c.predict f.acd (-(r : Int)))) s

/-- SMPY (R291). Single multiply, assigning. -/
def execSmpy (n : Fin 33) (f : FmtM) (s : State) : Host.Outcome State Fault Refusal :=
  issue n (encM 0x08 f) (use1 [] [] [] [f.acd]) (fun l c => let (p, r, c1) := product f l c; c1.checked f.acd p r) s

/-- SQAC (R291). Square-accumulate. -/
def execSqac (n : Fin 33) (f : FmtM) (s : State) : Host.Outcome State Fault Refusal :=
  issue n (encM 0x09 f) (use1 [] [] [] [f.acd])
    (fun _ c => let (a, c1) := opA f c; c1.checked f.acd (c.acc f.acd + opx a * opx a) (c.predict f.acd (resMul (opx a) (opx a)))) s

/-- CLRA (R291). Clear the masked accumulators. -/
def execClra (n : Fin 33) (f : FmtA) (s : State) : Host.Outcome State Fault Refusal :=
  issue n (encA 0x0A f) (use1 [] [] [] [])
    (fun _ c => (List.range 4).foldl (fun k i => if f.mask / 2 ^ i % 2 = 1 then k.setAcc i 0 else k) c) s

/-- ADDA (R291). Add accumulators, saturating. -/
def execAdda (n : Fin 33) (f : FmtA) (s : State) : Host.Outcome State Fault Refusal :=
  issue n (encA 0x0B f) (use1 [] [f.acd, f.acs] [] [])
    (fun _ c => c.checked f.acd (c.acc f.acd + c.acc f.acs) (c.predict f.acd (c.accRes f.acs))) s

/-- SUBA (R291). Subtract accumulators, saturating. -/
def execSuba (n : Fin 33) (f : FmtA) (s : State) : Host.Outcome State Fault Refusal :=
  issue n (encA 0x0C f) (use1 [] [f.acd, f.acs] [] [])
    (fun _ c => c.checked f.acd (c.acc f.acd - c.acc f.acs) (c.predict f.acd (-(c.accRes f.acs : Int)))) s

/-- SHA (R291). Shift an accumulator, rounding and saturating. A left shift is residue-checked, a negative one is not (R295). (DEDUCED,
assumption 96.) -/
def execSha (n : Fin 33) (f : FmtA) (s : State) : Host.Outcome State Fault Refusal :=
  issue n (encA 0x0D f) (use1 [] [f.acd] [] [])
    (fun _ c => let v := scl (c.acc f.acd) f.sh;
      if 0 ≤ f.sh then c.checked f.acd v (res7 ((c.accRes f.acd : Int) * 2 ^ f.sh.toNat)) else c.satAcc f.acd v) s

/-- STA (R291). Store a scaled accumulator to X or Y memory. -/
def execSta (n : Fin 33) (f : FmtA) (s : State) : Host.Outcome State Fault Refusal :=
  issue n (encA 0x0E f) (use1 [] [f.acs] [] [])
    (fun _ c => let v := scl (c.acc f.acs) f.sh;
      ((c.setMem f.mem (c.ptr f.pt) (sat32 v)).postMod f.pt f.mod 1).setFl (flSat32 c.fl (sat32 v) (clips32 v))) s

/-- MVA (R291). Move a scaled accumulator to a data register. -/
def execMva (n : Fin 33) (f : FmtA) (s : State) : Host.Outcome State Fault Refusal :=
  issue n (encA 0x0F f) (use1 [] [f.acs] [] [])
    (fun _ c => let v := scl (c.acc f.acs) f.sh; putD c f.d (sat32 v) (flSat32 c.fl (sat32 v) (clips32 v))) s

/-- LDA (R291). Load an accumulator from a scaled data register, whose residue as scaled is the prediction (R295). (DEDUCED, assumption
96.) -/
def execLda (n : Fin 33) (f : FmtA) (s : State) : Host.Outcome State Fault Refusal :=
  issue n (encA 0x10 f) (use1 [f.d] [f.acd] [] []) (fun _ c => let v := scl (c.dreg f.d).toInt f.sh; c.checked f.acd v (res7 v)) s

/-- MAXA (R291). The maximum of two accumulators. -/
def execMaxa (n : Fin 33) (f : FmtA) (s : State) : Host.Outcome State Fault Refusal :=
  issue n (encA 0x11 f) (use1 [] [f.acd, f.acs] [] [])
    (fun _ c => if c.acc f.acd < c.acc f.acs then { c.setAcc f.acd (c.acc f.acs) with res := setAt c.res f.acd (c.accRes f.acs) } else c) s

/-- LDX (R291). Load from X memory. -/
def execLdx (n : Fin 33) (f : FmtL) (s : State) : Host.Outcome State Fault Refusal :=
  issue n (encL 0x12 f) (use1 [] [] [f.d] []) (fun _ c => (c.setD f.d (c.mem 0 (c.ptr f.pt))).postMod f.pt f.mod 1) s

/-- LDY (R291). Load from Y memory. -/
def execLdy (n : Fin 33) (f : FmtL) (s : State) : Host.Outcome State Fault Refusal :=
  issue n (encL 0x13 f) (use1 [] [] [f.d] []) (fun _ c => (c.setD f.d (c.mem 1 (c.ptr f.pt))).postMod f.pt f.mod 1) s

/-- LDC (R291). Load from coefficient memory. -/
def execLdc (n : Fin 33) (f : FmtL) (s : State) : Host.Outcome State Fault Refusal :=
  issue n (encL 0x14 f) (use1 [] [] [f.d] []) (fun l c => (c.setD f.d (coefAt l (c.ptr f.pt))).postMod f.pt f.mod 1) s

/-- STX (R291). Store to X memory. -/
def execStx (n : Fin 33) (f : FmtL) (s : State) : Host.Outcome State Fault Refusal :=
  issue n (encL 0x15 f) (use1 [f.d] [] [] []) (fun _ c => (c.setMem 0 (c.ptr f.pt) (c.dreg f.d)).postMod f.pt f.mod 1) s

/-- STY (R291). Store to Y memory. -/
def execSty (n : Fin 33) (f : FmtL) (s : State) : Host.Outcome State Fault Refusal :=
  issue n (encL 0x16 f) (use1 [f.d] [] [] []) (fun _ c => (c.setMem 1 (c.ptr f.pt) (c.dreg f.d)).postMod f.pt f.mod 1) s

/-- LDI (R291). Load a sign-extended 20-bit immediate. -/
def execLdi (n : Fin 33) (f : FmtI) (s : State) : Host.Outcome State Fault Refusal :=
  issue n (encI 0x17 f) (use1 [] [] [] []) (fun _ c => c.setD f.dd (w32I f.imm)) s

/-- LDHI (R291). Load the upper 16 bits. -/
def execLdhi (n : Fin 33) (f : FmtI) (s : State) : Host.Outcome State Fault Refusal :=
  issue n (encI 0x18 f) (use1 [f.dd] [] [] []) (fun _ c => c.setD f.dd (w32 (unsgn 16 f.imm * 2 ^ 16 + (c.dreg f.dd).toNat % 2 ^ 16))) s

/-- MOV (R291). Copy a data register. -/
def execMov (n : Fin 33) (f : FmtR) (s : State) : Host.Outcome State Fault Refusal :=
  issue n (encR 0x19 f) (use1 [f.da] [] [] []) (fun _ c => putD c f.dd (c.dreg f.da) (flZNCV c.fl (c.dreg f.da) false false)) s

/-- MOVS (R291). Move between a data register and a special register. -/
def execMovs (n : Fin 33) (f : FmtS) (s : State) : Host.Outcome State Fault Refusal :=
  issue n (encS 0x1A f) (use1 (if f.dir = 0 then [f.d] else []) [] [] [])
    (fun _ c => if f.dir = 0 then c.setSreg f.sreg (c.dreg f.d) else c.setD f.d (c.sreg (s.laneLL n) f.sreg)) s

/-- SETP (R291). Set a pointer or offset register. -/
def execSetp (n : Fin 33) (f : FmtP) (s : State) : Host.Outcome State Fault Refusal :=
  issue n (encP 0x1B f) (use1 [] [] [] []) (fun _ c => if f.reg < 8 then c.setPtr f.reg (unsgn 13 f.imm) else c.setOffs (f.reg - 8) f.imm) s

/-- ADDP (R291). Post-modify a pointer by words, or add to an offset. -/
def execAddp (n : Fin 33) (f : FmtP) (s : State) : Host.Outcome State Fault Refusal :=
  issue n (encP 0x1C f) (use1 [] [] [] [])
    (fun _ c => if f.reg < 8 then c.setPtr f.reg (c.newPtr f.reg f.imm false) else c.setOffs (f.reg - 8) (c.offs (f.reg - 8) + f.imm)) s

/-- ADD (R291). Add, modular. -/
def execAdd (n : Fin 33) (f : FmtR) (s : State) : Host.Outcome State Fault Refusal :=
  issue n (encR 0x1D f) (use1 [f.da, f.db] [] [] [])
    (fun _ c => let a := c.dreg f.da; let b := c.dreg f.db; let r : Word := a + b;
      putD c f.dd r (flZNCV c.fl r (addCarry a b) (addOver a b))) s

/-- SUB (R291). Subtract, modular. -/
def execSub (n : Fin 33) (f : FmtR) (s : State) : Host.Outcome State Fault Refusal :=
  issue n (encR 0x1E f) (use1 [f.da, f.db] [] [] [])
    (fun _ c => let a := c.dreg f.da; let b := c.dreg f.db; let r : Word := a - b;
      putD c f.dd r (flZNCV c.fl r (subCarry a b) (subOver a b))) s

/-- AND (R291). Bitwise AND. -/
def execAnd (n : Fin 33) (f : FmtR) (s : State) : Host.Outcome State Fault Refusal :=
  issue n (encR 0x1F f) (use1 [f.da, f.db] [] [] [])
    (fun _ c => let a := c.dreg f.da; let b := c.dreg f.db; let r : Word := a &&& b; putD c f.dd r (flZNCV c.fl r (false) (false))) s

/-- OR (R291). Bitwise OR. -/
def execOr (n : Fin 33) (f : FmtR) (s : State) : Host.Outcome State Fault Refusal :=
  issue n (encR 0x20 f) (use1 [f.da, f.db] [] [] [])
    (fun _ c => let a := c.dreg f.da; let b := c.dreg f.db; let r : Word := a ||| b; putD c f.dd r (flZNCV c.fl r (false) (false))) s

/-- XOR (R291). Bitwise XOR. -/
def execXor (n : Fin 33) (f : FmtR) (s : State) : Host.Outcome State Fault Refusal :=
  issue n (encR 0x21 f) (use1 [f.da, f.db] [] [] [])
    (fun _ c => let a := c.dreg f.da; let b := c.dreg f.db; let r : Word := a ^^^ b; putD c f.dd r (flZNCV c.fl r (false) (false))) s

/-- ASH (R291). Arithmetic shift. -/
def execAsh (n : Fin 33) (f : FmtR) (s : State) : Host.Outcome State Fault Refusal :=
  issue n (encR 0x22 f) (use1 (if f.i = 1 then [f.da] else [f.da, f.db]) [] [] []) (fun _ c => ashCore f c) s

/-- LSH (R291). Logical shift. -/
def execLsh (n : Fin 33) (f : FmtR) (s : State) : Host.Outcome State Fault Refusal :=
  issue n (encR 0x23 f) (use1 (if f.i = 1 then [f.da] else [f.da, f.db]) [] [] []) (fun _ c => lshCore f c) s

/-- CMP (R291). Flags of a difference. -/
def execCmp (n : Fin 33) (f : FmtR) (s : State) : Host.Outcome State Fault Refusal :=
  issue n (encR 0x24 f) (use1 [f.da, f.db] [] [] [])
    (fun _ c => let a := c.dreg f.da; let b := c.dreg f.db; c.setFl (flZNCV c.fl (a - b) (subCarry a b) (subOver a b))) s

/-- ABS (R291). Saturating absolute value. -/
def execAbs (n : Fin 33) (f : FmtR) (s : State) : Host.Outcome State Fault Refusal :=
  issue n (encR 0x25 f) (use1 [f.da] [] [] [])
    (fun _ c => let v : Int := ((c.dreg f.da).toInt.natAbs : Int); putD c f.dd (sat32 v) (flSat32 c.fl (sat32 v) (clips32 v))) s

/-- MIN (R291). Signed minimum. -/
def execMin (n : Fin 33) (f : FmtR) (s : State) : Host.Outcome State Fault Refusal :=
  issue n (encR 0x26 f) (use1 [f.da, f.db] [] [] [])
    (fun _ c => let a := c.dreg f.da; let b := c.dreg f.db; let r : Word := if a.toInt ≤ b.toInt then a else b;
      putD c f.dd r (flZN c.fl r)) s

/-- MAX (R291). Signed maximum. -/
def execMax (n : Fin 33) (f : FmtR) (s : State) : Host.Outcome State Fault Refusal :=
  issue n (encR 0x27 f) (use1 [f.da, f.db] [] [] [])
    (fun _ c => let a := c.dreg f.da; let b := c.dreg f.db; let r : Word := if a.toInt ≤ b.toInt then b else a;
      putD c f.dd r (flZN c.fl r)) s

/-- ADDI (R291). Add an immediate, modular. -/
def execAddi (n : Fin 33) (f : FmtI) (s : State) : Host.Outcome State Fault Refusal :=
  issue n (encI 0x28 f) (use1 [f.da] [] [] [])
    (fun _ c => let a := c.dreg f.da; let b := w32I f.imm; putD c f.dd (a + b) (flZNCV c.fl (a + b) (addCarry a b) (addOver a b))) s

/-- CMPI (R291). Flags of a register minus an immediate. -/
def execCmpi (n : Fin 33) (f : FmtI) (s : State) : Host.Outcome State Fault Refusal :=
  issue n (encI 0x29 f) (use1 [f.da] [] [] [])
    (fun _ c => let a := c.dreg f.da; let b := w32I f.imm; c.setFl (flZNCV c.fl (a - b) (subCarry a b) (subOver a b))) s

/-- NOP (R291). One cycle, no effect. -/
def execNop (n : Fin 33) (s : State) : Host.Outcome State Fault Refusal :=
  issue n (opWord 0 0) (use1 [] [] [] []) (fun _ c => c) s

/-- BR (R291, R292). A taken branch costs two cycles and ends the loops that it leaves. -/
def execBr (n : Fin 33) (f : FmtB) (s : State) : Host.Outcome State Fault Refusal :=
  issueWith n (encB 0x2A f) (fun ll l s =>
    if condHolds f.cond l.core.fl then
      jumpTo ll n f.tgt { use1 [] [] [] [] with cyc := 2 } l { l.core with loops := leaveLoops f.tgt l.core.loops } s
    else fallThrough ll n (use1 [] [] [] []) l l.core s) s

/-- CALL (R291, R297). Pushes the return address; with four entries held it traps with STACK. -/
def execCall (n : Fin 33) (f : FmtB) (s : State) : Host.Outcome State Fault Refusal :=
  issueWith n (encB 0x2B f) (fun ll l s =>
    if 4 ≤ l.core.stack.length then laneTrap ll n trapStack l.core.pc s
    else jumpTo ll n f.tgt { use1 [] [] [] [] with cyc := 2 } l
      { l.core with stack := (l.core.pc + 1) :: l.core.stack } s) s

/-- RET (R291, R297). Pops the return address; with none held it traps with STACK. -/
def execRet (n : Fin 33) (f : FmtB) (s : State) : Host.Outcome State Fault Refusal :=
  issueWith n (encB 0x2C f) (fun ll l s =>
    match l.core.stack with
    | [] => laneTrap ll n trapStack l.core.pc s
    | r :: t => jumpTo ll n r { use1 [] [] [] [] with cyc := 2 } l { l.core with stack := t } s) s

/-- The iterations of a LOOP: an immediate of 0 means 8,192; a register count above 2^24 is treated as 2^24, and one of 0
or less skips the body (R290, R292). -/
def loopCount (f : FmtLP) (c : LaneCore) : Nat :=
  if f.cs = 0 then (if f.cnt = 0 then 8192 else f.cnt)
  else min (c.dreg f.da).toInt.toNat (2 ^ 24)

/-- LOOP (R291, R292, R294). A third active level traps with NEST. -/
def execLoop (n : Fin 33) (f : FmtLP) (s : State) : Host.Outcome State Fault Refusal :=
  issueWith n (encLP 0x2D f) (fun ll l s =>
    let k := loopCount f l.core
    let u := use1 (if f.cs = 0 then [] else [f.da]) [] [] []
    if k = 0 then jumpTo ll n (f.last + 1) u l l.core s
    else if 2 ≤ l.core.loops.length then laneTrap ll n trapNest l.core.pc s
    else jumpTo ll n (l.core.pc + 1) u l
      { l.core with loops := ⟨l.core.pc + 1, f.last, k⟩ :: l.core.loops } s) s

/-- SRD (R288, R291). The next payload word of a port to a data register, or to X or Y memory. -/
def execSrd (n : Fin 33) (f : FmtT) (s : State) : Host.Outcome State Fault Refusal :=
  issueWith n (encT 0x2E f) (fun ll l s =>
    let (w, _, c) := srdWord l l.core f.port
    if f.memop = 0 then fallThrough ll n (use1 [] [] [f.d] []) l (c.setD f.d w) s
    else fallThrough ll n (use1 [] [] [] []) l ((c.setMem f.mem (c.ptr f.pt) w).postMod f.pt f.mod 1) s) s

/-- SWR (R289, R291). Append a word to the open record of an output port. -/
def execSwr (n : Fin 33) (f : FmtT) (s : State) : Host.Outcome State Fault Refusal :=
  issueWith n (encT 0x2F f) (fun ll l s => swr n f ll l s) s

/-- SHDR (R288, R291). Wait for the next readable record and load its header. On a lane that runs the temperature solution it is the
solution's own (R322). -/
def execShdr (n : Fin 33) (f : FmtT) (s : State) : Host.Outcome State Fault Refusal :=
  match s.solGroup n with
  | some x => done (solRead x n f.port s)
  | none => issueWith n (encT 0x30 f) (fun ll l s => shdr n f ll l s) s

/-- SEND (R289, R291). Close the open record of an output port. On a lane that runs the temperature solution it writes what the solution
read (R327). -/
def execSend (n : Fin 33) (f : FmtT) (s : State) : Host.Outcome State Fault Refusal :=
  match s.solGroup n with
  | some x => done (solSend x n s)
  | none => issueWith n (encT 0x31 f) (fun ll l s => send n f ll l s) s

end Sys2Proof.Machine
end

