-- ==== Sys2Proof/Machine/Flows.lean ====
section
/-!
DEFINITION. What leaves the Ground in groups and blocks: the source descriptor of a bobbin (R485), the compressors' blocks (R510)
and the streams' groups (R482), as far as a stop of their source closes them.
-/
namespace Sys2Proof.Machine

/-! ## Source descriptors (R485) -/

/-- The DTS fibre whose temperature records a bobbin takes. -/
def State.dtsOut (s : State) (b : Nat) : Option Nat :=
  [0, 1].find? (fun x => s.rd (F.DTS_CFG.EN x) = 1 ∧ s.rd (F.DTS_BOB.OUT x) = b)

/-- KIND of the records of a bobbin (R285). -/
def State.bobKind (s : State) (b : Nat) : Nat :=
  match s.bobSet b with
  | some (_, j) => if j = 0 then 1 else 2
  | none =>
    if b = 125 then 0 else if b = 127 then 8
    else if s.rd F.GND_AUXBOB.EN = 1 ∧ s.rd F.GND_AUXBOB.BOB = b then 3
    else if [0, 1].any (fun x => s.rd (F.DTS_CFG.EN x) == 1 && s.rd (F.DTS_BOB.RAW x) == b) then 5
    else if [0, 1].any (fun n => s.rd (F.DFL_CFG.OUTBOB n) == b && s.rd (F.DFL_CFG.EN n) == 1) then 6
    else 4

/-- What a descriptor tells of a source: KIND with fibre and set bits, sample interval and group delay in 2^-16 ns, channels, Q or
WB, G, P, start point, NG, λ, ξ, preset and ratio. -/
structure Source485 where
  code : Nat
  interval : Nat
  delay : Nat
  chans : Nat
  q : Nat
  g : Nat
  p : Nat
  start : Nat
  ng : Nat
  lambda : Nat
  xi : Nat
  preset : Nat
  ratio : Nat
deriving DecidableEq, Repr

/-- The descriptor's fields for the records of bobbin `b`, at the present settings. -/
def State.source485 (s : State) (b : Nat) : Source485 :=
  let kind := s.bobKind b
  let geo (x : Nat) (code interval delay chans q g start preset ratio : Nat) : Source485 :=
    { code := code, interval := interval, delay := delay, chans := chans, q := q, g := g,
      p := (pitchOf (s.rd (F.SHOT_CHAN.PP x))).getD 0, start := start, ng := s.rd (F.SHOT_NG.NG x),
      lambda := s.rd (F.FRP_SCALE.LAMBDA x), xi := s.rd (F.FRP_SCALE.XI x), preset := preset, ratio := ratio }
  match s.bobSet b with
  | some (x, j) =>
    let w := s.reg (R.FLT_DSCFG x j)
    let tr := s.rd (F.SHOT_TRPER.TR_ACT x)
    let nT := (s.plan true x).nT
    let gd := groupDelay2 (dsPreset w) (dsRatio w)
    geo x (kind + 16 * x + 32 * j) (if nT = 0 then 0 else dsRatio w * tr * 65536 / nT)
      (if nT = 0 then 0 else gd * tr * 65536 / (2 * nT)) (s.rd (F.SHOT_GSTAT.NCH_ACT x))
      (s.rd (F.SHOT_CHAN.PITCH x)) (s.rd (F.SHOT_CHAN.GAUGE x)) (s.rd (F.SHOT_CSTART.START x)) (dsPreset w) (dsRatio w)
  | none =>
    match s.dtsOut b with
    | some x => geo x (kind + 16 * x) (s.dtsPeriod s.liveView x * 65536) 0 (s.dtsBins x) (s.rd (F.DTS_CFG.WB x)) 0
        (s.rd (F.DTS_START.START x)) 0 0
    | none =>
      let plain : Source485 :=
        { code := kind, interval := 0, delay := 0, chans := 1, q := 0, g := 0, p := 0, start := 0, ng := 0, lambda := 0, xi := 0,
          preset := 0, ratio := 0 }
      -- one auxiliary chain alone makes its records regular
      match kind, (List.range 48).filter (fun k => s.rd (F.FLT_AUX_CFG.EN k) = 1) with
      | 3, [k] =>
        let w := s.reg (R.FLT_AUX_CFG k)
        { plain with
          interval := dsRatio w * s.auxInterval k, delay := groupDelay2 (dsPreset w) (dsRatio w) * s.auxInterval k / 2,
          preset := dsPreset w, ratio := dsRatio w }
      | _, _ => plain

/-- The same as bytes, to compare two states of a source. -/
def Source485.bytes (d : Source485) : List Byte :=
  leBytes 1 d.code ++ leBytes 8 d.interval ++ leBytes 8 d.delay ++ leBytes 4 d.chans ++ leBytes 2 d.q ++ leBytes 2 d.g ++
    leBytes 1 d.p ++ leBytes 4 d.start ++ leBytes 4 d.ng ++ leBytes 4 d.lambda ++ leBytes 2 d.xi ++ leBytes 1 d.preset ++
    leBytes 4 d.ratio

/-! ## Compressor blocks (R510) -/

def State.comp (s : State) (n : Nat) : Comp := s.comps.at n
def State.setComp (s : State) (n : Nat) (c : Comp) : State := { s with comps := s.comps.upd n c }

/-- The open block closes; with a discontinuity the next one carries GAP. -/
def closeBlock (n : Nat) (gap : Bool) (s : State) : State :=
  let c := s.comp n
  if c.recs.isEmpty then (if gap then s.setComp n { c with gap := true } else s)
  else
    (s.setComp n { c with
      recs := [], gap := gap, closed := c.closed ++ [{ recs := c.recs, gap := c.gap, at_ := s.tbNs }] }).wr (F.DFL_STAT.OPEN n) 0

/-! ## Streams -/

def emptyStream : Stream :=
  { group := [], gap := false, needDesc := true, desc := [], descAt := 0, rateFrom := 0, rateBytes := 0, enabled := false,
    last := 0, cut := false, n0 := false, n0At := 0 }

def State.stream (s : State) (i : Nat) : Stream := mapGet (fun _ => emptyStream) s.net.streams i
def State.setStream (s : State) (i : Nat) (v : Stream) : State :=
  (s.modNet (fun q => { q with streams := mapSet (fun _ => emptyStream) s.net.streams i v }))

/-- Bobbin b takes data of fibre x: what derives from its shots, its DTS periods and its temperature records. -/
def State.carries (s : State) (b x : Nat) : Bool :=
  s.bobFed 4 b x || (s.rd (F.DTS_CFG.EN x) == 1 && (s.rd (F.DTS_BOB.RAW x) == b || s.rd (F.DTS_BOB.OUT x) == b))

/-- A stop of fibre `x` is complete: open blocks and groups of its data close, and what follows carries GAP (R482, R486, R510). -/
def sourceStopped (x : Fibre) (s : State) : State :=
  let s1 := [0, 1].foldl (fun s n =>
    if s.rd (F.DFL_CFG.EN n) = 1 ∧ s.carries (s.rd (F.DFL_CFG.INBOB n)) x.idx = true then closeBlock n true s else s) s
  s.net.streams.foldl (fun s p =>
    if s.carries (s.rd (F.NET_SCFG.BOBBIN p.1)) x.idx then
      s.setStream p.1 { s.stream p.1 with cut := !(s.stream p.1).group.isEmpty, gap := true } else s) s1

end Sys2Proof.Machine
end

