-- ==== Sys2Proof/Machine/Loops.lean ====
section
/-!
DEFINITION. The alarm unit: zone reports, hysteresis and dwell, loop outputs with their readback check, and the alert sources
(R386–R406).
-/
namespace Sys2Proof.Machine

/-- Zone states, as LOOP_STAT.WORST codes them. -/
def zNormal : Nat := 0
def zWarn : Nat := 1
def zAlarm : Nat := 2
def zInvalid : Nat := 3

def freshZone : Zone := { up := 0, dn := 0, at_ := 0 }
def freshReadback : Readback := { changed := none, opens := 0, devs := 0 }

def State.zone (s : State) (z : Nat) : Zone := mapGet (fun _ => freshZone) s.alarm.zones z
def State.setZone (s : State) (z : Nat) (v : Zone) : State :=
  { s with alarm := { s.alarm with zones := mapSet (fun _ => freshZone) s.alarm.zones z v } }
def State.readback (s : State) (n : Nat) : Readback := mapGet (fun _ => freshReadback) s.alarm.loops n
def State.setReadback (s : State) (n : Nat) (v : Readback) : State :=
  { s with alarm := { s.alarm with loops := mapSet (fun _ => freshReadback) s.alarm.loops n v } }

def State.zoneState (s : State) (z : Nat) : Nat := s.rd (F.LOOP_ZST.STATE z)
def State.zoneOn (s : State) (z : Nat) : Bool := s.rd (F.LOOP_ZCFG0.EN z) == 1
def State.zoneFibre (s : State) (z : Nat) : Fibre := if s.rd (F.LOOP_ZCFG0.FIBRE z) = 0 then .a else .b
def State.zoneClass (s : State) (z : Nat) : Nat := s.rd (F.LOOP_ZCFG0.CLASS z)

/-- Zones whose configuration enables them. -/
def State.zonesOn (s : State) : List Nat := (List.range 1024).filter s.zoneOn

/-- A zone's channels extend beyond NCH_ACT (R387). -/
def State.zoneBeyond (s : State) (z : Nat) : Bool :=
  decide (s.rd (F.SHOT_GSTAT.NCH_ACT (s.zoneFibre z).idx) < s.rd (F.LOOP_ZCFG0.FIRST z) + s.rd (F.LOOP_ZCFG1.COUNT z))

/-! ## Loop outputs (R392, R393, R395) -/

/-- Enabled zones in a loop's range. -/
def State.loopZones (s : State) (n : Nat) : List Nat :=
  let lo := s.rd (F.LOOP_CFG.ZFIRST n)
  let hi := s.rd (F.LOOP_CFG.ZLAST n)
  ((List.range (hi + 1 - lo)).map (· + lo)).filter s.zoneOn

/-- The worst zone state of a loop; INVALID when it has no zone. -/
def State.loopWorst (s : State) (n : Nat) : Nat :=
  match s.loopZones n with
  | [] => zInvalid
  | l => l.foldl (fun m z => max m (s.zoneState z)) 0

/-- The fault level of FDIR. -/
def State.loopFault (s : State) (n : Nat) : Nat := if s.rd (F.LOOP_CFG.FDIR n) = 0 then 0 else 62174

/-- The commanded code of a loop (R393). -/
def State.loopCode (s : State) (n : Nat) : Nat :=
  if s.rd (F.LOOP_CFG.EN n) = 0 then 0
  else match s.rd (F.LOOP_CFG.MODE n) with
    | 0 => 0
    | 1 => s.rd (F.LOOP_CUR1.FIX n)
    | 2 => match s.loopWorst n with
      | 0 => s.rd (F.LOOP_CUR0.I_N n)
      | 1 => s.rd (F.LOOP_CUR0.I_W n)
      | 2 => s.rd (F.LOOP_CUR1.I_A n)
      | _ => s.loopFault n
    | _ =>
      if s.loopWorst n = zInvalid then s.loopFault n
      else
        let l : Int := (s.loopZones n).foldl (fun m z => max m (s.rd (F.LOOP_ZST.LEVEL z))) 0
        let lo : Int := s.rd (F.LOOP_RNG.LO n)
        let hi : Int := s.rd (F.LOOP_RNG.HI n)
        (clampI 1008 57133 (1680 + rndDiv (53773 * (l - lo)) (max 1 (hi - lo)))).toNat

/-- Bring a loop's registers up to date; a change of its code blanks the readback (R392–R394). -/
def showLoop (n : Nat) (s : State) : State :=
  let c := s.loopCode n
  let s1 := s.wrs [(F.LOOP_STAT.WORST n, s.loopWorst n), (F.LOOP_STAT.NOW n, c)]
  if s.rd (F.LOOP_STAT.NOW n) = c then s1
  else s1.setReadback n { s.readback n with changed := some s.now }

/-- The two alert sources (R396). -/
def showAlert (s : State) : State :=
  let z := s.zonesOn.any (fun z => s.zoneState z == zAlarm && s.rd (F.LOOP_CTIM.ALERT (s.zoneClass z)) == 1)
  let l := (List.range 8).any (fun n => s.rd (F.LOOP_STAT.OPEN n) == 1 || s.rd (F.LOOP_STAT.DEV n) == 1)
  s.wrs [(F.LOOP_ALERT.ZACT, if z then 1 else 0), (F.LOOP_ALERT.LPACT, if l then 1 else 0)]

/-- All loops and the alert sources follow the zones. -/
def showLoops (s : State) : State := showAlert ((List.range 8).foldl (fun s n => showLoop n s) s)

/-! ## Zones (R387–R391) -/

/-- A zone becomes INVALID. -/
def zoneInvalid (z : Nat) (s : State) : State := s.wr (F.LOOP_ZST.STATE z) zInvalid

/-- The levels of a class that a state asks for. -/
def State.zoneLevel (s : State) (k l : Nat) (on : Bool) : Nat :=
  let a := s.rd (if on then F.LOOP_CTH1.A_ON k else F.LOOP_CTH1.A_OFF k)
  let w := s.rd (if on then F.LOOP_CTH0.W_ON k else F.LOOP_CTH0.W_OFF k)
  if a ≤ l then zAlarm else if w ≤ l then zWarn else zNormal

/-- The state and counters after a judgement (R388): state, up and dn. -/
def zoneStep (cand keep onCnt offCnt st up dn : Nat) : Nat × Nat × Nat :=
  if st < cand then (if onCnt ≤ up + 1 then (cand, 0, 0) else (st, up + 1, 0))
  else if keep < st then (if offCnt ≤ dn + 1 then (keep, 0, 0) else (st, 0, dn + 1))
  else (st, 0, 0)

/-- A report with V = 1 for a zone that no other condition of R387 keeps INVALID (R388–R390). -/
def zoneJudge (z l : Nat) (s : State) : State :=
  let k := s.zoneClass z
  let latched := s.rd (F.LOOP_ZST.LATCHED z) == 1
  let was := s.zoneState z
  let st0 := if was = zInvalid then (if latched then zAlarm else zNormal) else was
  let v := s.zone z
  let (up0, dn0) := if was = zInvalid then (0, 0) else (v.up, v.dn)
  let cand := s.zoneLevel k l true
  let keep := if latched then zAlarm else s.zoneLevel k l false
  let (st, up, dn) := zoneStep cand keep (s.rd (F.LOOP_CTIM.ON_CNT k)) (s.rd (F.LOOP_CTIM.OFF_CNT k)) st0 up0 dn0
  let s1 := (s.wr (F.LOOP_ZST.STATE z) st).setZone z { v with up := up, dn := dn }
  let s2 := if st = zAlarm ∧ s.rd (F.LOOP_CTIM.LATCH k) = 1 then s1.wr (F.LOOP_ZST.LATCHED z) 1 else s1
  if st = zAlarm ∧ was ≠ zAlarm ∧ s.rd (F.LOOP_CTIM.RECALL k) = 1 then recallTrig z s2 else s2

/-- One word of a report for zone `z`, evaluated at instant `t` (R386, R387). A zone whose report comes after its timeout has become
INVALID in between. -/
def zoneReport (t z : Nat) (w : Word) (s0 : State) : State :=
  if 1023 < z then
    if s0.alarm.beyond then s0
    else ({ s0 with alarm := { s0.alarm with beyond := true } }).event 0x0D01 .warn noUnit none 0 z 0 0
  else
    let late := decide ((s0.zone z).at_ + s0.rd (F.LOOP_CTIM.TMO (s0.zoneClass z)) * 1_000_000 < t)
    let s := if late then zoneInvalid z s0 else s0
    let s1 := (s.wr (F.LOOP_ZST.LEVEL z) (wordField 0 16 w)).setZone z { s.zone z with at_ := t }
    if wordField 31 1 w = 0 then zoneInvalid z s1
    else if s.zoneOn z = false ∨ s.rd (F.CMT_STAT.STATE (s.zoneFibre z).idx) = 0 ∨ s.zoneBeyond z = true then zoneInvalid z s1
    else zoneJudge z (wordField 0 16 w) s1

/-- The words of a report from zone `z` on, in zone order: one per FAB clock from `t` on, the `i`-th of them first (R386). -/
def zoneReports (t : Nat) : Nat → Nat → List Word → State → State
  | _, _, [], s => s
  | i, z, w :: l, s => zoneReports t (i + 1) (z + 1) l (zoneReport (t + 5 * i / 2) z w s)

/-- The bobbin of source slot `k`, if it is bound (R402). -/
def State.alarmBob (s : State) (k : Nat) : Option Nat :=
  match k with
  | 0 => if s.rd F.LOOP_ZSRC.EN0 = 1 then some (s.rd F.LOOP_ZSRC.BOB0) else none
  | 1 => if s.rd F.LOOP_ZSRC.EN1 = 1 then some (s.rd F.LOOP_ZSRC.BOB1) else none
  | 2 => if s.rd F.LOOP_ZSRC.EN2 = 1 then some (s.rd F.LOOP_ZSRC.BOB2) else none
  | _ => if s.rd F.LOOP_ZSRC.EN3 = 1 then some (s.rd F.LOOP_ZSRC.BOB3) else none

/-- The committed record that source slot `k` reads next, with its bobbin (R402, R412). -/
def State.alarmNext (s : State) (k : Nat) : Option (Nat × Stored) :=
  match s.alarmBob k with
  | none => none
  | some b => match s.readerPos b (.alarmSlot k) with
    | none => none
    | some pos => (nextRecord (s.bob b) pos false).map (fun r => (b, r))

/-- Another slot's record was released before, or on the same FAB clock in a lower slot, and goes first (R386). -/
def State.alarmAfter (s : State) (k freed : Nat) : Bool :=
  (List.range 4).any (fun j => match s.alarmNext j with
    | some (_, r) => decide (r.freed < freed) || (decide (r.freed = freed) && decide (j < k))
    | none => false)

/-- ZONE_REPORT (R386): the next released record of source slot `k`, from 32 FAB clocks after its release on and in its turn; one of
another kind is passed over. -/
def alarmTake (k : Nat) (s : State) : State :=
  match s.alarmNext k with
  | none => s
  | some (b, r) =>
    if s.now < r.freed + 80 ∨ s.alarmAfter k r.freed = true then s
    else
      let s1 := s.advanceReader b (.alarmSlot k) (r.idx + 1)
      if r.data.kind = 4 then showLoops (zoneReports (r.freed + 80) 0 r.data.h1.toNat r.data.payload s1) else s1

def execZoneReport (k : Fin 4) (s : State) : Host.Outcome State Fault Refusal := done (alarmTake k s)

/-- ZONE_TIMEOUT (R387): zone `z` has had no report for TMO ms. -/
def zoneTimeout (z : Nat) (s : State) : State :=
  if s.zoneOn z = true ∧ s.zoneState z ≠ zInvalid ∧
      (s.zone z).at_ + s.rd (F.LOOP_CTIM.TMO (s.zoneClass z)) * 1_000_000 ≤ s.now then showLoops (zoneInvalid z s)
  else s

def execZoneTimeout (z : Fin 1024) (s : State) : Host.Outcome State Fault Refusal := done (zoneTimeout z s)

/-- Zones of a fibre become INVALID as its commit logic becomes IDLE (R387). -/
def zonesIdle (x : Fibre) (s : State) : State :=
  showLoops (s.zonesOn.foldl (fun s z => if s.zoneFibre z = x then zoneInvalid z s else s) s)

/-- Acquisition start of a fibre for its zones (R387): the timeout begins, and zones beyond NCH_ACT raise an event each. -/
def zonesStarted (x : Fibre) (s : State) : State :=
  showLoops (s.zonesOn.foldl (fun s z =>
    if s.zoneFibre z = x then
      let s1 := s.setZone z { s.zone z with at_ := s.now }
      if s.zoneBeyond z then (zoneInvalid z s1).event 0x0D01 .warn noUnit (some x) 0 z 0 0 else s1
    else s) s)

/-- LOOP_ACK (R389). (DEDUCED, assumption 71.) -/
def loopAckOne (s : State) : State := (s.wr (F.LOOP_ZST.LATCHED (s.rd F.LOOP_ZIDX.INDEX)) 0).answer .ok
def loopAckAll (s : State) : State := ((List.range 1024).foldl (fun s z => s.wr (F.LOOP_ZST.LATCHED z) 0) s).answer .ok

def execLoopAckOne (s : State) : Host.Outcome State Fault Refusal := done (loopAckOne s)
def execLoopAckAll (s : State) : Host.Outcome State Fault Refusal := done (loopAckAll s)

/-- A write to LOOP_CUR1n (R397): FIX alone may change at runtime. -/
def loopFixWrite (n : Nat) (w : Word) (s : State) : State :=
  if wordField 0 16 w ≠ s.rd (F.LOOP_CUR1.I_A n) then s.answer .denied
  else (showLoop n (s.wr (F.LOOP_CUR1.FIX n) (wordField 16 16 w))).answer .ok

def execLoopFixWrite (n : Fin 8) (w : Word) (s : State) : Host.Outcome State Fault Refusal := done (loopFixWrite n w s)

/-! ## The readback check (R394) -/

/-- V_nom in mV (R345). -/
def State.vnomMv (s : State) : Nat := if s.rd F.HK_CTL.REFSEL = 0 then 2500 else s.rd F.HK_CTL.VNOM

/-- Current in nA of a commanded code (R392) and of a readback code. (DESIGN CHOICE, assumption 74.) -/
def loopCurrent (code : Nat) : Rat := 3_500_000 + (code * 19_500_000 : Nat) / (65_535 : Rat)
def readCurrent (mv : Nat) (code : Int) : Rat := ((code * mv * 10_000 : Int) : Rat) / 32_768

/-- A conversion of H(24 + n), sampled at `t`, that does not carry ERASED. (DESIGN CHOICE, assumption 29.) -/
def loopReadback (n t : Nat) (code : Int) (s : State) : State :=
  let v := s.readback n
  let blank := match v.changed with | some c => decide (t < c + 2_000_000) | none => false
  if s.rd (F.LOOP_CFG.RBEN n) = 0 ∨ blank = true then s
  else
    let i := readCurrent s.vnomMv code
    let want := loopCurrent (s.rd (F.LOOP_STAT.NOW n))
    let d := if i < want then want - i else i - want
    if i < 500_000 then
      let s1 := s.setReadback n { v with opens := v.opens + 1, devs := 0 }
      if 4 ≤ v.opens + 1 ∧ s.rd (F.LOOP_STAT.OPEN n) = 0 then
        showAlert ((s1.wr (F.LOOP_STAT.OPEN n) 1).event 0x0D01 .warn noUnit none 0 n 0 0)
      else s1
    else if (s.rd (F.LOOP_STAT.RBTOL n) * 10_000 : Nat) < d then
      let s1 := s.setReadback n { v with opens := 0, devs := v.devs + 1 }
      if 4 ≤ v.devs + 1 ∧ s.rd (F.LOOP_STAT.DEV n) = 0 then
        showAlert ((s1.wr (F.LOOP_STAT.DEV n) 1).event 0x0D01 .warn noUnit none 0 n 1 0)
      else s1
    else s.setReadback n { v with opens := 0, devs := 0 }

end Sys2Proof.Machine
end

