-- ==== Sys2Proof/Machine/Hk.lean ====
section
/-!
DEFINITION. Housekeeping converters and precision sensor channels (R343–R385). The multiplexer's order is worked out as results
are delivered: of the conversions due, the next one sampled is the one that R347's classes give.
-/
namespace Sys2Proof.Machine

/-- Nanoseconds of an HK clock. -/
def hkNs : Nat := 50

/-- The first HK edge at or after an instant. -/
def hkEdge (t : Nat) : Nat := (t + 49) / 50 * 50

/-- IDLEST codes of R373. -/
def ihShadow : Nat := 0
def ihCal : Nat := 1
def ihReady : Nat := 2
def ihFenced : Nat := 3
def ihTest : Nat := 4

def State.idleSt (s : State) : Nat := s.rd F.HK_STAT.IDLEST
def State.hkActive (s : State) : Nat := s.rd F.HK_STAT.ACTIVE
/-- Unit code of a converter (R558). -/
def hkUnit (c : Nat) : Nat := 0x50 + c

/-! ## Order of conversions (R347–R352) -/

/-- A conversion to come: what for, its input, slot start, added clocks, and the instant it was due. -/
structure Conv where
  what : ConvFor
  input : Nat
  start : Nat
  smpx : Nat
  due : Nat
deriving DecidableEq, Repr

def Conv.sample (c : Conv) : Nat := c.start + hkNs * c.smpx
def Conv.stop (c : Conv) : Nat := c.start + hkNs * (c.smpx + 1)

/-- TABLE mode, in which the ROM table or the image's runs. -/
def State.hkTable (s : State) : Bool := s.hk.rom || s.rd F.HK_CTL.MODE == 1

/-- Entry of the table in force: input, result slot, repetitions and delay in HK clocks (R352). -/
def State.tblEntry (s : State) (e : Nat) : Nat × Nat × Nat × Nat :=
  if s.hk.rom then (16 + e, 16 + e, 1, if e = 7 then 1992 else 0)
  else (s.rd (F.HK_TBL_DATA.INPUT e), s.rd (F.HK_TBL_DATA.SLOT e), s.tableRep e, s.rd (F.HK_TBL_DATA.DELAY e))

def State.tblCount (s : State) : Nat := if s.hk.rom then 8 else s.tableLen

/-- The multiplexer's next free instant, a discard conversion included (R346). -/
def State.hkFree (s : State) : Nat := s.hk.free + (if s.hk.discard then hkNs else 0)

def State.convAt (s : State) (what : ConvFor) (input due smpx : Nat) : Conv :=
  { what := what, input := input, start := max s.hkFree due, smpx := smpx, due := due }

/-- The class 4 conversion next in line. -/
def State.baseConv (s : State) : Option Conv :=
  if s.hkTable then
    let (i, slot, _, _) := s.tblEntry s.hk.tblEntry
    some (s.convAt (.table slot) i s.hk.tblStart 0)
  else match s.hk.reg with
    | [] => none
    | p :: _ => some (s.convAt (.regular p.entry) (s.rd (F.HK_RSEQ.INPUT p.entry)) p.start (s.rd (F.HK_RSEQ.SMPX p.entry)))

/-- The class 2 conversion next in line. -/
def State.injConv (s : State) : Option Conv :=
  match s.hk.inj with
  | [] => none
  | p :: _ => some (s.convAt (.injected (32 + p.entry)) (s.rd (F.HK_ISEQ.INPUT p.entry)) p.start (s.rd (F.HK_ISEQ.SMPX p.entry)))

/-- The multiplexer stands at a sequence boundary (R357). -/
def State.hkBoundary (s : State) : Bool :=
  if s.hkTable then s.hk.tblRep == 0 else match s.hk.reg with
    | [] => true
    | p :: _ => p.entry == 0

/-- The input of a class 3 conversion. -/
def placedInput (w : ConvFor) : Nat :=
  match w with
  | .monitor k => 32 + k
  | .check n => n
  | .verify => 32
  | _ => 39

/-- The class 3 conversion next in line: the verification series at a sequence boundary, else by due instant. -/
def State.placedConv (s : State) : Option Conv :=
  if 0 < s.hk.verifyLeft ∧ s.hkBoundary = true then some (s.convAt .verify 32 0 0)
  else match s.hk.placed with
    | [] => none
    | (d, w) :: _ => some (s.convAt w (placedInput w) (hkEdge d) 0)

/-- A lower-class choice against a higher class, which pre-empts it when it is due before the slot ends. (DESIGN CHOICE, assumption 65.) -/
def preempt (low high : Option Conv) : Option Conv :=
  match low, high with
  | none, h => h
  | l, none => l
  | some l, some h => if h.start < l.stop then some h else some l

/-- The next conversion sampled (R347, R348). (DESIGN CHOICE, assumption 29; DESIGN CHOICE, assumption 65.) -/
def State.nextConv (s : State) : Option Conv :=
  let low := match s.placedConv, s.baseConv with
    | some p, some b => if p.start ≤ b.start then some p else some b
    | some p, none => some p
    | none, b => b
  let pd := match s.hk.pds with
    | [] => none
    | (d, x, r) :: _ => some (s.convAt (.photodiode x r) (s.rd (F.SRC_PLOSS.PDSEL x.idx)) d 0)
  preempt (preempt low s.injConv) pd

/-- The regular sequence's next pass after one ends: at once under CONT (R350). -/
def State.contPass (s : State) (at_ : Nat) : List Pass :=
  if s.rd F.HK_RCFG.LEN ≠ 0 ∧ s.rd F.HK_RCFG.SRC = 0 ∧ s.hkTable = false then [{ entry := 0, start := at_ }] else []

/-- A pass after one entry. -/
def stepPass (len at_ : Nat) : List Pass → List Pass
  | [] => []
  | p :: t => if p.entry + 1 < len then { entry := p.entry + 1, start := at_ } :: t else t

/-- The multiplexer moves past a conversion (R348, R352). -/
def hkPass (c : Conv) (s : State) : State :=
  let stop := c.stop
  let h := { s.hk with free := stop, discard := false }
  let h' := match c.what with
    | .photodiode _ _ => { h with pds := h.pds.drop 1 }
    | .injected _ => { h with inj := stepPass (s.rd F.HK_ICFG.LEN) stop h.inj }
    | .regular _ =>
      let r := stepPass (s.rd F.HK_RCFG.LEN) stop h.reg
      { h with reg := if r.isEmpty then s.contPass stop else r }
    | .table _ =>
      let (_, _, rep, delay) := s.tblEntry h.tblEntry
      if h.tblRep + 1 < rep then { h with tblRep := h.tblRep + 1, tblStart := stop }
      else { h with tblRep := 0, tblEntry := (h.tblEntry + 1) % s.tblCount, tblStart := stop + hkNs * delay }
    | .verify => { h with verifyLeft := h.verifyLeft - 1 }
    | _ => { h with placed := h.placed.drop 1 }
  { s with hk := h' }

/-- The multiplexer as it stands at an instant, results aside: conversions sampled by then are passed. -/
def hkAhead (t : Nat) : Nat → State → State
  | 0, s => s
  | n + 1, s => match s.nextConv with
    | some c => if c.sample ≤ t then hkAhead t n (hkPass c s) else s
    | none => s

/-- An intrusive calibration holds all conversions (R358). -/
def State.hkPaused (s : State) (t : Nat) : Bool :=
  s.hk.calIntr && (match s.hk.calAt with | some a => decide (t < a + 2_000_000) | none => false)

/-! ## Triggers (R348, R350, R351) -/

/-- A class of passes is running at an edge. -/
def State.passRuns (s : State) (regular : Bool) (e : Nat) : Bool :=
  let a := hkAhead e ((e - s.hk.free) / hkNs + 2) s
  s.hkPaused e || (if regular then !a.hk.reg.isEmpty else !a.hk.inj.isEmpty)

/-- A recognised trigger starts a pass of a class, or is ignored. -/
def hkStart (regular : Bool) (e : Nat) (s : State) : State :=
  if s.passRuns regular e then s.wr (if regular then F.HK_STAT.ROVR else F.HK_STAT.IOVR) 1
  else
    let p : Pass := { entry := 0, start := e + hkNs * (s.rd (if regular then F.HK_RCFG.DLY else F.HK_ICFG.DLY) + 2) }
    s.modHk (fun h => if regular then { h with reg := h.reg ++ [p] } else { h with inj := h.inj ++ [p] })

/-- HK_TRIGGER: the oldest delivered trigger is recognised on the first HK edge at or after its own. Codes above 15 are the two
bits of HK_SWTRIG. -/
def hkTrigger (s : State) : State :=
  match s.hk.trigs with
  | [] => s
  | (c, t) :: rest =>
    let e := hkEdge t
    if s.now < e then s
    else
      let s0 := s.modHk (fun h => { h with trigs := rest })
      let hit (src len : Nat) (own : Nat) : Bool := decide (len ≠ 0) && (src == c || (c == own && src == 1))
      let s1 := if hit (s.rd F.HK_RCFG.SRC) (s.rd F.HK_RCFG.LEN) 16 && c != 1 && c != 17 && !s.hkTable then hkStart true e s0 else s0
      if hit (s.rd F.HK_ICFG.SRC) (s.rd F.HK_ICFG.LEN) 17 && c != 1 && c != 16 then hkStart false e s1 else s1

def execHkTrigger (s : State) : Host.Outcome State Fault Refusal := done (hkTrigger s)

/-- HK_TIMER_EXPIRE (R350). -/
def hkTimer (s : State) : State :=
  let p := max 1 (s.rd F.HK_TIMER.PERIOD) * hkNs
  if s.hk.timerAt + p ≤ s.now then (s.modHk (fun h => { h with timerAt := h.timerAt + p })).hkNote 2 (s.hk.timerAt + p) else s

def execHkTimerExpire (s : State) : Host.Outcome State Fault Refusal := done (hkTimer s)

/-- HK_SWTRIG (R372): a software trigger of one sequence, delivered as the write completes. -/
def swTrig (code : Nat) (s : State) : State := (s.modHk (fun h => { h with trigs := h.trigs ++ [(code, s.now)] })).answer .ok

def execRgo (s : State) : Host.Outcome State Fault Refusal := done (swTrig 16 s)
def execIgo (s : State) : Host.Outcome State Fault Refusal := done (swTrig 17 s)

/-- LAUNCH_x recognised for the photodiodes (R347, R348): delivered on the TIME edge at or after the launch. -/
def pdLaunch (x : Fibre) (tL round : Nat) (s : State) : State :=
  if s.rd (F.SRC_PLOSS.PDEN x.idx) = 1 then
    let e := hkEdge ((tL + 3) / 4 * 4)
    let d := e + hkNs * (s.rd (match x with | .a => F.HK_PDDLY.DLY_A | .b => F.HK_PDDLY.DLY_B) + 2)
    let before (p : Nat × Fibre × Nat) : Bool := decide (p.1 < d) || (p.1 == d && p.2.1 == .a)
    s.modHk (fun h => { h with pds := h.pds.takeWhile before ++ [(d, x, round)] ++ h.pds.dropWhile before })
  else s

/-! ## Monitor and check conversions (R347) -/

/-- Check conversions of channel `n` (R366): 64 of the modulation, and 16 of the lead in 3-wire mode. -/
def State.checkCount (s : State) (n : Nat) : Nat := if s.rd (F.SEN_CFG.WIRE n) = 1 then 80 else 64

def emptySensor : Sensor :=
  { discard := 0, from_ := 0, kept := none, due := none, first := none, check := none, placed := 0, taken := 0, hi := 0, lo := 0,
    lead := 0, clipped := false, erase := 0 }

def State.sensor (s : State) (n : Nat) : Sensor := mapGet (fun _ => emptySensor) s.sensors n
def State.setSensor (s : State) (n : Nat) (v : Sensor) : State :=
  { s with sensors := mapSet (fun _ => emptySensor) s.sensors n v }

/-- Insert placed conversions in order of due instant, behind those due at the same instant. (DESIGN CHOICE, assumption 65.) -/
def insertPlaced (p : Nat × ConvFor) : List (Nat × ConvFor) → List (Nat × ConvFor)
  | [] => [p]
  | q :: t => if p.1 < q.1 then p :: q :: t else q :: insertPlaced p t

def place (d : Nat) (w : ConvFor) (s : State) : State := s.modHk (fun h => { h with placed := insertPlaced (d, w) h.placed })

/-- MONITOR_CONVERSION_DUE: what has fallen due is placed, the monitor conversions first. -/
def monitorDue (s : State) : State :=
  let s1 := if s.hk.monDue ≤ s.now then
      let s0 := if s.rd F.HK_CTL.MONEN = 1 then (List.range 7).foldl (fun s k => place s.hk.monDue (.monitor k) s) s else s
      s0.modHk (fun h => { h with monDue := h.monDue + 100_000 })
    else s
  (List.range 8).foldl (fun s n =>
    let v := s.sensor n
    match v.check with
    | some t =>
      let d := t + 62_500 * v.placed
      if v.placed < s.checkCount n ∧ d ≤ s.now then (place d (.check n) s).setSensor n { v with placed := v.placed + 1 } else s
    | none => s) s1

def execMonitorConversionDue (s : State) : Host.Outcome State Fault Refusal := done (monitorDue s)

/-! ## Sensor channels (R362–R368) -/

/-- R/R0 of IEC 60751 at a temperature in 0.01 °C (R363). -/
def cvdRatio (t : Int) : Rat :=
  let v : Rat := (t : Rat) / 100
  let base := 1 + (39083 : Rat) / 10_000_000 * v - (5775 : Rat) / 10_000_000_000 * v * v
  if 0 ≤ t then base else base - (4183 : Rat) / 1_000_000_000_000_000 * (v - 100) * v * v * v

/-- The largest temperature of `n` binary steps from `lo` whose ratio is at most `r`. -/
def cvdSearch (r : Rat) : Nat → Int → Int → Int
  | 0, lo, _ => lo
  | n + 1, lo, step =>
    let m := lo + step
    cvdSearch r n (if m ≤ 85_000 ∧ cvdRatio m ≤ r then m else lo) (step / 2)

/-- Temperature in 0.01 °C of a resistance ratio, and whether it lies outside the range of R363; the free value picks within
±1 LSB of the exact temperature. (DESIGN CHOICE, assumption 24.) -/
def cvdTemp (free : Nat) (r : Rat) : Int × Bool :=
  if r < cvdRatio (-20_000) then (-20_000, true)
  else if cvdRatio 85_000 < r then (85_000, true)
  else
    let t := cvdSearch r 17 (-20_000) 65_536
    (if cvdRatio t = r then within1 free t 1 else t + ((free % 2 : Nat) : Int), false)

/-- Resistance in ohms that a code of channel `n` gives, the leads included (R363). -/
def State.sensedOhms (s : State) (n : Nat) (code : Int) : Rat :=
  let v : Rat := ((code * s.vnomMv : Int) : Rat) / ((32_768_000 * 2 ^ s.rd (F.SEN_EXC.GAIN n) : Nat) : Rat)
  let v := if s.rd (F.SEN_EXC.POL n) = 1 then -v else v
  let isel := s.rd (F.SEN_EXC.ISEL n)
  v * 100_000 / ((2 ^ isel : Nat) : Rat) / Config.excTrim n isel

/-- The output of channel `n` for a code (R363): value, OOR, and saturation. -/
def State.sensorOut (s : State) (n : Nat) (code : Int) : Int × Bool × Bool :=
  match s.rd (F.SEN_CFG.CONV n) with
  | 0 => (code, false, false)
  | c =>
    let lead : Nat := match s.rd (F.SEN_CFG.WIRE n) with
      | 0 => s.rd (F.SEN_LEAD.RCFG n)
      | 1 => if s.rd (F.SEN_STAT.PROV n) = 1 then s.rd (F.SEN_LEAD.RCFG n) else s.rd (F.SEN_LEAD.RMEAS n)
      | _ => 0
    let r := s.sensedOhms n code - (lead : Rat) / 1000
    let (t, oor) := cvdTemp (Config.freeNat s.fresh) (r / (if c = 1 then 100 else 1000))
    (satI 16 t, oor, satI 16 t != t)

/-- A kept conversion of Hn with quality `q`, sampled with timestamp `ts` (R363, R367). -/
def sensorKept (n t ts : Nat) (code : Int) (q : Nat) (s : State) : State :=
  if s.rd (F.SEN_CFG.EN n) = 0 then s
  else
    let v := s.sensor n
    let three := s.rd (F.SEN_CFG.WIRE n) = 1
    let s1 := if v.kept.isSome then s
      else if three then s.setSensor n { v with
        kept := some t, first := if s.rd (F.SEN_STAT.PROV n) = 1 then some (t + 100_000_000) else none }
      else (s.setSensor n { v with kept := some t }).wr (F.SEN_STAT.PROV n) 0
    let (out, oor, sat) := s1.sensorOut n code
    let out := if qBit q 4 then s1.rdI (F.SEN_OUT.VALUE n) else out
    let picot := three ∧ s1.rd (F.SEN_STAT.PROV n) = 1
    let clip := !(qBit q 4) && (oor || sat)
    let q1 := q ||| (if clip then 2 else 0) ||| (if picot then 64 else 0)
    let q2 := q1 / 2 * 2 + (if qBit q1 4 || qBit q1 6 then 0 else 1)
    let s2 := s1.spend 1
    let s3 := if oor && !(qBit q 4) then s2.wr (F.SEN_STAT.OOR n) 1 else s2
    auxInput (40 + n) out ts q2 ((s3.wrI (F.SEN_OUT.VALUE n) out).wr (F.SEN_OUT.QUAL n) q2)

/-- Result slots whose entries convert input `n` in the sequences or table in force. -/
def State.slotsOf (s : State) (n : Nat) : List Nat :=
  (if s.hkTable then
      ((List.range s.tblCount).filter (fun e => (s.tblEntry e).1 == n)).map (fun e => (s.tblEntry e).2.1)
    else (List.range (s.rd F.HK_RCFG.LEN)).filter (fun k => s.rd (F.HK_RSEQ.INPUT k) == n)) ++
  ((List.range (s.rd F.HK_ICFG.LEN)).filter (fun k => s.rd (F.HK_ISEQ.INPUT k) == n)).map (· + 32)

/-- An excitation switch of channel `n` (R365). -/
def excSwitch (n : Nat) (s : State) : State :=
  let s1 := (s.setSensor n { s.sensor n with discard := 16, from_ := hkEdge (s.now + 1), kept := none }).wr (F.SEN_STAT.DISC n) 1
  (s.slotsOf n ++ [40 + n]).foldl (fun s k => auxExcit k s) s1

/-- SEN_EXC_WRITE (R365, R367): a change of EXON, POL, GAIN or ISEL is a switch. -/
def excWrite (n : Nat) (w : Word) (s : State) : State :=
  let old := s.reg (R.SEN_EXC n)
  let s1 := s.wrs [(F.SEN_EXC.EXON n, wordField 11 1 w), (F.SEN_EXC.GAIN n, wordField 8 3 w), (F.SEN_EXC.POL n, wordField 3 1 w),
    (F.SEN_EXC.ISEL n, wordField 0 3 w)]
  let s2 := if wordField 11 1 old = 0 ∧ wordField 11 1 w = 1 then s1.wr (F.SEN_STAT.PROV n) 1 else s1
  (if s1.reg (R.SEN_EXC n) = old then s2 else excSwitch n s2).answer .ok

def execSenExcWrite (n : Fin 8) (w : Word) (s : State) : Host.Outcome State Fault Refusal := done (excWrite n w s)

/-- A check begins at the instant it is due (R366): the first one of R367, or the periodic one. The first runs whatever CHKPER. (DEDUCED,
assumption 102.) -/
def checkStart (n : Nat) (s : State) : State :=
  let v := s.sensor n
  let per := s.rd F.SEN_CHK.CHKPER * 1_000_000_000
  let isFirst := match v.first with | some t => decide (t ≤ s.now) | none => false
  let isDue := match v.due with | some t => decide (t ≤ s.now) | none => false
  let t0 := (if isFirst then v.first else v.due).getD s.now
  if v.check.isSome ∨ s.rd (F.SEN_CFG.EN n) = 0 ∨ s.rd (F.SEN_CFG.CHKEN n) = 0 ∨ (isFirst || isDue) = false ∨
      (isFirst = false ∧ per = 0) then s
  else
    (s.setSensor n { v with
      check := some t0, placed := 0, taken := 0, hi := 0, lo := 0, lead := 0, clipped := false,
      first := if isFirst then none else v.first,
      due := if isDue ∧ per ≠ 0 then v.due.map (· + per) else v.due }).wr (F.SEN_STAT.CHK n) 1

def execSensorCheckStart (n : Fin 8) (s : State) : Host.Outcome State Fault Refusal := done (checkStart n s)

/-- One check conversion of channel `n`: of each millisecond's sixteen the first eight meet the raised current. (DESIGN CHOICE,
assumption 111.) -/
def checkTake (n : Nat) (code : Int) (clip : Bool) (s : State) : State :=
  let v := s.sensor n
  let k := v.taken
  s.setSensor n { v with
    taken := k + 1, hi := if k < 64 ∧ k % 16 < 8 then v.hi + code else v.hi,
    lo := if k < 64 ∧ 8 ≤ k % 16 then v.lo + code else v.lo, lead := if 64 ≤ k then v.lead + code else v.lead,
    clipped := v.clipped || (clip && decide (k < 64)) }

/-- A check ends after its 5 ms (R366, R367): ZMEAS and RMEAS, and the impedance fault. -/
def checkEnd (n : Nat) (s : State) : State :=
  let v := s.sensor n
  match v.check with
  | none => s
  | some t =>
    if s.now < t + 5_000_000 ∨ v.taken < s.checkCount n then s
    else
      -- the modulation swings the current by half its value between the halves: 32 conversions in each
      let z := satN 16 (max 0 (rndRat (2 * s.sensedOhms n (v.hi - v.lo) / 32))).toNat
      let rm := satN 16 (max 0 (rndRat (1000 * s.sensedOhms n v.lead / 16))).toNat
      let three := s.rd (F.SEN_CFG.WIRE n) = 1
      let bad := decide (z < s.rd (F.SEN_ZLIM.ZMIN n) ∨ s.rd (F.SEN_ZLIM.ZMAX n) < z) || v.clipped
      let s1 := (s.setSensor n { v with check := none, erase := 16 }).wrs
        [(F.SEN_STAT.ZMEAS n, z), (F.SEN_STAT.CHK n, 0)]
      let s2 := if three then s1.wrs [(F.SEN_LEAD.RMEAS n, rm), (F.SEN_STAT.PROV n, if v.kept.isSome then 0 else s.rd (F.SEN_STAT.PROV n))]
        else s1
      if bad then (s2.wr (F.SEN_STAT.IMPF n) 1).event 0x0C01 .warn noUnit none 0 n 0 0 else s2

def execSensorCheckEnd (n : Fin 8) (s : State) : Host.Outcome State Fault Refusal := done (checkEnd n s)

/-! ## Converter redundancy (R344, R345, R355–R359) -/

/-- Expected code of H32 (R345). -/
def State.bandgapCode (s : State) : Int := rndDiv (1250 * 32768) (max 1 (s.vnomMv : Int))

/-- A code lies more than `permille` of the expected one away from it. -/
def offBy (want code : Int) (permille : Nat) : Bool := decide ((permille : Int) * want.natAbs < 1000 * (code - want).natAbs)

/-- A fenced converter begins its built-in test (R356). -/
def hkFence (s : State) : State := (s.wr F.HK_STAT.IDLEST ihTest).modHk (fun h => { h with testAt := some s.now })

/-- A converter fault (R356): the idle converter takes over from a failed active one, if it can. -/
def hkFault (c : Nat) (s : State) : State :=
  let st := s.idleSt
  if c = s.hkActive then
    let s0 := s.event 0x0B01 .fault (hkUnit c) none 0 0 0 0
    let usable := decide (st = ihShadow ∨ st = ihReady ∨ st = ihCal)
    let s1 := s0.modHk (fun h => { h with lostAt := some s.now })
    if usable then
      let s2 := (s1.wr F.HK_STAT.ACTIVE (1 - c)).modHk (fun h =>
        { h with flipAt := s.now, subst := true, calAt := if h.calIntr then h.calAt else none, mismatch := 0, resetReq := false })
      hkFence (s2.countFail (hkUnit c) 0)
    else s1
  else if st = ihFenced ∨ st = ihTest then s
  else hkFence (((s.modHk (fun h => { h with calAt := if h.calIntr then h.calAt else none })).event
    0x0B01 .fault (hkUnit c) none 0 0 0 0).countFail (hkUnit c) 0)

/-- HK_CONVERTER_FAULT: a result of converter `c` is missing (R356). -/
def execHkConverterFault (c : Fin 2) (s : State) : Host.Outcome State Fault Refusal := done (hkFault c s)

/-- REF_SETTLED (R344): REFIN has been within its range for `inRange` ns. -/
def refSettled (inRange : Nat) (s : State) : State :=
  let ok := match s.rd F.HK_CTL.REFSEL with
    | 0 => decide (s.hk.refFrom + 2_000_000 ≤ s.now)
    | 1 => decide (200_000 ≤ inRange ∧ s.hk.refFrom ≤ s.now)
    | _ => decide (s.hk.refFrom + 10_000 ≤ s.now)
  if ok then s.wr F.HK_STAT.REF_OK 1 else s

def execRefSettled (inRange : Nat) (s : State) : Host.Outcome State Fault Refusal := done (refSettled inRange s)

/-- Every slot's next result carries CAL (R354, R358). -/
def calMarks (s : State) : State := s.modHk (fun h => { h with calSlots := List.range 40 })

/-- A calibration of the idle converter begins. -/
def hkCalBegin (s : State) : State :=
  (s.wr F.HK_STAT.IDLEST ihCal).modHk (fun h => { h with calAt := some s.now, calIntr := false, mismatch := 0 })

/-- HK_CAL.START (R357, R358). -/
def hkCalStart (intr : Bool) (s : State) : State :=
  let put (s : State) : State := s.wr F.HK_CAL.INTRUSIVE (if intr then 1 else 0)
  if s.idleSt = ihCal ∨ (s.hk.calIntr = true ∧ s.hk.calAt.isSome = true) then (s.wr F.HK_CAL.RESULT 5).answer .busy
  else if s.idleSt = ihFenced ∨ s.idleSt = ihTest then
    if intr then ((put s).modHk (fun h =>
      { h with calAt := some s.now, calIntr := true, free := max h.free (hkEdge s.now) + 2_000_000 })).answer .ok
    else (s.wr F.HK_CAL.RESULT 3).answer .busy
  else (hkCalBegin (put s)).answer .ok

def execHkCalStart (intr : Bool) (s : State) : Host.Outcome State Fault Refusal := done (hkCalStart intr s)

/-- HK_AUTOCAL_REQUEST (R357): by age, or by a change of die temperature. -/
def hkAutocal (s : State) : State :=
  let per := s.rd F.HK_CAL.PER
  let dt := s.rd F.HK_CAL.DT
  let warm := match s.dieTemp with | some t => decide (100 * dt ≤ (t - s.hk.calTemp).natAbs) | none => false
  if s.rd F.HK_CAL.AUTOCAL = 1 ∧ (s.idleSt = ihShadow) ∧ ((per ≠ 0 ∧ s.hk.lastCal + per * 60_000_000_000 ≤ s.now) ∨ (dt ≠ 0 ∧ warm = true))
  then hkCalBegin s else s

def execHkAutocalRequest (s : State) : Host.Outcome State Fault Refusal := done (hkAutocal s)

/-- Write a converter's coefficients (R377). -/
def showCoef (c gain : Nat) (ofs : Int) (s : State) : State :=
  if c = 0 then (s.wr F.HK_COEF_A.GAIN gain).wrI F.HK_COEF_A.OFS ofs else (s.wr F.HK_COEF_B.GAIN gain).wrI F.HK_COEF_B.OFS ofs

/-- A converter takes measured coefficients, which the calibration store is to hold too (R622). -/
def putCoef (c gain : Nat) (ofs : Int) (s : State) : State :=
  showCoef c gain ofs (s.modFlash Flash.markCal)

/-- A fenced converter's test ends (R356, R563): it rejoins as the idle one. -/
def hkTestEnd (pass : Bool) (gain : Nat) (ofs : Int) (s : State) : State :=
  let c := 1 - s.hkActive
  let u := hkUnit c
  let s1 := (s.modHk (fun h => { h with testAt := none })).testDone u pass
  if pass = true ∧ s1.unitHeld u = false then
    ((putCoef c gain ofs s1).wr F.HK_STAT.IDLEST ihShadow).modHk (fun h => { h with subst := false, mismatch := 0 })
  else s1.wr F.HK_STAT.IDLEST ihFenced

/-- HK_CAL_COMPLETE (R357, R358): the measured gain and offset, and whether the calibration passes. -/
def hkCalComplete (pass : Bool) (gain : Nat) (ofs : Int) (s : State) : State :=
  match s.hk.calAt, s.hk.testAt with
  | some t, _ =>
    if s.now < t + 2_000_000 then s
    else
      let c := if s.hk.calIntr then s.hkActive else 1 - s.hkActive
      let s1 := s.modHk (fun h => { h with calAt := none, calIntr := false, lastCal := s.now, calTemp := s.dieTemp.getD h.calTemp })
      let s2 := if (match s.health.test with | some r => r.unit == hkUnit c | none => false) then s1.testDone (hkUnit c) pass else s1
      if s.hk.calIntr then
        if pass then calMarks ((putCoef c gain ofs s2).wr F.HK_CAL.RESULT 6) else (s2.countFail (hkUnit c) 0).wr F.HK_CAL.RESULT 4
      else if pass then (putCoef c gain ofs s2).wrs [(F.HK_STAT.IDLEST, ihReady), (F.HK_CAL.RESULT, 2)]
      else ((s2.countFail (hkUnit c) 0).event 0x0B01 .fault (hkUnit c) none 0 0 0 0).wrs
        [(F.HK_STAT.IDLEST, ihFenced), (F.HK_CAL.RESULT, 4)]
  | none, some t => if s.now < t + 2_000_000 then s else hkTestEnd pass gain ofs s
  | none, none => s

def execHkCalComplete (pass : Bool) (gain : Fin 65536) (ofs : Int) (s : State) : Host.Outcome State Fault Refusal :=
  done (hkCalComplete pass gain ofs s)

/-- HK_SWAP (R357, R359): at a sequence boundary the READY converter, or for a UNIT reset the shadowing one, becomes active. -/
def hkSwap (s : State) : State :=
  let want := decide (s.idleSt = ihReady) || (s.hk.resetReq && decide (s.idleSt = ihShadow))
  if want = false ∨ s.hkBoundary = false then s
  else
    let till := max s.hk.free (hkEdge s.now) + 2 * hkNs
    let s1 := (s.wrs [(F.HK_STAT.ACTIVE, 1 - s.hkActive), (F.HK_STAT.IDLEST, ihShadow), (F.HK_CAL.RESULT, 1)]).modHk (fun h =>
      { h with free := till, swapTo := till, flipAt := till - 2 * hkNs, mismatch := 0 })
    let s2 := calMarks s1
    if s.hk.resetReq then hkCalBegin (s2.modHk (fun h => { h with resetReq := false })) else s2

def execHkSwap (s : State) : Host.Outcome State Fault Refusal := done (hkSwap s)

/-- UNIT reset of a converter (R359). -/
def hkUnitReset (c : Nat) (s : State) : State :=
  if c ≠ s.hkActive then
    if s.idleSt = ihFenced ∨ s.idleSt = ihTest then (hkFence s).answer .ok else (hkCalBegin s).answer .ok
  else if s.idleSt = ihFenced ∨ s.idleSt = ihTest then s.answer .busy
  else (s.modHk (fun h => { h with resetReq := true })).answer .ok

/-- The last conversion of the verification series is in (R355). -/
def verifyEnd (s : State) : State :=
  let want := s.bandgapCode
  let mean (sum : Int) : Int := rndDiv sum 16
  let badA := offBy want (mean s.hk.verifySum.a) 5
  let badB := offBy want (mean s.hk.verifySum.b) 5
  let s1 := s.modHk (fun h => { h with verifySum := ⟨0, 0⟩, mismatch := 0 })
  -- the sums are of the active and of the idle converter
  if badA && badB then hkFault s.hkActive (hkFault (1 - s.hkActive) s1)
  else if badA then hkFault s.hkActive s1
  else if badB then hkFault (1 - s.hkActive) s1
  else s1.event 0x0B01 .fault noUnit none 0 0 0 0

/-- The comparison of both converters (R355). -/
def hkCompare (d : ConvData) (s : State) : State :=
  if (s.idleSt = ihShadow ∨ s.idleSt = ihReady) ∧ d.ovr = false ∧ d.idleOvr = false ∧ s.hk.verifyLeft = 0 then
    if 32 < (d.code - d.idle).natAbs then
      if 16 ≤ s.hk.mismatch + 1 then (s.wr F.HK_STAT.SHMIS 1).modHk (fun h =>
          { h with mismatch := 0, verifyLeft := 16, verifySum := ⟨0, 0⟩ })
      else s.modHk (fun h => { h with mismatch := h.mismatch + 1 })
    else s.modHk (fun h => { h with mismatch := 0 })
  else s

/-- The reference check (R345). -/
def refCheck (d : ConvData) (s : State) : State :=
  let want := s.bandgapCode
  let s1 := if offBy want d.code 5 then
      (s.event 0x0B02 .warn noUnit none 0 0 0 0).wr F.HK_STAT.REFERR 1 else s
  let shadow := decide (s.idleSt = ihShadow ∨ s.idleSt = ihReady)
  let a := offBy want d.code 20
  let b := offBy want d.idle 20
  if shadow && a && !b then hkFault s.hkActive s1
  else if shadow && b && !a then hkFault (1 - s.hkActive) s1
  else s1

/-! ## The Eyelet (R360, R361) -/

/-- Full scale at input `k` in 1/1000 mV of the input, and the test level of R361 there. -/
def State.inputScale (s : State) (k : Nat) : Rat :=
  let v : Rat := s.vnomMv
  if k < 8 then v / ((2 ^ s.rd (F.SEN_EXC.GAIN k) : Nat) : Rat)
  else if k < 16 then (if s.rd F.HK_AIN.RANGE / 2 ^ (k - 8) % 2 = 1 then 2 * v else v)
  else if k < 24 then v / 8
  else v

def State.testLevel (s : State) (k : Nat) : Rat :=
  let l := s.inputScale k * 3 / 4
  if 2250 < l then 2250 else l

/-- The Eyelet's code for +L: the largest divider that reaches it (R360, R361). -/
def eyeletCode (l : Rat) : Int :=
  let d : Rat := if l * 256 ≤ 2398 then 256 else if l * 16 ≤ 2398 then 16 else 1
  rndRat (l * d * 2048 / 2400)

/-- A code differs from an expected one by more than TOL (R380). -/
def State.beyondTol (s : State) (want code : Int) : Bool :=
  decide (s.rd F.HK_TEST.TOL * 32768 < 1000 * (code - want).natAbs)

/-- Expected code of H39 for an Eyelet code offset (R360). -/
def State.eyeExpect (s : State) (e : Int) : Int :=
  satI 16 (rndRat (((e * 2400 : Int) : Rat) / 2048 * 32768 / (max 1 s.vnomMv : Nat)))

/-- A test of input `k` begins. -/
def eyeletBegin (k : Nat) (s : State) : State :=
  place s.now .eyelet (place s.now .eyelet ((s.wr F.HK_TEST.BUSY 1).modHk (fun h =>
    { h with eyelet := some { input := k, pre := 0, taken := 0, bad := false }, lastTest := s.now })))

/-- Inputs H00 to H31 that the sequences or the table convert. -/
def State.testable (s : State) : List Nat := (List.range 32).filter (fun k => !(s.slotsOf k).isEmpty)

/-- HK_TEST.GO (R361). -/
def hkTestGo (k : Nat) (s : State) : State :=
  if s.rd F.HK_TEST.BUSY = 1 then s.answer .busy
  else if s.testable.contains k then (eyeletBegin k (s.wr F.HK_TEST.INPUT k)).answer .ok
  else s.answer .refused

def execHkTestGo (k : Fin 64) (s : State) : Host.Outcome State Fault Refusal := done (hkTestGo k s)

/-- HK_TEST_AUTO (R361): the next input in rotation. -/
def hkTestAuto (s : State) : State :=
  let per := s.rd F.HK_TEST.TPER * 10_000_000
  if per = 0 ∨ s.rd F.HK_TEST.BUSY = 1 ∨ s.now < s.hk.lastTest + per then s
  else match (s.testable.filter (fun k => decide (s.hk.rotate ≤ k))) ++ s.testable with
    | [] => s
    | k :: _ => (eyeletBegin k s).modHk (fun h => { h with rotate := (k + 1) % 32 })

def execHkTestAuto (s : State) : Host.Outcome State Fault Refusal := done (hkTestAuto s)

/-- A conversion of H39 for the test: outside TOL, the test is void. -/
def eyeletPre (code : Int) (s : State) : State :=
  match s.hk.eyelet with
  | none => s
  | some e =>
    let l := eyeletCode (s.testLevel e.input)
    let want := s.eyeExpect (if e.pre = 0 then l else -l)
    if s.beyondTol want code then
      (s.wrs [(F.HK_STAT.EYERR, 1), (F.HK_TEST.BUSY, 0)]).modHk (fun h => { h with
        eyelet := none, placed := h.placed.filter (fun p => p.2 != .eyelet) })
    else s.modHk (fun h => { h with eyelet := some { e with pre := e.pre + 1 } })

/-- A sequencer conversion of an input that may be under test: the state, and whether it carries ERASED. -/
def eyeletTake (input : Nat) (code : Int) (s0 : State) : State × Bool :=
  let tail := s0.hk.eyeTail.contains input
  let s := if tail then s0.modHk (fun h => { h with eyeTail := h.eyeTail.filter (· ≠ input) }) else s0
  match s.hk.eyelet with
  | none => (s, tail)
  | some e =>
    if e.input ≠ input ∨ e.pre < 2 then (s, tail)
    else
      let want := rndRat (s.testLevel input * 32768 / s.inputScale input)
      let want := if e.taken < 4 then want else -want
      let bad := e.bad || (e.taken % 4 != 0 && s.beyondTol want code)
      let s1 := s.modHk (fun h => { h with eyelet := some { e with taken := e.taken + 1, bad := bad } })
      if e.taken = 7 then
        let s2 := (s1.modHk (fun h => { h with eyelet := none, eyeTail := h.eyeTail ++ [input] })).wr F.HK_TEST.BUSY 0
        if bad then ((s2.wr F.HK_TFAIL.FAIL (s2.rd F.HK_TFAIL.FAIL ||| 2 ^ input)).event 0x0B02 .warn noUnit none 0 input 0 0, true)
        else (s2, true)
      else (s1, true)

/-! ## Results (R353, R354) -/

/-- Fields of a result register: NEW, OVR, CLAMP, DISC, DELAYED, CONV, QUAL and VALUE (R381). -/
def resultWord (d : ConvData) (disc delayed : Bool) (conv q : Nat) (value : Int) : Word :=
  w32 (2 ^ 31 + (if d.ovr then 2 ^ 30 else 0) + (if d.clamp then 2 ^ 29 else 0) + (if disc then 2 ^ 28 else 0) +
    (if delayed then 2 ^ 27 else 0) + conv % 2 * 2 ^ 26 + q % 256 * 2 ^ 16 + unsgn 16 value)

/-- CLAMP latches of an input (R346). -/
def latchClamp (input : Nat) (s : State) : State :=
  if input < 8 then s.wr (F.SEN_STAT.CLAMP input) 1
  else if input < 16 then s.wr F.HK_AIN.CLAMP (s.rd F.HK_AIN.CLAMP ||| 2 ^ (input - 8))
  else s

/-- A base or injected result in slot `k` (R353): DISC and ERASED by the channel's state, then chain, output and readback. -/
def slotResult (c : Conv) (k : Nat) (d : ConvData) (q : Nat) (lost delayed : Bool) (conv ts : Nat) (s : State) : State :=
  let n := c.input
  let v := s.sensor n
  -- conversions of a check and the 16 after it are not discarded (R366); those that a switch discards follow them
  let checking := decide (n < 8) && (v.check.isSome || decide (0 < v.erase))
  let disc := decide (n < 8 ∧ 0 < v.discard ∧ v.from_ < c.sample) && !checking
  let s1 := if disc then
      (s.setSensor n { v with discard := v.discard - 1 }).wr (F.SEN_STAT.DISC n) (if v.discard = 1 then 0 else 1)
    else s
  let (s2, eye) := eyeletTake n d.code s1
  let s3 := if checking ∧ v.check.isNone then s2.setSensor n { s2.sensor n with erase := v.erase - 1 } else s2
  let cal := s.hk.calSlots.contains k
  let s4 := if cal then s3.modHk (fun h => { h with calSlots := h.calSlots.filter (· ≠ k) }) else s3
  let er := qBit q 4 || eye || checking
  let q := (if er then 16 else 1) + q % 16 / 2 * 2 + qPart q 5 + (if cal then 128 else 0)
  let value := if lost then s.rdI (F.HK_RES.VALUE k) else d.code
  let s5 := s4.setReg (R.HK_RES k) (resultWord d disc delayed conv q value)
  if disc then s5
  else
    let s6 := auxInput k value ts q s5
    let s7 := if n < 8 then sensorKept n c.sample ts value q s6 else s6
    if 24 ≤ n ∧ n < 32 ∧ er = false then loopReadback (n - 24) c.sample value s7 else s7

/-- A converter's code through its gain and offset coefficients (R343, R377); an over-range one is full scale (R346). (DEDUCED,
assumption 101.) -/
def State.corrected (s : State) (conv : Nat) (code : Int) (ovr : Bool) : Int :=
  let (g, o) := if conv = 0 then (s.rd F.HK_COEF_A.GAIN, s.rdI F.HK_COEF_A.OFS) else (s.rd F.HK_COEF_B.GAIN, s.rdI F.HK_COEF_B.OFS)
  if ovr then (if code < 0 then -32768 else 32767) else satI 16 (rndDiv (code * g + o * 2048) 32768)

/-- CONVERSION_RESULT (R353): the results of the next conversion sampled at least 8 HK clocks ago. (DESIGN CHOICE, assumption 29.) -/
def conversionResult (d : ConvData) (s : State) : State :=
  match s.nextConv with
  | none => s
  | some c =>
    if s.now < c.sample + 8 * hkNs then s
    else
      let lost := match s.hk.lostAt with | some t => decide (c.sample ≤ t) | none => false
      let conv := if c.sample < s.hk.flipAt then 1 - s.hkActive else s.hkActive
      let delayed := match c.what with
        | .photodiode _ _ => decide (c.due < s.hkFree)
        | _ => decide (c.due < s.hk.swapTo ∧ s.hk.free = s.hk.swapTo) || (s.hk.discard && decide (c.due < s.hkFree))
      let ts := s.stampAt c.sample
      let d := { d with code := s.corrected conv d.code d.ovr, idle := s.corrected (1 - conv) d.idle d.idleOvr }
      let code := d.code
      let er := lost || s.rd F.HK_STAT.REF_OK == 0
      let clip := d.ovr || d.clamp
      let q := (if er then 16 else 1) + (if clip then 2 else 0) + (if s.hk.subst then 32 else 0)
      let s1 := hkPass c s
      let s2 := if d.clamp then latchClamp c.input (s1.modHk (fun h => { h with discard := true })) else s1
      let s3 := if lost then s2 else hkCompare d s2
      match c.what with
      | .photodiode x r =>
        let w := resultWord d false delayed conv q (if lost then s.rdI (F.HK_PDRES.VALUE x.idx) else code)
        let s4 := s3.setReg (R.HK_PDRES x.idx) w
        if lost then s4
        else s4.modCmt x (fun m => { m with rounds := m.rounds.map (fun i =>
          if i.round = r then { i with pdSum := i.pdSum + code, pdCount := i.pdCount + 1 } else i) })
      | .injected k => slotResult c k d q lost delayed conv ts s3
      | .regular k => slotResult c k d q lost delayed conv ts s3
      | .table k => slotResult c k d q lost delayed conv ts s3
      | .monitor k =>
        let s4 := s3.setReg (R.HK_MON k) (resultWord d false delayed conv q (if lost then s.rdI (F.HK_MON.VALUE k) else code))
        if k = 0 ∧ lost = false then refCheck d s4 else s4
      | .check n => checkTake n code clip s3
      | .verify =>
        let s4 := s3.modHk (fun h => { h with verifySum := ⟨h.verifySum.a + code, h.verifySum.b + d.idle⟩ })
        if s4.hk.verifyLeft = 0 then verifyEnd s4 else s4
      | .eyelet => eyeletPre code s3

def execConversionResult (d : ConvData) (s : State) : Host.Outcome State Fault Refusal := done (conversionResult d s)

/-! ## Resets and the image (R344, R352, R366, R368) -/

/-- The image's housekeeping configuration takes effect at an instant: sequences, reference and checks begin. -/
def hkApply (s : State) : State :=
  let e := hkEdge s.now
  let s1 := s.modHk (fun h => { h with
    rom := false, pds := [], inj := [], reg := [], placed := h.placed, tblEntry := 0, tblRep := 0, tblStart := e, trigs := [],
    timerAt := e, refSel := s.rd F.HK_CTL.REFSEL, refFrom := if h.refSel = s.rd F.HK_CTL.REFSEL then h.refFrom else s.now,
    lastTest := s.now, lastCal := s.now })
  let s2 := s1.modHk (fun h => { h with reg := s1.contPass e })
  let s3 := if s.hk.refSel = s.rd F.HK_CTL.REFSEL then s2 else s2.wr F.HK_STAT.REF_OK 0
  (List.range 8).foldl (fun s n =>
    let per := s.rd F.SEN_CHK.CHKPER
    let s1 := s.setSensor n { s.sensor n with due := if per = 0 then none else some (s.now + n * per * 125_000_000) }
    let s2 := if s.rd (F.SEN_CFG.EN n) = 1 then s1.wr (F.SEN_STAT.PROV n) 1 else s1
    if s.reg (R.SEN_EXC n) = 0 then s2 else excSwitch n s2) s3

end Sys2Proof.Machine
end

