-- ==== Sys2Proof/Machine/Acquire.lean ====
section
/-!
DEFINITION. Acquisition: starts and stops, round boundaries, slots and their permits, launches, Raman triggers and plan changes
(R35–R38, R61–R100).
-/
namespace Sys2Proof.Machine

/-! ## Start checks (R38, R79, R88) -/

/-- The length that plans are checked against: L_pts, or L_m after a re-plan (R81). -/
def State.lpts (s : State) (x : Fibre) : Nat := (s.sch x).lm.getD (s.rd (F.SHOT_FLEN.LEN x.idx))

/-- T_R of a plan of a fibre, re-planned or not (R68, R81). -/
def State.trFor (s : State) (x : Fibre) (p : PlanVals) : Nat :=
  match (s.sch x).lm with
  | some l => s.trReplanned x.idx l p
  | none => s.trOf x.idx p

/-- Limit codes of R33 under a view in which fibre `x` acquires. -/
def State.limitCodes (s : State) (x : Nat) (v : View) : List Nat :=
  let dts := s.dtsChannels x + (if (v.acq.at (1 - x)).isSome then s.rd (F.DTS_STAT.NBACT (1 - x)) else 0)
  (if v.channelsOver then [5] else []) ++ (if v.samplesOver then [6] else []) ++ (if 131072 < dts then [7] else []) ++
  (if v.rateOver x then [8] else []) ++ (if s.groundFits v then [] else [9]) ++ (if s.netErr v = 0 then [] else [10]) ++
  (if s.laneOver v (fun l => s.charges l x) then [11] else [])

/-- Show which shared budget a view breaks (R438, R505). -/
def State.showRefusal (s : State) (v : View) : State :=
  let n := s.netErr v
  let s1 := s.showGround v
  if n = 0 then s1 else s1.wr F.NET_BUDGET.ERR n

/-- The next 100 ns coincident edge at least 20 µs away (R40, R79). -/
def firstBoundary (now : Nat) : Nat := (now + 20_000 + 99) / 100 * 100

/-- What the lanes and the bobbins hold of an acquisition of fibre `x` that is over and committed no longer names a round of it:
due outputs are released, and tags of the fibre fall away. -/
def forgetRun (x : Fibre) (s : State) : State :=
  let free (t : Two Nat) : Two Nat := t.upd x.idx 0
  let clean (c : LaneCore) : LaneCore := { c with seen := free c.seen, outs := c.outs.map (fun o => { o with tags := free o.tags }) }
  let s1 := foldS (fun (p : Nat × Logical) s => laneRelease p.1 s) s.lanes.ll s
  let s2 := s1.mapBobs (·.map (fun r => { r with tags := free r.tags }))
  foldS (fun (p : Nat × Logical) s => s.setLogical p.1 { p.2 with
    core := clean p.2.core, cks := p.2.cks.map (fun k => { k with core := clean k.core }) }) s2.lanes.ll s2

/-- Every logical lane that fibre `x` governs is initialised (R299). -/
def initGoverned (x : Fibre) (s : State) : State :=
  foldS (fun (p : Nat × Logical) s => if s.governs p.2 = x.idx then laneInit false p.1 s else s) s.lanes.ll s

/-- Fibre `x` begins to acquire: its first round starts at `t0`. (DEDUCED, assumption 14.) -/
def beginAcq (x : Fibre) (t0 : Nat) (s0 : State) : State :=
  let s := forgetRun x s0
  let xi := x.idx
  let p := s.plan true xi
  let c := s.sch x
  let s1 := s.setSch x {
    startAt := some t0, round := 0, tB := t0, tr := s.trOf xi p, nT := p.nT, evalRound := 0, evalSlot := 0, armed := none,
    nextSeq := c.nextSeq, darkRound := false, goAt := 0, accepted := false, stopReq := false, startHeld := false, heldTo := none,
    probeReq := false, probing := false, probeEnd := false, probeAge := 0, soundReq := false, sounding := false, lm := none,
    replan := false, upcoming := none, ramanLast := none, ramanRound := none, gate := none, gateCut := false,
    forcedAt := c.forcedAt, pulse := none, trig := none }
  let s2 := s1.wrs [(F.SHOT_STAT.STATE xi, 1), (F.SHOT_STAT.OVERLEN xi, 0), (F.SHOT_STAT.SEEDED xi, 0), (F.SHOT_STAT.RUNRND xi, 0),
    (F.SHOT_TRPER.TR_ACT xi, s.trOf xi p), (F.SHOT_GSTAT.NCH_ACT xi, s.fibreCount xi), (F.SHOT_GSTAT.ERR xi, 0),
    (F.SHOT_STAGE.CODE xi, 0), (F.SHOT_STAGE.SRC xi, 0), (F.SLC_PSTAGE.CODE xi, 0), (F.CMT_STAT.STATE xi, cmRun),
    (F.CMT_STAT.OVERLEN xi, 0), (F.SHOT_PEAK.VLD xi, 0), (F.FRP_NF.VLD xi, 0), (F.FRP_STAT.ACTIVE xi, 1), (F.SRC_LEBASE.BASE xi, 0),
    (F.SRC_PLOSS.LOWCNT xi, 0), (F.SRC_PLOSS.TLOWCNT xi, 0), (F.SRC_PLOSS.LESUSP xi, 1), (F.SRC_SELVST.STATE xi, 0)]
  let s3 := s2.modNrg x (fun e => { e with
    pdBase := 0, suspend := 0, ramanBase := 0, ramanRounds := 0, ramanSuspend := 0, clean := 0,
    broken := false })
  let s4 := s3.modCmt x (fun m => { m with
    slots := [], rounds := [], nextCommit := 0, lastBad := none, replay := none, ran := 0, stopped := none, chans := [], chains := [],
    sets := ⟨{ m.sets.a with open_ := [] }, { m.sets.b with open_ := [] }⟩ })
  let s4 := initGoverned x (s4.modGround (fun g => { g with
    replayPages := g.replayPages.upd xi (ceilDiv (160 * s4.rd (F.SHOT_GSTAT.NCH_ACT xi)) 4096) }))
  let s5 := [0, 1].foldl (fun s j =>
    (if dsEn ((s.cmt x).sets.at j).cfg then setRestarted x j 0 1 s else s).showDelay xi j) s4
  let slot := if p.nT = 0 then 0 else s.trOf xi p / p.nT
  (zonesStarted x (dtsStart x t0 (s5.showProfile xi slot))).showBudgets

/-- The checks of a start of fibre `x` against what acquires now: it starts, or is refused with an event (R38). A fibre of
length 0 is not used. -/
def tryStart (x : Fibre) (s : State) : State :=
  let xi := x.idx
  if s.rd (F.SHOT_FLEN.LEN xi) = 0 then s.wr (F.SHOT_GSTAT.ERR xi) 0
  else
    let p := s.plan true xi
    let v := s.liveView.withAcq xi (some { nch := s.fibreCount xi, nT := p.nT, tr := s.trOf xi p })
    let prof := profileCode (s.profile true xi)
    let geo := s.geometryCodes xi
    let err := lowestCode (geo ++ (if geo.isEmpty then s.limitCodes xi v else []) ++ (if prof = 0 then [] else [12]))
    let code := lowestCode (s.planCodes xi p (s.trOf xi p))
    if err = 0 ∧ code = 0 then beginAcq x (firstBoundary s.now) s
    else
      let s1 := s.wrs [(F.SHOT_GSTAT.ERR xi, err), (F.SHOT_STAGE.CODE xi, code), (F.SHOT_STAGE.SRC xi, 0),
        (F.SLC_PSTAGE.CODE xi, prof)]
      let s2 := if err = 9 ∨ err = 10 then s1.showRefusal v else s1
      s2.event 0x0201 .warn noUnit (some x) 0 err code 0

/-- Acquisition is possible: an image is applied, the Ground is ready and no reset episode runs (R435, R454, R528, R601). -/
def State.mayAcquire (s : State) : Bool :=
  s.boot.image.isSome && s.rd F.GND_STAT.READY == 1 && s.boot.episode.isNone

/-- START of one fibre: left as it is when it acquires, held while its commit logic drains (R79, R494). (DEDUCED, assumption 14;
DEDUCED, assumption 16.) -/
def startFibre (x : Fibre) (s : State) : State :=
  if s.acquiring x ∨ s.mayAcquire = false then s
  else if s.cmState x ≠ cmIdle then s.modSch x (fun c => { c with startHeld := true })
  else tryStart x s

/-- Fibres that a mask names, A first. -/
def maskFibres (mask : Nat) : List Fibre := fibres.filter (fun x => mask / 2 ^ x.idx % 2 = 1)

def startMask (mask : Nat) (s : State) : State := foldS startFibre (maskFibres mask) s


/-! ## The next round (R35, R80, R81, R86) -/

/-- The nominal boundary that ends the round in progress, or t_B(0). -/
def State.nominal (s : State) (x : Fibre) : Nat := (s.sch x).startAt.getD ((s.sch x).tB + (s.sch x).tr)

/-- A sounding shot was launched in the round in progress. -/
def State.soundShot (s : State) (x : Fibre) : Bool :=
  (s.sch x).sounding && (s.cmt x).slots.any (fun sl => sl.kind == .sound && sl.round == (s.sch x).round)

/-- The staged plan is adopted at the end of the round in progress, or at t_B(0), a round boundary like any other (R35, R84). -/
def State.adopting (s : State) (x : Fibre) : Bool :=
  s.rd (F.SHOT_STAGE.PEND x.idx) == 1 && (s.sch x).accepted && decide ((s.sch x).goAt + 4000 ≤ s.nominal x)

/-- The round in progress may be followed by a held interval: a plan is adopted after it, or a sounding shot re-plans (R81, R86). -/
def State.heldNext (s : State) (x : Fibre) : Bool := (s.adopting x || s.soundShot x) && (s.sch x).startAt.isNone

/-- The plan of the next round, and its T_R under the plan. -/
def State.nextPlan (s : State) (x : Fibre) : PlanVals := s.plan (!s.adopting x) x.idx
def State.nextTr (s : State) (x : Fibre) : Nat := s.trFor x (s.nextPlan x)

/-- t_min′ of R86 for a plan. -/
def State.earliest (s : State) (x : Fibre) (p : PlanVals) (tr : Nat) : Nat :=
  max (adoptAfter (s.cmt x).slots p.freqs p.wc tr p.nT)
    (s.ramanAfter x.idx (s.lpts x) p tr ((s.sch x).round + 1) (s.sch x).ramanLast)

/-- The start of the next round; none while the sounding round's L_m is unknown (R81, R86). -/
def State.nextStart (s : State) (x : Fibre) : Option Nat :=
  let n := s.nominal x
  let adopt := if s.adopting x || s.soundShot x then s.earliest x (s.nextPlan x) (s.nextTr x) else 0
  if s.soundShot x then (s.sch x).heldTo.map (fun t => max t adopt) else some (max n adopt)

/-- What the next round will be (R80, R81): probing before sounding. -/
def Sched.nextMode (c : Sched) : Nat :=
  if (c.probing && !c.probeEnd) || (c.probeReq && !c.probing) then 1 else if c.soundReq then 2 else 0

/-- An intrusive test keeps the slots of a round that starts at `t` dark (R571). -/
def State.testDark (s : State) (t : Nat) : Bool :=
  match s.health.test with
  | some r => r.intrusive && decide (r.goAt + 4000 ≤ t)
  | none => false

/-! ## Slots (R77, R78, R80, R81, R229) -/

/-- SHOT_STAT.RUNRND and SEEDED (R78); SEEDED becoming 1 ends RESTORING (R133). -/
def setRunRnd (x : Fibre) (n : Nat) (s : State) : State :=
  let seeded : Nat := if 16 ≤ n then 1 else 0
  let s1 := s.wrs [(F.SHOT_STAT.RUNRND x.idx, min 255 n), (F.SHOT_STAT.SEEDED x.idx, seeded)]
  if seeded = 1 ∧ s.rd (F.SHOT_STAT.SEEDED x.idx) = 0 ∧ s.rd (F.SRC_SELVST.STATE x.idx) = 2 then s1.wr (F.SRC_SELVST.STATE x.idx) 0
  else s1

/-- A slot that is dark, with its erased samples to come (R229). -/
def darkSlot (x : Fibre) (r k : Nat) (s : State) : State :=
  let c := s.sch x
  let p := s.plan true x.idx
  let t := slotStart c.tB c.tr c.nT k
  let sl : Slot := {
    kind := .dark, round := r, tone := k, nT := c.nT, seq := 0, tL := t, ts := s.stampAt t, fMHz := p.freqs.getD k 0, w := p.w,
    wc := p.wc, tmin := if c.sounding then 2_000_000 else s.tMin x.idx (s.lpts x) p, gateUp := 0, gateDown := 0, cordOk := true,
    complete := true, flags := 0, causes := 0, spans := [], verdict := none, erased := true, spanSeen := true, pulse := none,
    peak := none, e := none, selv := 0 }
  let s1 := (s.modCmt x (fun m => { m with slots := m.slots ++ [sl] })).bump (F.CMT_ERASE.COUNT x.idx)
  let s2 := setRunRnd x 0 (s1.modSch x (fun c => { c with darkRound := true }))
  if c.probing || c.sounding then s2 else s2.wr (F.SHOT_STAT.STATE x.idx) 2

/-- The slot to evaluate next: its round and index, its round's start and T_R, whether its plan is still the shadow set, and
what the round is. -/
structure SlotRef where
  round : Nat
  slot : Nat
  tB : Nat
  tr : Nat
  live : Bool
  mode : Nat
deriving DecidableEq, Repr

def State.evalSlot (s : State) (x : Fibre) : Option SlotRef :=
  let c := s.sch x
  if c.startAt.isNone ∧ c.evalRound = c.round then
    some { round := c.round, slot := c.evalSlot, tB := c.tB, tr := c.tr, live := true,
           mode := if c.probing then 1 else if c.sounding then 2 else 0 }
  else if c.stopReq then none
  else (s.nextStart x).map (fun t =>
    let m := c.nextMode
    { round := c.evalRound, slot := 0, tB := t, tr := if m = 2 then 2_000_000 else s.nextTr x, live := !s.adopting x, mode := m })

/-- A Raman trigger instant that falls to a slot, under the plan of its round (R73). -/
def ramanInstant (q : SlotRef) (p : PlanVals) : Option Nat :=
  if p.mode ≠ 0 ∧ q.mode = 0 ∧ q.round % p.div = 0 ∧ q.slot = p.slot then some ((q.tB : Int) + ramanOffset p q.tr).toNat else none

/-- The earliest output edge of a slot (R77). -/
def State.firstEdge (s : State) (x : Fibre) (q : SlotRef) : Nat :=
  let p := s.plan q.live x.idx
  let r (f : Fld) : Nat := s.rd (planeFld q.live f)
  let tL := slotStart q.tB q.tr p.nT q.slot
  let gate := ((tL : Int) + sgn 8 (r (F.SHOT_GATE.GSKEW x.idx)) - r (F.SHOT_GATE.GLEAD x.idx)).toNat
  let edge := min tL gate
  match ramanInstant q p with
  | some t => min edge t
  | none => edge

/-- The gate window of a slot, under the plan of its round (R99). -/
def State.gateWindow (s : State) (x : Fibre) (q : SlotRef) : Nat × Nat :=
  let p := s.plan q.live x.idx
  let r (f : Fld) : Nat := s.rd (planeFld q.live f)
  let g := (slotStart q.tB q.tr p.nT q.slot : Int) + sgn 8 (r (F.SHOT_GATE.GSKEW x.idx))
  ((g - r (F.SHOT_GATE.GLEAD x.idx)).toNat, (g + p.w + r (F.SHOT_GATE.GLAG x.idx)).toNat)

/-- The slot's kind by its permit (R77, R80, R81, R571). -/
def State.slotKind (s : State) (x : Fibre) (q : SlotRef) : SlotKind :=
  let here := (s.sch x).startAt.isNone && q.round == (s.sch x).round
  let dark := if here then s.health.darkFor.at x.idx else s.testDark q.tB
  if dark = true ∨ s.permit x = false then .dark
  else match q.mode with
    | 0 => .das
    | 1 => if q.slot = 0 ∧ (s.sch x).probeAge = 0 then .probe else .dark
    | _ => if q.slot = 0 then .sound else .dark

/-- SLOT_PERMIT_EVAL (R77): 64 ns before the slot's earliest edge. -/
def slotEval (x : Fibre) (s : State) : State :=
  if s.acquiring x = false then s
  else match s.evalSlot x with
    | none => s
    | some q =>
      if s.now + 64 < s.firstEdge x q ∨ (s.sch x).armed.isSome = true then s
      else
        let p := s.plan q.live x.idx
        let kind := s.slotKind x q
        let gate := s.gateWindow x q
        let next := if q.slot + 1 < p.nT then (q.round, q.slot + 1) else (q.round + 1, 0)
        let trig := if kind ≠ .dark ∧ s.trigPermit x = true then (ramanInstant q p).map (fun t => (q.round, t, p.twidth)) else none
        let begun := (s.sch x).startAt.isNone && q.round == (s.sch x).round
        let s1 := s.modSch x (fun c => { c with
          evalRound := next.1, evalSlot := next.2, gate := if kind = .dark then c.gate else some gate,
          gateCut := c.gateCut && kind == .dark, armed := if kind = .dark ∧ begun = true then none else some (q.round, q.slot, kind),
          upcoming := if begun then c.upcoming else some q.mode, ramanRound := match trig with | some t => some t | none => c.ramanRound })
        if kind = .dark ∧ begun = true then darkSlot x q.round q.slot s1 else s1

def execSlotPermitEval (x : Fibre) (s : State) : Host.Outcome State Fault Refusal := done (slotEval x s)

/-- The synthesizer's pulse of a slot (R90–R92, R132). -/
def State.pulseOf (s : State) (x : Fibre) (k : Nat) (kind : SlotKind) (tL : Nat) : Pulse :=
  let xi := x.idx
  let p := s.plan true xi
  let r (f : Fld) : Nat := s.rd f.live
  { tL := tL, w := p.w, fMHz := p.freqs.getD k 0,
    amp := if kind = .probe then s.amp xi 0 * s.rd (F.SRC_SELV.PSCALE xi) / 256 else s.amp xi k,
    shape := p.shape, roll := r (F.SHOT_PULSE.ROLL xi), coded := p.coded, chips := p.chips,
    code := r (F.SHOT_CODE_LO.CODE_LO xi) + r (F.SHOT_CODE_HI.CODE_HI xi) * 2 ^ 32, ofsI := sgn 12 (r (F.SHOT_SYNOFS.OFS_I xi)),
    ofsQ := sgn 12 (r (F.SHOT_SYNOFS.OFS_Q xi)), qgain := sgn 8 (r (F.SHOT_SYNTRIM.QGAIN xi)),
    qphase := sgn 8 (r (F.SHOT_SYNTRIM.QPHASE xi)) }

/-- The shot of a slot, launched at `tL`, with the bad inputs that hold at its launch: OVERLEN, a Selvage condition of its round, and no
weight (R132, R195, R236). -/
def State.shotOf (s : State) (x : Fibre) (r k : Nat) (kind : SlotKind) (tL : Nat) : Slot :=
  let xi := x.idx
  let c := s.sch x
  let p := s.plan true xi
  let g := (tL : Int) + sgn 8 (s.rd (F.SHOT_GATE.GSKEW xi).live)
  let overs := if kind = .das ∧ s.rd (F.CMT_STAT.OVERLEN xi) = 1 then causeOverlen else 0
  let selv := if (match (s.cmt x).info r with | some i => i.selv | none => false) then causeSelv else 0
  let nowt := if s.noWeight xi then causeNoWt else 0
  { kind := kind, round := r, tone := k, nT := c.nT, seq := c.nextSeq, tL := tL, ts := s.stampAt tL, fMHz := p.freqs.getD k 0,
    w := p.w, wc := p.wc, tmin := if kind = .sound then 2_000_000 else s.tMin xi (s.lpts x) p,
    gateUp := (g - s.rd (F.SHOT_GATE.GLEAD xi).live).toNat, gateDown := (g + p.w + s.rd (F.SHOT_GATE.GLAG xi).live).toNat,
    cordOk := true, complete := false, flags := 0, causes := overs ||| selv ||| nowt, spans := [],
    verdict := none, erased := kind != .das, spanSeen := false, pulse := some (s.pulseOf x k kind tL), peak := none,
    e := none, selv := 0 }

/-- LAUNCH (R18, R83, R89, R90, R99): the slot that was evaluated as launched. A sounding slot that is dark leaves the request for a
sounding round standing. (DESIGN CHOICE, assumption 86.) -/
def launch (x : Fibre) (s : State) : State :=
  let xi := x.idx
  let c := s.sch x
  match c.armed with
  | none => s
  | some (r, k, kind) =>
    let tL := slotStart c.tB c.tr c.nT k
    if kind = .dark ∨ s.acquiring x = false ∨ c.startAt.isSome = true ∨ r ≠ c.round ∨ s.now < tL then s
    else
      let sl := s.shotOf x r k kind tL
      let s1 := s.modCmt x (fun m => { m with slots := m.slots ++ [sl] })
      let s2 := s1.modSch x (fun c => { c with
        armed := none, nextSeq := (c.nextSeq + 1) % 2 ^ 48, gate := some (sl.gateUp, sl.gateDown),
        pulse := sl.pulse, soundReq := c.soundReq && kind != .sound })
      let s3 := s2.wrs [(F.SHOT_SEQ_LO.SEQ_LO xi, c.nextSeq), (F.SHOT_SEQ_HI.SEQ_HI xi, c.nextSeq / 2 ^ 32)]
      let s4 := if kind = .das then s3.wr (F.SHOT_STAT.STATE xi) 1 else s3
      let s5 := s4.modSrc (fun v => { v with lastLaunch := v.lastLaunch.upd xi (some tL) })
      (pdLaunch x tL r s5).hkNote (5 + xi) ((tL + 3) / 4 * 4)

def execLaunch (x : Fibre) (s : State) : Host.Outcome State Fault Refusal := done (launch x s)

/-- RAMAN_TRIGGER (R73, R316): the permitted trigger is sent, and its trace begins. -/
def ramanTrigger (x : Fibre) (s : State) : State :=
  let xi := x.idx
  match (s.sch x).ramanRound with
  | none => s
  | some (r, t, w) =>
    if s.now < t then s
    else
      let ts := s.stampAt t
      let ok := s.trigPermit x
      let tr : RamanTrace := {
        round := r, tRL := t, ts := ts, width := w, len := s.rd (F.SHOT_FLEN.LEN xi) + s.rd (F.SHOT_GUARD.GUARD xi),
        bad := !ok, sums := none, judged := false }
      let s1 := s.modSch x (fun c => { c with ramanRound := none, ramanLast := some t, trig := some (t, if ok then t + w else t) })
      let s2 := s1.modDt x (fun d => { d with
        traces := d.traces ++ [tr],
        period := if d.run ∧ d.period.isNone then some (newPeriod (s.rd (F.DTS_STAT.NBACT xi)) t ts) else d.period })
      s2.hkNote (7 + xi) ((t + 3) / 4 * 4)

def execRamanTrigger (x : Fibre) (s : State) : Host.Outcome State Fault Refusal := done (ramanTrigger x s)

/-! ## Rounds (R35, R78, R89) -/

/-- An intrusive test that waits starts once every acquiring fibre is dark for it (R571); the one of unit 0x62 is a training. -/
def testStart (s : State) : State :=
  match s.health.test with
  | some r =>
    if r.intrusive = true ∧ r.startAt = none ∧ fibres.all (fun y => !s.acquiring y || s.health.darkFor.at y.idx) = true then
      let s1 := (s.modHealth (fun q => { q with test := some { r with startAt := some s.now } }))
      if r.unit = 0x62 then { s1.wr F.MEMC_STAT.TRAIN 1 with memc := { s1.memc with train := some .test, trainAt := s.now } } else s1
    else s
  | none => s

/-- Intrusive tests at a boundary of fibre `x` that starts a round at `t` (R571): the slots go dark, or light up again; the test
begins once every acquiring fibre is dark. (DEDUCED, assumption 63.) -/
def testBoundary (x : Fibre) (t : Nat) (s : State) : State :=
  testStart (s.modHealth (fun q => { q with darkFor := s.health.darkFor.upd x.idx (s.testDark t) }))

/-- Round `r` of fibre `x` starts at `t`: T_R, what it is, whether a tone-set change opens it, and the comparison that the slices'
shadow or parallel run made over the round before. The slots of the round before keep their late gain changes. -/
def startRound (x : Fibre) (r t tr mode : Nat) (toneset : Bool) (sq count : Nat) (s0 : State) : State :=
  let s := carryGains x s0
  let xi := x.idx
  let c := s.sch x
  let p := s.plan true xi
  let full := decide (0 < r) && !c.darkRound && !c.probing
  let ended := c.probing && mode != 1
  let age := if mode = 1 then (if c.probeAge = 0 then ceilDiv 1_000_000_000 tr else c.probeAge) - 1 else 0
  -- slot 0 may have been evaluated before the boundary
  let ahead := if c.evalRound = r ∨ c.evalRound = r + 1 then (c.evalRound, c.evalSlot) else (r, 0)
  let s1 := s.modSch x (fun c => { c with
    startAt := none, round := r, tB := t, tr := tr, nT := p.nT, darkRound := false, heldTo := none, upcoming := none,
    probing := mode == 1, probeReq := c.probeReq && mode != 1, probeEnd := c.probeEnd && mode == 1, probeAge := age,
    sounding := mode == 2, evalRound := ahead.1, evalSlot := ahead.2 })
  let run := s.rd (F.SHOT_STAT.RUNRND xi)
  let s3 := setRunRnd x (if ended then 0 else if full then run + 1 else run) s1
  let st := s.rd (F.SHOT_STAT.STATE xi)
  let s4 := s3.wrs [(F.SHOT_TRPER.TR_ACT xi, tr),
    (F.SHOT_STAT.STATE xi, if mode = 1 then 3 else if mode = 2 then 4 else if st < 3 then st else 1)]
  let s5 := if mode = 1 then s4.wr (F.SRC_SELVST.STATE xi) 1 else if mode = 2 then s4.wr (F.CMT_STAT.OVERLEN xi) 0 else s4
  let s6 := adoptSets x r t (slicesBoundary xi t r sq count s5)
  let info : RoundInfo := {
    round := r, tB := t, tr := tr, nT := p.nT, low := none, selv := false, pdSum := 0, pdCount := 0, opens := (r == 0), toneset := toneset,
    frp := s6.reg (R.FRP_CFG xi), ds := ⟨(s6.cmt x).sets.a.cfg, (s6.cmt x).sets.b.cfg⟩ }
  let s7 := commitBoundary x r (s6.modCmt x (fun m => { m with rounds := m.rounds ++ [info] }))
  let s8 := if toneset then [0, 1].foldl (fun s j => if dsEn ((s.cmt x).sets.at j).cfg then setRestarted x j r 3 s else s) s7 else s7
  let s9 := (srcRound x t (dtsBoundary x r s8)).hkNote (3 + xi) ((t + 3) / 4 * 4)
  let s10 := [0, 1].foldl (fun s j => s.showDelay xi j) (showSusp x (s9.showProfile xi (tr / max 1 p.nT)))
  let s11 := secondTest (testBoundary x t s10)
  match (s11.sch x).armed with
  | some (q, k, .dark) => if q = r then darkSlot x r k (s11.modSch x (fun c => { c with armed := none })) else s11
  | _ => s11

/-- A stop takes effect (R79, R85, R150, R170, R318). (DEDUCED, assumption 14.) -/
def stopNow (x : Fibre) (s : State) : State :=
  let xi := x.idx
  let c := s.sch x
  let begun := c.startAt.isNone
  let s1 := (carryGains x s).modSch x (fun c => { c with
    startAt := none, armed := none, accepted := false, stopReq := false, heldTo := none, upcoming := none, probeReq := false,
    probing := false, probeEnd := false, soundReq := false, sounding := false, replan := false,
    ramanRound := match c.ramanRound with | some q => if q.1 = c.round ∧ begun = true then some q else none | none => none })
  let s2 := (s1.liveToShadow xi).wrs [(F.SHOT_STAGE.CODE xi, if s.rd (F.SHOT_STAGE.PEND xi) = 1 then 10 else s.rd (F.SHOT_STAGE.CODE xi)),
    (F.SHOT_STAGE.PEND xi, 0)]
  let s3 := s2.wrs [(F.SHOT_STAT.STATE xi, 0), (F.SHOT_STAT.RUNRND xi, 0), (F.SHOT_STAT.SEEDED xi, 0)]
  let s4 := dtsStop x (calStopped xi (profileDrop xi s3))
  let s5 := testStart (s4.modHealth (fun q => { q with darkFor := s4.health.darkFor.upd xi false }))
  if begun then
    let s6 := s5.modCmt x (fun m => { m with stopped := some (c.round, c.tB + c.tr) })
    -- the boundary at which it stops commits what is due there
    drainStep x (if (s6.cmt x).replay.isSome then s6 else s6.wr (F.CMT_STAT.STATE xi) cmDrain)
  else zonesIdle x (s5.wrs [(F.CMT_STAT.STATE xi, cmIdle), (F.FRP_STAT.ACTIVE xi, 0)])

/-- STOP of one fibre (R79): at its next nominal boundary, or at once in a held interval. (DEDUCED, assumption 15.) -/
def stopFibre (x : Fibre) (s : State) : State :=
  if s.acquiring x = false then s.modSch x (fun c => { c with startHeld := false })
  else if s.heldNext x = true ∧ s.nominal x ≤ s.now then stopNow x s
  else s.modSch x (fun c => { c with stopReq := true })

def stopMask (mask : Nat) (s : State) : State := foldS stopFibre (maskFibres mask) s

/-- The staged amplitudes differ from the live ones. -/
def State.ampsChange (s : State) (x : Nat) : Bool :=
  s.reg (R.SHOT_AMP01 x) != s.reg (liveKey (R.SHOT_AMP01 x)) || s.reg (R.SHOT_AMP23 x) != s.reg (liveKey (R.SHOT_AMP23 x))

/-- The staged plan becomes the live one, with its consequences for the energy baselines (R85, R125, R127). -/
def adoptStaged (x : Fibre) (s : State) : State :=
  let xi := x.idx
  let old := s.plan true xi
  let new := s.plan false xi
  let amps := s.ampsChange xi
  let raman := decide (old.twidth ≠ new.twidth ∨ old.tskew ≠ new.tskew ∨ old.mode ≠ new.mode)
  let s1 := (s.shadowToLive xi).wr (F.SHOT_STAGE.PEND xi) 0
  (s1.modSch x (fun c => { c with accepted := false })).modNrg x (fun e => { e with
    suspend := if amps then 4 else e.suspend, ramanSuspend := if raman then 4 else e.ramanSuspend })

/-- NF is measured at an acquisition's start from the words `dark` that precede t_B(0), and held (R205). -/
def measureNf (x : Fibre) (t0 : Nat) (dark : List FrontWord) (s : State) : State :=
  let p := s.plan true x.idx
  let nf := s.noiseFloor x (p.freqs.take p.nT) (s.pulseOf x 0 .das t0) t0 dark
  (s.wr (F.FRP_NF.VLD x.idx) 1).wrI (F.FRP_NF.NFDB x.idx) (dbOf nf)

/-- ROUND_BOUNDARY (R35): the nominal boundary of fibre `x`. `refs` are the reference samples since those before; `dark` the words that
precede t_B(0) (R205); `sq` and `count` are the slices' comparison over the round just ended. A stopped fibre commits what has come due.
(DEDUCED, assumption 15.) -/
def roundBoundary (x : Fibre) (refs : List RefSample) (dark : List FrontWord) (sq count : Nat) (s0 : State) : State :=
  let c := s0.sch x
  if s0.acquiring x = false then drainStep x s0
  else if s0.now < s0.nominal x then s0
  else
    let s := s0.cordRun refs
    if c.stopReq then stopNow x s
    else match c.startAt with
      | some t =>
        let staged := s.adopting x
        let s1 := if staged then adoptStaged x s else s
        let s2 := startRound x 0 t (s.nextTr x) (c.upcoming.getD c.nextMode) false sq count (measureNf x t dark s1)
        if staged then (dtsRecheck x s2).showBudgets else s2
      | none =>
        if s.heldNext x = true then s
        else
          let m := c.upcoming.getD c.nextMode
          startRound x (c.round + 1) (s.nominal x) (if m = 2 then 2_000_000 else s.nextTr x) m false sq count s

def execRoundBoundary (x : Fibre) (refs : List RefSample) (dark : List FrontWord) (sq count : Nat) (s : State) :
    Host.Outcome State Fault Refusal := done (roundBoundary x refs dark sq count s)

/-! ## Plan changes (R84–R87) -/

/-- SHOT_STAGE.GO (R84, R85). (DEDUCED, assumption 10.) -/
def stageGo (x : Fibre) (s : State) : State :=
  if s.rd (F.SHOT_STAGE.PEND x.idx) = 1 then s.answer .busy
  else if s.acquiring x = false then (s.shadowToLive x.idx).answer .ok
  else ((s.wr (F.SHOT_STAGE.PEND x.idx) 1).modSch x (fun c => { c with goAt := s.now, accepted := false })).answer .ok

def execShotStageGo (x : Fibre) (s : State) : Host.Outcome State Fault Refusal := done (stageGo x s)

/-- The other fibre as R84 counts it: live, or under its pending plan where that gives more channel samples. -/
def State.otherAcq (s : State) (x : Fibre) : Option Acq :=
  let y := x.other
  match s.liveView.acq.at y.idx with
  | none => none
  | some a =>
    if s.rd (F.SHOT_STAGE.PEND y.idx) = 1 then
      let p := s.plan false y.idx
      let b : Acq := { a with nT := p.nT, tr := s.trFor y p }
      if a.nch * a.feff < b.nch * b.feff then some b else some a
    else some a

/-- Codes of R88 that the shared limits give a staged plan. -/
def State.stageLimits (s : State) (x : Nat) (v : View) : List Nat :=
  (if v.rateOver x then [6] else []) ++ (if v.samplesOver ∨ v.channelsOver then [7] else []) ++
  (if s.groundFits v then [] else [11]) ++ (if s.netErr v = 0 then [] else [12]) ++
  (if s.laneOver v (fun l => s.charges l x) then [13] else [])

/-- STAGE_CHECK_COMPLETE (R84). -/
def stageCheck (x : Fibre) (s : State) : State :=
  let xi := x.idx
  if s.rd (F.SHOT_STAGE.PEND xi) = 1 ∧ (s.sch x).accepted = false then
    let p := s.plan false xi
    let v := (s.liveView.withAcq xi (some { nch := s.rd (F.SHOT_GSTAT.NCH_ACT xi), nT := p.nT, tr := s.trFor x p })).withAcq
      x.other.idx (s.otherAcq x)
    let code := lowestCode (s.planCodes xi p (s.trFor x p) ++ s.stageLimits xi v)
    let s1 := s.wrs [(F.SHOT_STAGE.CODE xi, code), (F.SHOT_STAGE.SRC xi, 1)]
    if code = 0 then s1.modSch x (fun c => { c with accepted := true })
    else
      let s2 := s1.wr (F.SHOT_STAGE.PEND xi) 0
      (if code = 11 ∨ code = 12 then s2.showRefusal v else s2).event 0x0201 .warn noUnit (some x) 0 0 code 0
  else s

def execStageCheckComplete (x : Fibre) (s : State) : Host.Outcome State Fault Refusal := done (stageCheck x s)

/-- PLAN_ADOPT (R81, R86): the first round of a staged plan, or of the re-plan after a sounding round, starts at t′. (DEDUCED,
assumption 15.) -/
def planAdopt (x : Fibre) (sq count : Nat) (s : State) : State :=
  let c := s.sch x
  if s.acquiring x = false ∨ s.heldNext x = false then s
  else match s.nextStart x with
    | none => s
    | some t =>
      if s.now < t then s
      else if c.stopReq then stopNow x s
      else
        let staged := s.adopting x
        let sounded := s.soundShot x
        let old := s.plan true x.idx
        let new := s.nextPlan x
        let tr := s.nextTr x
        let m := c.upcoming.getD c.nextMode
        let change := sounded || toneSetChange old new c.tr tr
        let s1 := if staged then adoptStaged x s else s
        let s2 := if sounded then (s1.wr (F.SHOT_STAT.OVERLEN x.idx) 1).modSch x (fun c => { c with replan := false }) else s1
        let s3 := startRound x (c.round + 1) t (if m = 2 then 2_000_000 else tr) m change sq count s2
        let s4 := if c.tr ≠ tr ∨ old.mode ≠ new.mode ∨ old.slot ≠ new.slot ∨ old.div ≠ new.div ∨ old.twidth ≠ new.twidth ∨
            old.tskew ≠ new.tskew then dtsRecheck x s3 else s3
        s4.showBudgets

def execPlanAdopt (x : Fibre) (sq count : Nat) (s : State) : Host.Outcome State Fault Refusal := done (planAdopt x sq count s)

/-! ## The end of a drain (R79, R237, R266) -/

/-- DRAIN_COMPLETE: the last outstanding round has committed. The chains stay idle with their state kept (R265). A held start
follows. -/
def drainComplete (x : Fibre) (s : State) : State :=
  if s.acquiring x = true ∨ s.cmState x = cmIdle then s
  else match (s.cmt x).drainAt with
    | none => s
    | some t =>
      if s.now < t then s
      else
        let s1 := drainAll x s
        let s2 := (s1.modCmt x (fun m => { m with slots := [], rounds := [], stopped := none, chans := [] })).modGround (fun g =>
          { g with replayPages := g.replayPages.upd x.idx 0 })
        let s3 := sourceStopped x (zonesIdle x (s2.wrs [(F.CMT_STAT.STATE x.idx, cmIdle), (F.FRP_STAT.ACTIVE x.idx, 0)]))
        let s4 := (adoptSetsIdle x s3).showBudgets
        if (s.sch x).startHeld then tryStart x (s4.modSch x (fun c => { c with startHeld := false })) else s4

def execDrainComplete (x : Fibre) (s : State) : Host.Outcome State Fault Refusal := done (drainComplete x s)

end Sys2Proof.Machine
end

