-- ==== Sys2Proof/Machine/Dram.lean ====
section
/-!
DEFINITION. The Ground's arbiter (R420–R424) and the memory controller's accesses: rows, sectors and inline ECC (R444–R447), the
close-page access and the partial write (R448), the write buffers and their drains (R449, R450) and what the bank timings leave free
(R451, R466).
-/
namespace Sys2Proof.Machine

/-! ## Organisation (R407, R443, R444, R447) -/

def State.ranks (s : State) : Nat := s.rd F.MEMC_CFG.RANKS + 1

/-- DRAM capacity C in bytes: 4 GiB for 8 Gb and one rank (R443). -/
def State.dramBytes (s : State) : Nat := 2 ^ 32 * 2 ^ s.rd F.MEMC_CFG.DENS * s.ranks

/-- P of R407, and TOTAL: the page table takes 4 bytes a page, in the pages from TOTAL on. -/
def State.dramPages (s : State) : Nat := s.dramBytes / 8 * 7 / 4096
def State.totalPages (s : State) : Nat := s.dramPages - s.dramPages / 1024

/-- Data sectors: s runs from 0 to C × 7/8 / 512 − 1 (R447). -/
def State.sectors (s : State) : Nat := s.dramBytes / 8 * 7 / 512

/-- Where R447 places a data sector: port, rank, bank, row, and its slot in the row. -/
structure SectorPlace where
  port : Nat
  rank : Nat
  bank : Nat
  row : Nat
  slot : Nat
deriving DecidableEq, Repr

/-- The hash of R447 over a row's number. -/
def rowHash (row : Nat) : Nat := Nat.xor (row % 16) (row / 16 % 16)

def State.sectorPlace (s : State) (i : Nat) : SectorPlace :=
  let cb := i % 32
  let t := i / 32
  let u := t / 7
  let row := if s.ranks = 2 then u / 2 else u
  { port := cb % 2, rank := if s.ranks = 2 then u % 2 else 0, bank := Nat.xor (cb / 2) (rowHash row), row := row, slot := t % 7 }

/-- The data sector that stands in a slot of a row: R447 read backwards. -/
def State.sectorAt (s : State) (p : SectorPlace) : Nat :=
  let u := if s.ranks = 2 then 2 * p.row + p.rank else p.row
  32 * (7 * u + p.slot) + 2 * Nat.xor p.bank (rowHash p.row) + p.port

/-- A row's descriptor, burst 63: the poison bits of its sectors 0 to 6 (R444). -/
def State.rowDescriptor (s : State) (p : SectorPlace) : Nat :=
  sumN ((List.range 7).map (fun k => if s.memc.poison.contains (s.sectorAt { p with slot := k }) then 2 ^ k else 0))

/-- The DRAM serves accesses: trained, out of self-refresh and not changing set point. -/
def State.memUp (s : State) : Bool := !s.memc.selfRef && s.memc.change.isNone

def bankKey (port rank bank : Nat) : Nat := 32 * port + 16 * rank + bank
def SectorPlace.key (p : SectorPlace) : Nat := bankKey p.port p.rank p.bank

/-! ## Accesses (R445, R448) -/

/-- The bursts of sector `slot`: its 8 data bursts, then its check burst. -/
def sectorBursts (slot : Nat) : List Nat := (List.range 8).map (8 * slot + ·) ++ [56 + slot]

/-- Commands over bursts, the last of them with auto-precharge when it closes the row. -/
def burstCmds (write close : Bool) (l : List Nat) : List DramCmd :=
  l.zipIdx.map (fun p =>
    let pre := close && p.2 + 1 == l.length
    if write then .write p.1 pre else .read p.1 pre)

/-- An access to a whole sector: one ACTIVATE, its 8 data bursts and its check burst, auto-precharge on the last (R448). -/
def sectorAccess (write : Bool) (p : SectorPlace) : List DramCmd :=
  .activate p.rank p.bank p.row :: burstCmds write true (sectorBursts p.slot)

/-- A read whose single-bit error is corrected: the sector is written back within the same activation (R445). -/
def correctedRead (p : SectorPlace) : List DramCmd :=
  .activate p.rank p.bank p.row :: (burstCmds false false (sectorBursts p.slot) ++ burstCmds true true (sectorBursts p.slot))

/-- A write of less than a sector: the data burst and the check burst are read, merged and written back within one activation (R448). -/
def partialWrite (p : SectorPlace) (burst : Nat) : List DramCmd :=
  .activate p.rank p.bank p.row :: (burstCmds false false [burst, 56 + p.slot] ++ burstCmds true true [burst, 56 + p.slot])

/-- The row descriptor with a sector's poison bit changed. The spec gives burst 63 no check burst of its own. (DESIGN CHOICE,
assumption 105.) -/
def poisonWrite (p : SectorPlace) : List DramCmd := partialWrite p 63

/-- MEM clock period at a set point, in eighths of a nanosecond: the VCO's 6.4 GHz divided by 12, 16 or 32 (R453). -/
def memPeriod8 (fsp : Nat) : Nat := match fsp with | 0 => 15 | 1 => 20 | _ => 40

/-- A timing value of `n` ns rounded up to whole MEM clocks of the live set point, in ns rounded up (R466). -/
def State.memNs (s : State) (n : Nat) : Nat :=
  let p := memPeriod8 (s.rd F.MEMC_STAT.LIVE)
  ceilDiv (ceilDiv (8 * n) p * p) 8

/-- MT/s at a set point (R424). -/
def memRate (fsp : Nat) : Nat := match fsp with | 0 => 8533 | 1 => 6400 | _ => 3200

/-- Time that `n` bursts of 16 beats take on a port, in ns rounded up (R442). -/
def State.burstNs (s : State) (n : Nat) : Nat := ceilDiv (16_000 * n) (memRate (s.rd F.MEMC_STAT.LIVE))

/-- Time from an ACTIVATE until its bank may be activated again: the row opens, the bursts pass, the row closes (R466). (DESIGN
CHOICE, assumption 105.) -/
def State.rowNs (s : State) (write : Bool) (n : Nat) : Nat :=
  let f := s.rd F.MEMC_STAT.LIVE
  let open_ := s.memNs (s.rd (F.MEMC_TIMA.RCD f)) + s.burstNs n + if write then s.memNs (s.rd (F.MEMC_TIMB.WR f)) else 0
  max (s.memNs (s.rd (F.MEMC_TIMA.RAS f))) open_ + s.memNs (s.rd (F.MEMC_TIMA.RPPB f))

/-- The instant from which a bank may be activated. -/
def State.bankFree (s : State) (k : Nat) : Nat := mapGet (fun _ => (0 : Nat)) s.memc.bankAt k

def State.holdBank (s : State) (k t : Nat) : State :=
  s.modMemc (fun m => { m with bankAt := mapSet (fun _ => (0 : Nat)) m.bankAt k t })

/-- A port may activate a row now: t_RRD after its last ACTIVATE and t_FAW after the fourth last (R466). -/
def State.mayActivate (s : State) (p : Nat) : Bool :=
  let f := s.rd F.MEMC_STAT.LIVE
  let after (o : Option Nat) (n : Nat) : Bool := match o with
    | some t => decide (t + s.memNs n ≤ s.now)
    | none => true
  after ((s.memc.acts.at p)[0]?) (s.rd (F.MEMC_TIMA.RRD f)) && after ((s.memc.acts.at p)[3]?) (s.rd (F.MEMC_TIMB.FAW f))

/-- An access is issued on its port: its commands, and what it keeps busy. -/
def issueAccess (p : SectorPlace) (write : Bool) (cmds : List DramCmd) (s : State) : State :=
  let n := (cmds.filter (fun c => match c with | .activate _ _ _ => false | _ => true)).length
  (s.modMemc (fun m => { m with
    issued := m.issued.upd p.port cmds, acts := m.acts.upd p.port ((s.now :: m.acts.at p.port).take 4),
    portAt := m.portAt.upd p.port (max (m.portAt.at p.port) (s.now - 3) + s.burstNs n) })).holdBank p.key (s.now + s.rowNs write n)

/-! ## What a sector holds, and its loss (R445) -/

/-- What a data sector holds (R445): nothing that is held, a bobbin's record, records of the recall window, entries of the replay record
as channel, round modulo 4 and tone, or a sector of the page table. -/
inductive SectorUse where
  | free
  | bobbin (b idx : Nat)
  | window (offs : List Nat)
  | replay (x : Fibre) (entries : List (Nat × Nat × Nat))
  | table (k : Nat)
deriving DecidableEq, Repr

/-- Entries of a replay ring whose 10 bytes overlap bytes `a` to `a + 511` of it. -/
def ringEntries (nch a : Nat) : List (Nat × Nat × Nat) :=
  if nch = 0 then []
  else (List.range' (a / 10) ((a + 511) / 10 - a / 10 + 1)).map (fun e => (e % nch, e / nch / 4 % 4, e / nch % 4))

/-- The fibre whose replay record lies on a page. -/
def State.replayOn (s : State) (j : Nat) : Option Fibre :=
  fibres.find? (fun x => decide (s.replayBase x ≤ j ∧ j < s.replayBase x + s.ground.replayPages.at x.idx))

/-- The bobbin's record that overlaps a sector. -/
def State.sectorRecord (s : State) (i : Nat) : Option (Nat × Nat) :=
  s.ground.bobs.findSome? (fun p =>
    if s.rd (F.GND_BCFG.PLACE p.1) = 1 then none
    else (p.2.recs.find? (fun r => r.frames.zipIdx.any (fun q =>
      q.1 == i / 8 && decide (4096 * q.2 + 512 * (i % 8) < recBytes r.data)))).map (fun r => (p.1, r.idx)))

/-- What a sector holds: the page table tells (R407, R410, R445). -/
def State.sectorUse (s : State) (i : Nat) : SectorUse :=
  let j := i / 8
  if s.totalPages ≤ j then .table (i - 8 * s.totalPages)
  else match s.replayOn j with
    | some x => .replay x (ringEntries (s.rd (F.SHOT_GSTAT.NCH_ACT x.idx)) (512 * (i - 8 * s.replayBase x)))
    | none =>
      match s.ground.rcl.run.find? (fun p => p.2 = j) with
      | some (n, _) =>
        let a := 4096 * n + 512 * (i % 8)
        .window (((s.ground.rcl.ring ++ s.ground.rcl.exporting).filter (fun r =>
          decide (r.off < a + 512 ∧ a < r.off + r.bytes))).map (·.off))
      | none =>
        match s.sectorRecord i with
        | some (b, idx) => .bobbin b idx
        | none => .free

/-- A record on an uncorrectable sector leaves its bobbin, as under DROP_OLD (R413, R445). -/
def loseRecord (b idx : Nat) (s : State) : State :=
  let v := s.bob b
  if v.recs.any (fun r => r.idx == idx) then
    let first := match v.lastDrop with
      | none => true
      | some t => decide (1_000_000_000 ≤ s.now - t)
    let v' := { v with recs := v.recs.filter (fun r => r.idx != idx), lastDrop := some s.now }
    let s1 := (s.bump (F.GND_BDROP.COUNT b)).setBob b v'
    if first then s1.event 0x0E01 .warn noUnit none 0 b 0 0 else s1
  else s

/-- Records leave the recall window, and the export that runs (R445). -/
def loseWindow (p : RingRec → Bool) (s : State) : State :=
  s.setRecall (fun r => { r with ring := r.ring.filter (fun q => !p q), exporting := r.exporting.filter (fun q => !p q) })

/-- Entries on the sector are erased samples of their channel and shot. -/
def spoilEntries (x : Fibre) (l : List (Nat × Nat × Nat)) (s : State) : State :=
  foldS (fun (p : Nat × Nat × Nat) (s : State) =>
    s.modCmt x (fun m =>
      let ch := m.chan p.1
      m.setChan p.1 { ch with entries := ch.entries.map (fun e =>
        if e.round % 4 = p.2.1 ∧ e.tone = p.2.2 then { e with fault := true } else e) })) l s

/-- The 128 pages that a sector of the page table describes are withdrawn, with the records on them (R445). -/
def withdraw (k : Nat) (s : State) : State :=
  let span := tableSpan k
  let recs := s.ground.bobs.flatMap (fun p =>
    if s.rd (F.GND_BCFG.PLACE p.1) = 1 then []
    else (p.2.recs.filter (fun r => r.frames.any (fun j => span.contains j))).map (fun r => (p.1, r.idx)))
  let run := (s.ground.rcl.run.filter (fun p => span.contains p.2)).map (·.1)
  let s1 := foldS (fun (p : Nat × Nat) => loseRecord p.1 p.2) recs s
  let s2 := loseWindow (fun r => r.pagesOf.any (fun n => run.contains n)) s1
  (s2.modGround (fun g => { g with gone := g.gone ++ [k] })).wr F.GND_TOTAL.TOTAL (s2.rd F.GND_TOTAL.TOTAL - 128)

/-- What becomes of the content of an uncorrectable sector (R445). (DESIGN CHOICE, assumption 53.) -/
def loseSector (u : SectorUse) (s : State) : State :=
  match u with
  | .free => s
  | .bobbin b idx => loseRecord b idx s
  | .window offs => loseWindow (fun r => offs.contains r.off) s
  | .replay x l => spoilEntries x l s
  | .table k => if s.ground.gone.contains k then s else withdraw k s

/-- A read finds sector `i` uncorrectable: its poison bit is set, it is counted, recorded and reported, and what it held is lost (R445). -/
def sectorLost (i : Nat) (s : State) : State :=
  let p := s.sectorPlace i
  let use := s.sectorUse i
  let s1 := if s.memc.poison.contains i then s
    else s.modMemc (fun m => { m with
      poison := m.poison ++ [i], issued := m.issued.upd p.port (m.issued.at p.port ++ poisonWrite p) })
  let s2 := (s1.bump F.MEMC_UE.COUNT).wrs [(F.MEMC_EADDR.UE, 1), (F.MEMC_EADDR.SECTOR, i)]
  loseSector use (s2.event 0x0F01 .fault 0x62 none 0 i 0 0)

/-- A read access to sector `i`: `found` is 0 for a clean sector, 1 for a single-bit and 2 for a double-bit error (R445, R448). -/
def readSector (i found : Nat) (s : State) : State :=
  let p := s.sectorPlace i
  if found = 2 ∨ s.memc.poison.contains i = true then sectorLost i (issueAccess p false (sectorAccess false p) s)
  else if found = 1 then
    ((issueAccess p true (correctedRead p) s).bump F.MEMC_CE.COUNT).wrs [(F.MEMC_EADDR.UE, 0), (F.MEMC_EADDR.SECTOR, i)]
  else issueAccess p false (sectorAccess false p) s

/-- A write access to the whole of sector `i`, which clears its poison bit (R445, R448). -/
def writeSector (i : Nat) (s : State) : State :=
  let p := s.sectorPlace i
  if s.memc.poison.contains i then
    issueAccess p true (sectorAccess true p ++ poisonWrite p) (s.modMemc (fun m => { m with poison := m.poison.filter (· ≠ i) }))
  else issueAccess p true (sectorAccess true p) s

/-! ## Write buffers (R449, R450) -/

/-- Sectors of a bank in a list. -/
def State.inBank (s : State) (k : Nat) (l : List Nat) : Nat := (l.filter (fun i => (s.sectorPlace i).key = k)).length

/-- A sector may enter its port's write buffer: it is not full, and its bank holds fewer than 32 entries (R449). -/
def State.bufferTakes (s : State) (i : Nat) : Bool :=
  let p := s.sectorPlace i
  let l := s.memc.wbuf.at p.port
  decide (l.length < 256 ∧ s.inBank p.key l < 32)

/-- A sector's write enters the buffer of its port; the highest level shows (R449, R463). -/
def bufferWrite (i : Nat) (s : State) : State :=
  let p := (s.sectorPlace i).port
  let l := s.memc.wbuf.at p ++ [i]
  let s1 := s.modMemc (fun m => { m with wbuf := m.wbuf.upd p l })
  if s.rd F.MEMC_WBUF.PEAK < l.length then s1.wr F.MEMC_WBUF.PEAK l.length else s1

/-- A sector's read is queued at its port; one held in the write buffer is served from there (R449). -/
def queueRead (i : Nat) (s : State) : State :=
  let p := (s.sectorPlace i).port
  if (s.memc.wbuf.at p).contains i then s
  else s.modMemc (fun m => { m with rdq := m.rdq.upd p (m.rdq.at p ++ [i]) })

/-- A bank's turn in a rotation that begins after the bank written last (R450). -/
def rotKey (last k : Nat) : Nat := (k + 63 - last % 64) % 64

/-- The element of least key, the first of equals. -/
def leastBy (f : Nat → Nat) : List Nat → Option Nat
  | [] => none
  | a :: t => match leastBy f t with
    | some b => if f b < f a then some b else some a
    | none => some a

/-- The buffered write that is issued next: in bank rotation, banks that are not free skipped (R450). -/
def State.nextWrite (s : State) (p : Nat) : Option Nat :=
  leastBy (fun i => rotKey (s.memc.rot.at p) (s.sectorPlace i).key)
    ((s.memc.wbuf.at p).filter (fun i => decide (s.bankFree (s.sectorPlace i).key ≤ s.now)))

/-- The queued read that is issued next: the oldest whose bank is free. -/
def State.nextRead (s : State) (p : Nat) : Option Nat :=
  (s.memc.rdq.at p).find? (fun i => decide (s.bankFree (s.sectorPlace i).key ≤ s.now))

/-- Issue a port's buffered write; a drain ends at LOWM (R450). -/
def issueWrite (p i : Nat) (s : State) : State :=
  let l := (s.memc.wbuf.at p).erase i
  writeSector i (s.modMemc (fun m => { m with
    wbuf := m.wbuf.upd p l, rot := m.rot.upd p (s.sectorPlace i).key,
    drain := m.drain.upd p (m.drain.at p && decide (s.rd F.MEMC_WBUF.LOWM < l.length)) }))

/-- Issue a port's queued read. -/
def issueRead (p i : Nat) (s : State) : State :=
  readSector i 0 (s.modMemc (fun m => { m with rdq := m.rdq.upd p ((m.rdq.at p).erase i) }))

/-- A tracking event blocks the port now (R455). -/
def State.tracking (s : State) (p : Nat) : Bool :=
  match s.memc.trkEnd.at p with
  | some e => decide (s.now < e)
  | none => false

/-- A port issues its next access when its lines are free: reads before writes, but for a drain (R449, R450). Buffered writes go while no
read is pending. -/
def portIssue (p : Nat) (s : State) : State :=
  if s.memUp = false ∨ s.now < s.memc.portAt.at p ∨ s.tracking p = true ∨ s.mayActivate p = false then s
  else if s.memc.drain.at p then
    match s.nextWrite p, s.nextRead p with
    | some i, _ => issueWrite p i s
    | none, some i => issueRead p i s
    | none, none => s
  else if (s.memc.rdq.at p).isEmpty then
    match s.nextWrite p with
    | some i => issueWrite p i s
    | none => s
  else match s.nextRead p with
    | some i => issueRead p i s
    | none => s

/-! ## The page table (R407, R410, R420) -/

/-- The state of the pages of a bobbin's record (R410). -/
def PageState.use : PageState → PageUse
  | .spec => .spec | .queued => .queued | .retained => .retained

/-- DRAM pages that are not FREE, with their states (R410): a page of the ring on which any record is committed is RING, or HELD. -/
def State.pageUses (s : State) : List (Nat × PageUse) :=
  let bobs := s.ground.bobs.flatMap (fun p =>
    if s.rd (F.GND_BCFG.PLACE p.1) = 1 then [] else p.2.recs.flatMap (fun r => r.frames.map (fun j => (j, r.st.use))))
  let v := s.ground.rcl
  let done := ((v.ring.filter (fun r => !r.spec)) ++ v.exporting).flatMap RingRec.pagesOf
  let kept : PageUse := if s.rcState = rcHeld then .held else .ring
  bobs ++ v.run.map (fun p => (p.2, if done.contains p.1 then kept else .spec))

/-- The state of a page in a list; FREE where it is not listed. -/
def useOf (l : List (Nat × PageUse)) (j : Nat) : Option PageUse := (l.find? (fun p => p.1 = j)).map (·.2)

/-- The first page whose entry in DRAM does not show its state. -/
def State.staleEntry (s : State) : Option Nat :=
  let l := s.pageUses
  ((s.ground.table ++ l).map (·.1)).find? (fun j => useOf s.ground.table j ≠ useOf l j)

/-- The sector of the page table that describes a page. -/
def State.tableSector (s : State) (j : Nat) : Nat := 8 * s.totalPages + j / 128

/-- A page's entry is written as its state stands: a write of less than a sector (R448). -/
def tableWrite (j : Nat) (s : State) : State :=
  let i := s.tableSector j
  let p := s.sectorPlace i
  let left := s.ground.table.filter (fun q => q.1 ≠ j)
  let s1 := s.modGround (fun g => { g with table := match useOf s.pageUses j with
    | some u => left ++ [(j, u)]
    | none => left })
  issueAccess p true (partialWrite p (8 * p.slot + 4 * j % 512 / 64)) s1

/-- Upkeep asks for the entry that is out of date, one at a time, once the table stands. -/
def askUpkeep (s : State) : State :=
  if s.rd F.GND_STAT.READY = 0 ∨ s.ground.reqs.any (fun q => q.who == .upkeep) = true then s
  else match s.staleEntry with
    | some j => s.request .upkeep true [.dram (s.tableSector j / 8)]
    | none => s

/-! ## The arbiter (R420–R423) -/

/-- The level of a requester (R420). -/
def arbLevel : Requester → Nat
  | .replayRead _ => 0
  | .front | .replayWrite _ | .transmit _ => 1
  | .health | .index | .mgmt | .alarm => 2
  | .lanePort _ _ | .comp _ | .export_ | .supervisor => 3
  | .scrub | .staging | .upkeep => 4

/-- The level at which a requester's next quantum is served: a promoted one's is 2 (R421). -/
def State.levelOf (s : State) (w : Requester) : Nat := if s.ground.promoted.contains w then min 2 (arbLevel w) else arbLevel w

/-- A requester's turn within its level: the one served longest ago comes first, one never served before all (R420). -/
def turnKey (turn : List Requester) (w : Requester) : Nat :=
  match turn.findIdx? (· = w) with
  | some i => i + 1
  | none => 0

/-- A quantum of the DRAM, in place of the near store. -/
def Quantum.inDram (q : Quantum) : Bool := match q.at_ with | .dram _ => true | _ => false

/-- A DRAM write of a whole page waits until its 8 sectors enter their buffers (R449). -/
def State.mayServe (s : State) (q : Quantum) : Bool :=
  match q.at_ with
  | .dram j => !q.write || q.who == .upkeep || (List.range 8).all (fun k => s.bufferTakes (8 * j + k))
  | _ => true

/-- `a` goes before `b`: a lower level, or the same and an earlier turn. -/
def State.goesBefore (s : State) (a b : Quantum) : Bool :=
  let la := s.levelOf a.who
  let lb := s.levelOf b.who
  decide (la < lb ∨ (la = lb ∧ turnKey s.ground.turn a.who < turnKey s.ground.turn b.who))

/-- The first of the quanta that goes before the others, the older of equals. -/
def State.pick (s : State) : List Quantum → Option Quantum
  | [] => none
  | a :: t => match s.pick t with
    | some b => if s.goesBefore b a then some b else some a
    | none => some a

/-- The quantum that is served next in one of the two memories (R420). -/
def State.nextQuantum (s : State) (dram : Bool) : Option Quantum :=
  s.pick (s.ground.reqs.filter (fun q => q.inDram == dram && s.mayServe q))

/-- A quantum is served: its requester's turn is over, and a DRAM page goes to the controller. -/
def serve (q : Quantum) (s : State) : State :=
  let s1 := s.modGround (fun g => { g with
    reqs := g.reqs.erase q, turn := g.turn.filter (· ≠ q.who) ++ [q.who], promoted := g.promoted.filter (· ≠ q.who) })
  match q.at_ with
  | .dram j =>
    if q.who = .upkeep then
      match s.staleEntry with
      | some p => tableWrite p s1
      | none => s1
    else foldS (fun k s => if q.write then bufferWrite k s else queueRead k s) (List.range' (8 * j) 8) s1
  | _ => s1

/-- Time that a quantum takes of the payload bandwidth B_F (R424). -/
def quantumNs (fsp : Nat) : Nat := ceilDiv (4096 * 1_000_000_000) (bandwidth fsp)

/-- The near store serves one quantum a TIME clock. (DESIGN CHOICE, assumption 104.) -/
def serveNear (s : State) : State := match s.nextQuantum false with | some q => serve q s | none => s

/-- The DRAM serves one quantum once the last has had its time. (DESIGN CHOICE, assumption 104.) -/
def serveDram (s : State) : State :=
  if s.memUp = false ∨ s.now < s.ground.storeAt then s
  else match s.nextQuantum true with
    | some q => serve q (s.modGround (fun g => { g with
        storeAt := max g.storeAt (s.now - 3) + quantumNs (s.rd F.MEMC_STAT.LIVE) }))
    | none => s

/-- Replay reads of a fibre go on by `n` entries: each page that they reach is asked for (R422). -/
def readOn (x : Fibre) (n : Nat) (s : State) : State :=
  match (s.cmt x).replay with
  | none => s
  | some (r, _) =>
    let m := s.cmt x
    let pages := s.ground.replayPages.at x.idx
    let from_ := 10 * entryPlace (s.rd (F.SHOT_GSTAT.NCH_ACT x.idx)) r 0 0
    let s1 := s.modCmt x (fun m => { m with ran := m.ran + n })
    let a := (from_ + 10 * m.ran + 4095) / 4096
    let b := (from_ + 10 * (m.ran + n) + 4095) / 4096
    if pages = 0 then s1
    else s1.request (.replayRead x) false ((List.range' a (b - a)).map (fun k => .dram (s.replayBase x + k % pages)))

/-- Replay record reads for one TIME clock: 16 entries, at 40.0 GB/s. Two fibres alternate in blocks of 64 KiB (R422). -/
def replayReads (s : State) : State :=
  match (s.cmt .a).replay.isSome, (s.cmt .b).replay.isSome with
  | false, false => s
  | true, false => (readOn .a 16 s).modGround (fun g => { g with hold := (0, 65_536 - 160) })
  | false, true => (readOn .b 16 s).modGround (fun g => { g with hold := (1, 65_536 - 160) })
  | true, true =>
    let h := s.ground.hold
    let x : Fibre := if h.1 = 0 then .a else .b
    let left := if h.2 ≤ 160 then (1 - h.1, 65_536) else (h.1, h.2 - 160)
    (readOn x 16 s).modGround (fun g => { g with hold := left })

/-- One TIME clock of the Ground: replay reads and page-table upkeep ask, the arbiter serves, and each port issues. -/
def groundClock (s : State) : State := portIssue 1 (portIssue 0 (serveDram (serveNear (askUpkeep (replayReads s)))))

end Sys2Proof.Machine
end

