-- ==== Sys2Proof/Machine/Memc.lean ====
section
/-!
DEFINITION. The memory controller's events (R446, R450–R458): refresh, tracking, training, changes of set point, drains and the scrub;
and the Ground's aging and generic bobbin writes (R413, R418, R421).
-/
namespace Sys2Proof.Machine

/-- A tracking event that has ended shows its end (R461, R464). -/
def settleTrack (p : Nat) (s : State) : State :=
  let f := if p = 0 then F.MEMC_STAT.TRK0 else F.MEMC_STAT.TRK1
  match s.memc.trkEnd.at p with
  | some e => if s.rd f = 1 ∧ e ≤ s.now then s.wrs [(f, 0), (F.MEMC_TRK.LASTNS, s.memc.trkNs.at p)] else s
  | none => s

def State.memSettle (s : State) : State := settleTrack 1 (settleTrack 0 s)

/-! ## Refresh (R451) -/

/-- t_REFI,eff of a rank in ns. -/
def State.refi (s : State) (port rank : Nat) : Nat := 3906 / max 1 (s.memc.mult.getD (2 * port + rank) 1)

def State.postponed (s : State) (k : Nat) : Nat := mapGet (fun _ => (0 : Nat)) s.memc.post k

def State.setPostponed (s : State) (k n : Nat) : State :=
  let s1 := s.modMemc (fun m => { m with post := mapSet (fun _ => (0 : Nat)) m.post k n })
  if s1.rd F.MEMC_REFSTAT.MAXPOST < n then s1.wr F.MEMC_REFSTAT.MAXPOST n else s1

/-- A bank has queued accesses. -/
def State.bankQueued (s : State) (port k : Nat) : Bool :=
  decide (0 < s.inBank k (s.memc.rdq.at port ++ s.memc.wbuf.at port))

/-- A refresh is issued as soon as its bank is idle, which then waits t_RFCpb. -/
def issueRefresh (port rank bank : Nat) (s : State) : State :=
  let k := bankKey port rank bank
  let t := max s.now (s.bankFree k)
  (s.modMemc (fun m => { m with issued := m.issued.upd port [.refresh rank bank] })).holdBank k
    (t + s.memNs (s.rd (F.MEMC_TIMB.RFCPB (s.rd F.MEMC_STAT.LIVE))))

/-- A bank's refresh falls due: it is issued unless the bank has queued accesses; a postponed one raises the bank's count, an
issued one lowers it, and at 8 the next is forced. (DEDUCED, assumption 52.) -/
def refreshDue (port rank bank : Nat) (s : State) : State :=
  let k := bankKey port rank bank
  let due := mapGet (fun _ => (0 : Nat)) s.memc.nextRef k
  if s.memUp = true ∧ rank < s.ranks ∧ due ≤ s.now then
    let base := if due = 0 then s.now else due
    let s1 := s.modMemc (fun m => { m with nextRef := mapSet (fun _ => (0 : Nat)) m.nextRef k (base + s.refi port rank) })
    let n := s.postponed k
    let queued := s.bankQueued port k
    if queued = true ∧ n < 8 then s1.setPostponed k (n + 1)
    else issueRefresh port rank bank
      ((if queued then s1.bump F.MEMC_REFSTAT.FORCED else s1).setPostponed k (n - 1))
  else s

def execRefreshDue (port rank : Fin 2) (bank : Fin 16) (s : State) : Host.Outcome State Fault Refusal :=
  done (refreshDue port rank bank s.memSettle)

/-- The MR4 refresh-rate fields, every 4 ms, as the exponents of m for the ranks of M0 and M1 (R451). -/
def mr4Read (a0 a1 b0 b1 : Nat) (s : State) : State :=
  if s.memUp = true ∧ s.memc.mr4At ≤ s.now then
    let e := if s.ranks = 2 then [a0, a1, b0, b1] else [a0, 0, b0, 0]
    let top (l : List Nat) : Nat := l.foldl max 1
    let old := top s.memc.mult
    let ms := e.map (fun i => 2 ^ i)
    let s1 := (s.modMemc (fun m => { m with mult := ms, mr4At := s.now + 4_000_000 })).wr F.MEMC_STAT.THOT
      (if 1 < top ms then 1 else 0)
    if old < top ms then s1.event 0x0F02 .warn 0x62 none 0 (top ms) 0 0
    else if 1 < old ∧ top ms = 1 then s1.event 0x0F02 .clear 0x62 none 0 1 0 0
    else s1
  else s

def execMr4Read (a0 a1 b0 b1 : Fin 3) (s : State) : Host.Outcome State Fault Refusal :=
  done (mr4Read a0 a1 b0 b1 s.memSettle)

/-! ## Tracking (R455) -/

/-- 10 µs have not passed since the given end, or it lies ahead (R452). -/
def within10 (now : Nat) (e : Option Nat) : Bool :=
  match e with
  | some t => decide (now < t + 10_000)
  | none => false

/-- Port `p`'s tracking event: due by its interval or by a temperature change of DT, and 10 µs after the port's last event and
the last change of set point. (DEDUCED, assumption 52.) -/
def trackingEvent (p ns : Nat) (temp : Int) (s : State) : State :=
  let hot := (s.memc.trkEnd.at p).isSome && decide ((s.rd F.MEMC_TRK.DT : Int) ≤ (temp - s.memc.trkTemp.at p).natAbs)
  if s.memUp = true ∧ s.memc.train = none ∧ s.rd F.GND_STAT.READY = 1 ∧ within10 s.now (s.memc.trkEnd.at p) = false ∧
      within10 s.now s.memc.changeEnd = false ∧ (s.memc.trkDue.at p ≤ s.now ∨ hot = true) then
    let per := s.rd F.MEMC_TRK.PER * 1_000_000
    let d := min ns 1800
    (s.modMemc (fun m => { m with
      trkEnd := m.trkEnd.upd p (some (s.now + d)), trkNs := m.trkNs.upd p d, trkTemp := m.trkTemp.upd p temp,
      trkDue := m.trkDue.upd p (m.trkDue.at p + per) })).wr (if p = 0 then F.MEMC_STAT.TRK0 else F.MEMC_STAT.TRK1) 1
  else s

def execTrackingEvent (p : Fin 2) (ns : Nat) (temp : Int) (s : State) : Host.Outcome State Fault Refusal :=
  done (trackingEvent p ns temp s.memSettle)

/-! ## Changes of set point (R456, R457) -/

/-- A set point is valid (R454). -/
def State.fspValid (s : State) (t : Nat) : Bool := s.rd F.MEMC_STAT.VALID / 2 ^ t % 2 == 1

/-- R426 at a set point, while a fibre acquires: the condition that fails. -/
def State.fspErr (s : State) (t : Nat) : Nat :=
  if s.anyAcquiring then s.groundErr { s.liveView with fsp := t } else 0

/-- The change begins; R426 is checked again. -/
def beginChange (t : Nat) (s : State) : State :=
  let e := s.fspErr t
  if e ≠ 0 then s.wrs [(F.MEMC_FREQ.RESULT, 4), (F.GND_STAT.ERR, e)]
  else (s.modMemc (fun m => { m with change := some (t, s.now) })).wr F.MEMC_STAT.CHG 1

/-- A tracking event or change of set point ended on either port less than 10 µs ago, or runs. -/
def State.memRecent (s : State) : Bool :=
  within10 s.now s.memc.trkEnd.a || within10 s.now s.memc.trkEnd.b || within10 s.now s.memc.changeEnd

def latchRequest (t : Nat) (s : State) : State := (s.modMemc (fun m => { m with latched := some t })).wr F.MEMC_STAT.PEND 1
def dropRequest (s : State) : State := (s.modMemc (fun m => { m with latched := none })).wr F.MEMC_STAT.PEND 0

def beginTraining (k : Training) (s : State) : State :=
  (s.modMemc (fun m => { m with train := some k, trainAt := s.now })).wr F.MEMC_STAT.TRAIN 1

/-- MEMC_FREQ.GO: the table of R457, from the top. -/
def freqGo (t : Nat) (s : State) : State :=
  if s.memc.change.isSome then (s.wr F.MEMC_FREQ.RESULT 5).answer .busy
  else
    let s0 := dropRequest s
    let e := s.fspErr t
    if t = s.rd F.MEMC_STAT.LIVE then (s0.wr F.MEMC_FREQ.RESULT 2).answer .ok
    else if e ≠ 0 then (s0.wrs [(F.MEMC_FREQ.RESULT, 4), (F.GND_STAT.ERR, e)]).answer .refused
    else if s.fspValid t = false ∧ s.anyAcquiring = true then (s0.wr F.MEMC_FREQ.RESULT 3).answer .refused
    else if s.memc.train.isSome then (latchRequest t s0).answer .ok
    else if s.fspValid t = false then (beginTraining (.demand t) s0).answer .ok
    else if s.memRecent then (latchRequest t s0).answer .ok
    else (beginChange t s0).answer .ok

/-- A write of MEMC_FREQ with GO; TARGET 0b11 is refused. -/
def memcFreqGo (t : Nat) (s : State) : State :=
  if t = 3 then s.answer .refused else freqGo t ((s.memSettle).wr F.MEMC_FREQ.TARGET t)

def execMemcFreqGo (t : Fin 4) (s : State) : Host.Outcome State Fault Refusal := done (memcFreqGo t s)

/-- A running change completes: the target is live, and no refresh is owed (R451, R456). A latched one begins once no training
runs and 10 µs have passed since the last block of a port. (DEDUCED, assumption 52.) -/
def setPointChange (s : State) : State :=
  match s.memc.change with
  | some (t, _) =>
    (s.modMemc (fun m => { m with change := none, changeEnd := some s.now, post := [], nextRef := [] })).wrs
      [(F.MEMC_STAT.LIVE, t), (F.MEMC_STAT.CHG, 0), (F.MEMC_FREQ.RESULT, 1)]
  | none =>
    match s.memc.latched with
    | some t =>
      if s.memc.train.isSome ∨ s.memRecent = true then s
      else if s.fspValid t then beginChange t (dropRequest s)
      else beginTraining (.demand t) (dropRequest s)
    | none => s

def execSetPointChange (s : State) : Host.Outcome State Fault Refusal := done (setPointChange s.memSettle)

/-- On-demand training ends: the change to the target follows, or RESULT 0x6 (R457). -/
def demandComplete (ok : Bool) (s : State) : State :=
  match s.memc.train with
  | some (.demand t) =>
    let s1 := (s.modMemc (fun m => { m with train := none })).wr F.MEMC_STAT.TRAIN 0
    if ok then
      let s2 := s1.wr F.MEMC_STAT.VALID (s.rd F.MEMC_STAT.VALID ||| 2 ^ t)
      -- a request latched meanwhile takes the place of this one
      if s2.memc.latched.isSome then s2
      else if s2.memRecent then latchRequest t s2 else beginChange t s2
    else (s1.wr F.MEMC_FREQ.RESULT 6).event 0x0F02 .warn 0x62 none 0 t 0 0
  | _ => s

def execOnDemandTrainingComplete (ok : Bool) (s : State) : Host.Outcome State Fault Refusal :=
  done (demandComplete ok s.memSettle)

/-! ## Boot training and the page table (R435, R443, R454) -/

/-- The fastest valid set point. -/
def fastest (valid : Nat) : Option Nat := [0, 1, 2].find? (fun t => valid / 2 ^ t % 2 = 1)

/-- Boot training ends: which set points trained on both ports, and whether the devices agree with MEMC_CFG. (DESIGN CHOICE, assumption
37.) -/
def bootTrained (ok0 ok1 ok2 devices : Bool) (s : State) : State :=
  if s.memc.train = some .boot then
    let b (x : Bool) (n : Nat) : Nat := if x then n else 0
    let valid := if devices then b ok0 1 + b ok1 2 + b ok2 4 else 0
    let want := s.memc.latched.getD (s.rd F.MEMC_CFG.BOOTFSP)
    let s1 := ((s.modMemc (fun m => { m with train := none })).wrs [(F.MEMC_STAT.TRAIN, 0), (F.MEMC_STAT.VALID, valid)])
    let s2 := match s.memc.latched with
      | some t => (dropRequest s1).wr F.MEMC_FREQ.RESULT (if valid / 2 ^ t % 2 = 1 then 1 else 6)
      | none => s1
    let fail (e : Nat) (s : State) : State := (s.wr F.MEMC_STAT.ERR e).event 0x0F02 .warn 0x62 none 0 e 0 0
    match fastest valid with
    | none => fail (if devices then 3 else 1) s2
    | some f =>
      let s3 := if valid / 2 ^ want % 2 = 1 then s2.wr F.MEMC_STAT.LIVE want else fail 2 (s2.wr F.MEMC_STAT.LIVE f)
      let per := s.rd F.MEMC_TRK.PER * 1_000_000
      s3.modMemc (fun m => { m with
        table := some s.now, selfRef := false, mr4At := s.now, post := [], nextRef := [],
        trkDue := ⟨s.now + per, s.now + per / 2⟩ })
  else s

def execBootTrainingComplete (ok0 ok1 ok2 devices : Bool) (s : State) : Host.Outcome State Fault Refusal :=
  done (bootTrained ok0 ok1 ok2 devices s)

/-- The page table is built: the Ground reports READY and its pages (R407, R435). A held window that a WARM reach kept is
recovered, with its index record (R432). -/
def tableBuilt (s : State) : State :=
  match s.memc.table with
  | none => s
  | some _ =>
    let s1 := ((s.modMemc (fun m => { m with table := none, scrubAt := s.now })).modGround (fun g => { g with
      table := s.pageUses })).wrs [(F.GND_STAT.READY, 1), (F.GND_TOTAL.TOTAL, s.totalPages), (F.SYS_BOOT.PHASE, 5)]
    if s1.rcState = rcHeld then recallIndex 4 (s1.rd F.GND_RSTAT.CAUSE) s1 else s1

def execPageTableBuilt (s : State) : Host.Outcome State Fault Refusal := done (tableBuilt s)

/-! ## Drains and the scrub (R446, R450) -/

/-- A port's write buffer has reached HIWM: it drains ahead of reads to LOWM. -/
def writeDrain (p : Nat) (s : State) : State :=
  if s.rd F.MEMC_WBUF.HIWM ≤ (s.memc.wbuf.at p).length then s.modMemc (fun m => { m with drain := m.drain.upd p true }) else s

def execWriteDrain (p : Fin 2) (s : State) : Host.Outcome State Fault Refusal := done (writeDrain p s)

/-- Nanoseconds between the sectors that the scrub reads, so that it reads each once per SCRUBPER hours (R446). (DESIGN CHOICE, assumption
106.) -/
def State.scrubStep (s : State) : Nat := max 1 (s.rd F.MEMC_CFG.SCRUBPER) * hourNs / max 1 s.sectors

/-- The scrub reads its next sector when it is due, in the order of their indices: `found` is 0 for a clean sector, 1 for a single-bit and
2 for a double-bit error. (DESIGN CHOICE, assumption 106.) -/
def scrubRead (found : Nat) (s : State) : State :=
  let i := s.memc.scrub
  readSector i found (s.modMemc (fun m => { m with
    scrub := if i + 1 < s.sectors then i + 1 else 0, scrubAt := m.scrubAt + s.scrubStep }))

def execScrubRead (found : Fin 3) (s : State) : Host.Outcome State Fault Refusal :=
  onlyIf (s.memUp && s.rd F.GND_STAT.READY == 1 && decide (s.memc.scrubAt ≤ s.now)) s (scrubRead found s)

/-! ## Producers and aging (R413, R418, R421) -/

/-- A producer's record as it reaches the gate. -/
def producerRecord (kind x h1 h2 h3 ns : Nat) (payload : List Word) (s : State) : Record :=
  { kind := kind % 16, fibre := x % 2, pic := false, bad := false, ns := ns, h1 := w32 h1, h2 := w32 h2, h3 := w32 h3,
    payload := payload, label := s.tbNs, born := 0 }

/-- A committed record written to an enabled bobbin with a claim, by physical unit `unit`. -/
def execBobbinWrite (b : Fin 128) (claim : Fin 65536) (unit : Fin 256) (kind h1 h2 h3 ns : Nat) (x : Fibre)
    (payload : List Word) (s : State) : Host.Outcome State Fault Refusal :=
  onlyIf (s.rd (F.GND_BCFG.EN b) == 1) s
    (s.gateWrite b claim unit (producerRecord kind x.idx h1 h2 h3 ns payload s) .queued noTags none).1

/-- A requester's age counter passes AGELIM: its next quantum is served at level 2, and the counter restarts (R421). It runs while the
oldest request of a requester of level 3 or 4 is pending. -/
def ageLimit (w : Requester) (s : State) : State :=
  match s.ground.reqs.find? (fun q => q.who = w) with
  | none => s
  | some q =>
    let last := match s.ground.ages.find? (fun p => p.1 = w) with
      | some p => p.2
      | none => 0
    let lim := max 1 (s.rd F.GND_CFG.AGELIM)
    if 3 ≤ arbLevel w ∧ max q.since last + lim * 1000 < s.now then
      s.modGround (fun g => { g with
        ages := g.ages.filter (·.1 ≠ w) ++ [(w, s.now)], promoted := g.promoted.filter (· ≠ w) ++ [w] })
    else s

def execAgeLimit (w : Requester) (s : State) : Host.Outcome State Fault Refusal := done (ageLimit w s)

end Sys2Proof.Machine
end

