-- ==== Sys2Proof/Machine/Health.lean ====
section
/-!
DEFINITION. Redundancy and health: heartbeats and paths (R560, R561), lane faults and takeover (R562–R565), lane shadowing
(R566–R568), front residues (R569), test requests and intrusive tests (R570, R571), and a lane's own timer and parameters
(R233, R302).
-/
namespace Sys2Proof.Machine

/-! ## Shadow windows (R566) -/

/-- A logical lane that rotation does not skip: not empty, trapped or unserved. -/
def State.shadowable (s : State) (ll : Nat) : Bool :=
  let l := s.logical ll
  l.used && l.core.trap == 0 && (s.servedBy ll).isSome

/-- The next target: the aimed one, else the next in rotation. -/
def State.shadowTarget (s : State) : Option Nat :=
  match s.lanes.aim with
  | some ll => if (s.servedBy ll).isSome then some ll else none
  | none =>
    if s.rd F.HLTH_CFG.LSHEN = 1 then
      ((List.range 32).map (fun k => (s.lanes.nextShadow + k) % 32)).find? s.shadowable
    else none

/-- The spare begins a window on the next target: 4,096 LANE clocks of restore come first. (DEDUCED, assumption 59.) -/
def shadowBegin (s : State) : State :=
  let n := s.spareLane
  if 33 ≤ n ∨ s.laneMode n ≠ laneSpare ∨ s.lanes.swap = true then s
  else match s.shadowTarget with
    | none => s
    | some ll =>
      let l := s.logical ll
      (s.wrs [(F.LANE_STAT.MODE n, laneShadow), (F.LANE_STAT.LL n, ll), (F.HLTH_LANE.SHADOW, 1), (F.HLTH_LANE.SHLL, ll)]).modLanes
        (fun v => { v with winAt := s.now + 5120, winRound := match l.cks.getLast? with | some k => k.round | none => 0,
                           nextShadow := if v.aim.isSome then v.nextShadow else (ll + 1) % 32 })

/-- Rounds of the governing fibre, or ms, that the running window has compared (R566, R578). -/
def State.windowLength (s : State) : Nat :=
  let l := s.logical (s.rd F.HLTH_LANE.SHLL)
  let g := s.governs l
  if g < 2 then l.core.seen.at g - 1 - s.lanes.winRound else (s.now - s.lanes.winAt) / 1_000_000

/-- Flip a bit of an accumulator's register: the residue that it carries stays (R295). -/
def upsetAcc (i k : Nat) (c : LaneCore) : LaneCore :=
  { c with ac := setAt c.ac i (sgn 56 (unsgn 56 (c.acc i) ^^^ 2 ^ k)) }

/-- An error of lane n's hardware. A mismatch or a double-bit error is declared; a single-bit error is corrected and counted, saturating
(R278, R307); a flipped accumulator bit waits for the next check that reads it. -/
def laneError (n : Nat) (e : LaneError) (s : State) : State :=
  match e with
  | .resid => laneFault n lfResid s
  | .double => laneFault n lfEcc2 s
  | .single => s.bump (F.LANE_ECC.CORR n)
  | .upset i k =>
    if s.laneMode n = laneActive then s.modLogical (s.laneLL n) (fun l => { l with core := upsetAcc i k l.core }) else s

/-- LANE_FAULT (R278, R295); the other kinds come of heartbeats and windows. (DESIGN CHOICE, assumption 69.) -/
def execLaneFault (n : Fin 33) (e : LaneError) (s : State) : Host.Outcome State Fault Refusal := done (laneError n e s)

/-- The checkpoint C(r_o) that a spare restores (R235): the latest that precedes every input of the oldest round not yet
released, and every unreleased output. -/
def restorePoint (s : State) (l : Logical) : Option LaneCk :=
  let g := s.governs l
  let old (c : LaneCore) : Bool :=
    (decide (2 ≤ g) || decide (c.seen.at g ≤ (s.commit.at g).nextCommit)) &&
      (List.range 4).all (fun k => decide ((c.outs.getD k emptyOut).sent ≤ l.released.getD k 0))
  match l.cks.reverse.find? (fun k => old k.core) with
  | some k => some k
  | none => l.cks.head?

/-- The restore of the oldest takeover is complete after 200 ns and 4,096 LANE clocks: the spare serves the logical lane and
replays, with claims one above the bobbins' (R564). -/
def takeoverComplete (s : State) : State :=
  match s.lanes.takes.find? (fun t => decide (t.at_ + 5320 ≤ s.now)) with
  | none => s
  | some t =>
    let s1 := s.modLanes (fun v => { v with takes := v.takes.filter (fun u => u.lane ≠ t.lane) })
    let s2 := match restorePoint s1 (s1.logical t.ll) with
      | some ck => restoreCk t.ll ck s1
      | none => laneInit false t.ll s1
    (s2.modLogical t.ll (fun l => { l with bumps := [0, 1, 2, 3], lapsed := false, retired := s2.now })).wrs
      [(F.LANE_STAT.MODE t.lane, laneActive), (F.LANE_STAT.LL t.lane, t.ll)]

def execTakeoverRestoreComplete (s : State) : Host.Outcome State Fault Refusal := done (takeoverComplete s)

/-- The first logical lane that waits unserved. -/
def State.firstUnserved (s : State) : Option Nat := (List.range 32).find? (fun ll => (s.logical ll).unserved.isSome)

/-- Both heartbeats of a lane are expected anew (R560). -/
def freshBeats (n : Nat) (s : State) : State :=
  let put (m : List (Nat × Beat)) (p : Nat) : List (Nat × Beat) :=
    mapSet (fun _ => (⟨0, 0⟩ : Beat)) m (2 * n + p) ⟨s.now + 10_500, 0⟩
  s.modHealth (fun h => { h with beats := [0, 1].foldl put h.beats })

/-- A lane becomes available: it takes a logical lane without a lane, or becomes the spare (R563). -/
def laneFree (n : Nat) (s0 : State) : State :=
  let s := freshBeats n (s0.wrs [(F.LANE_STAT.FAULT n, 0), (F.LANE_STAT.MODE n, laneSpare), (F.LANE_STAT.LL n, 0)])
  match s.firstUnserved with
  | some ll =>
    let s1 := (s.modLogical ll (fun l => { l with unserved := none })).wr F.HLTH_UNSRV.LL (s.rd F.HLTH_UNSRV.LL &&& (0xFFFF_FFFF - 2 ^ ll))
    let s2 := s1.wr F.HLTH_LANE.SPARE n
    let spare := s.spareLane
    -- TAKE goes to this lane; a spare already there stays one
    let s3 := takeLane ll s2
    (if spare < 33 then s3.wr F.HLTH_LANE.SPARE spare else s3).event 0x0805 .clear noUnit none 0 ll 0 0
  | none => shadowBegin (s.wr F.HLTH_LANE.SPARE n)

/-- The built-in test of lane `n` ends (R563, R567). -/
def laneTestEnd (n : Nat) (pass : Bool) (s0 : State) : State :=
  let u := laneUnit n
  let inService := s0.laneMode n == laneTest
  let s := (s0.modLanes (fun v => { v with tests := v.tests.filter (·.1 ≠ n) })).testDone u pass
  let overs (s : State) : State := s.modLanes (fun v => { v with suspect := none })
  if pass = false ∨ s.unitHeld u = true then
    let s1 := s.wr (F.LANE_STAT.MODE n) laneFenced
    -- a unit held at its limit keeps its last fault code
    let s2 := if s.unitHeld u then s1
      else
        let s1 := s1.wr (F.LANE_STAT.FAULT n) lfTestFail
        if inService then s1.countFail u lfTestFail else s1.setUnitFault u lfTestFail
    match s.lanes.suspect with
    | some (_, a, b) => if a = n ∨ b = n then overs s2 else s2
    | none => s2
  else match s.lanes.suspect with
    | some (ll, a, b) =>
      if a = n then laneFree n (s.modLanes (fun v => { v with aim := some ll }))
      else if b = n then laneFree n ((overs s).event 0x0804 .warn u none 0 ll 0 0)
      else laneFree n s
    | none => laneFree n s

/-- UNSERVED_TIMEOUT (R564): after 100 ms the checkpoints of an unserved logical lane go, and its input pages with them. -/
def unservedTimeout (ll : Nat) (s : State) : State :=
  let l := s.logical ll
  match l.unserved with
  | some t =>
    if s.now < t + 100_000_000 ∨ l.lapsed = true then s
    else
      let s1 := s.setLogical ll { l with cks := [], lapsed := true }
      foldS (fun (p : Nat × Bobbin) s => s.sweepBob p.1) s1.ground.bobs s1
  | none => s

def execUnservedTimeout (ll : Fin 32) (s : State) : Host.Outcome State Fault Refusal := done (unservedTimeout ll s)

/-! ## The end of a window (R566–R568) -/

/-- A shadow mismatch (R567): the spare takes over, the target is fenced with SHADOW and tested. -/
def shadowMismatch (ll : Nat) (s : State) : State :=
  match s.servedBy ll with
  | none => shadowBegin (shadowStop s)
  | some n =>
    let spare := s.spareLane
    let s1 := laneFault n lfShadow (s.modLanes (fun v => { v with aim := none }))
    s1.modLanes (fun v => { v with suspect := match s.lanes.suspect with
      | some p => some p
      | none => some (ll, n, spare) })

/-- SHADOW_WINDOW_CLOSE (R566): a difference ends a window at once; a matching one closes after SHDWIN rounds or ms, with the
planned swap where it was aimed, and the next begins. With no window running the next begins. -/
def shadowClose (mismatch : Bool) (s : State) : State :=
  if s.rd F.HLTH_LANE.SHADOW = 0 then shadowBegin s
  else
    let ll := s.rd F.HLTH_LANE.SHLL
    if s.now < s.lanes.winAt ∨ s.lanes.swap = true then s
    else if mismatch then shadowMismatch ll s
    else if s.windowLength < max 16 (s.rd F.HLTH_CFG.SHDWIN) then s
    else if s.lanes.aim = some ll then
      let served := s.servedBy ll
      let s1 := s.modLanes (fun v => { v with aim := none, swap := true, suspect := match v.suspect, served with
        | some (l, a, _), some n => if l = ll then some (l, a, n) else v.suspect
        | q, _ => q })
      s1
    else shadowBegin (shadowStop s)

def execShadowWindowClose (mismatch : Bool) (s : State) : Host.Outcome State Fault Refusal := done (shadowClose mismatch s)

/-! ## A lane's timer and parameters (R233, R302) -/

/-- The name of a checkpoint that no round names: it is not stated, and it differs from those that the lane holds. (DEDUCED,
assumption 70.) -/
def Logical.ckName (l : Logical) (free : Nat) : Nat :=
  ((l.cks.map (·.round) ++ l.appliedK.map (·.1)).foldl max 0) + 1 + free

/-- LANE_CHECKPOINT_TIMER (R233): a logical lane with no governing fibre takes a checkpoint every 1 ms; a planned swap may take
place at it. -/
def laneTimer (ll : Nat) (s : State) : State :=
  let l := s.logical ll
  match s.servedBy ll with
  | some n =>
    if s.governs l = 2 ∧ l.core.trap = 0 ∧ l.ckAt + 1_000_000 ≤ s.now then
      let l1 := takeCk s.now (l.ckName (Config.freeNat s.fresh)) l
      plannedSwap ll n ((s.spend 1).setLogical ll { l1 with ckAt := s.now })
    else s
  | none => s

def execLaneCheckpointTimer (ll : Fin 32) (s : State) : Host.Outcome State Fault Refusal := done (laneTimer ll s)

/-- A write of LANE_Kj of window `n` (R302). -/
def laneKWrite (n j : Nat) (w : Word) (s : State) : State :=
  let mode := s.laneMode n
  if mode = laneActive ∨ mode = laneRestore then
    (s.modLogical (s.laneLL n) (fun l => { l with
      pendK := l.pendK.filter (·.1 ≠ j) ++ [(j, w)], pendAt := s.now })).answer .ok
  else s.answer .refused

/-- LANE_K_WRITE (R302). -/
def execLaneKWrite (n : Fin 33) (j : Fin 8) (w : Word) (s : State) : Host.Outcome State Fault Refusal := done (laneKWrite n j w s)

/-! ## Heartbeats (R560, R561) -/

def State.beat (s : State) (n p : Nat) : Beat := mapGet (fun _ => (⟨0, 0⟩ : Beat)) s.health.beats (2 * n + p)
def State.setBeat (s : State) (n p : Nat) (b : Beat) : State :=
  s.modHealth (fun h => { h with beats := mapSet (fun _ => (⟨0, 0⟩ : Beat)) h.beats (2 * n + p) b })

/-- The faulted bit of a path. -/
def pathFld (p : Nat) : Fld := if p = 0 then F.HLTH_STAT.FABF else F.HLTH_STAT.BRIDEF
def State.pathFaulted (s : State) (p : Nat) : Bool := s.rd (pathFld p) == 1

/-- A path fault (R561). -/
def pathFault (p : Nat) (s : State) : State :=
  let s1 := (s.wr (pathFld p) 1).modHealth (fun h => { h with pathClean := h.pathClean.upd p (some s.now) })
  s1.event 0x1301 .fault 0x70 none 0 p 0 0

/-- Lane n withholds the heartbeat of instant `t`: it runs a program, no instruction has retired for 10 µs, and it is not waiting
(R296). A checkpoint is part of the SHDR that triggers it. (DEDUCED, assumption 59.) -/
def State.withholds (s : State) (n t : Nat) : Bool :=
  let l := s.logical (s.laneLL n)
  s.laneMode n == laneActive && !l.prog.isEmpty && l.core.trap == 0 && !l.wait && decide (l.retired + 10_000 ≤ t)

/-- HEARTBEAT_DEADLINE (R560, R561): lane n's deadline on path p has come. `got` is how long ago its heartbeat arrived, none if it
was missed; `others` says that another lane misses it at the same deadline and that each of them meets the deadline on the other
path. (DEDUCED, assumption 59.) -/
def heartbeat (n p : Nat) (got : Option Nat) (others : Bool) (s : State) : State :=
  let b := s.beat n p
  let mode := s.laneMode n
  if mode = laneOff ∨ mode = laneFenced ∨ mode = laneTest ∨ s.now < b.deadline then s
  else
    let missed (s : State) : State :=
      let s1 := (s.bump (if p = 0 then F.HLTH_HBMISS.FABRIC else F.HLTH_HBMISS.BRIDE)).setBeat n p ⟨b.deadline + 10_000, b.missed + 1⟩
      if s.pathFaulted p then s1.modHealth (fun h => { h with pathClean := h.pathClean.upd p (some s.now) })
      else if others then pathFault p s1
      else if 3 ≤ b.missed + 1 then laneFault n lfHbeat s1
      else s1
    match got.filter (fun ago => !s.withholds n (s.now - ago)) with
    | some ago => if s.now - ago ≤ b.deadline then s.setBeat n p ⟨s.now - ago + 10_500, 0⟩ else missed s
    | none => missed s

def execHeartbeatDeadline (n : Fin 33) (p : Fin 2) (got : Option Nat) (others : Bool) (s : State) :
    Host.Outcome State Fault Refusal := done (heartbeat n p got others s)

/-- PATH_RESTORE (R561): after 1 s in which every deadline on it was met. Its lanes are judged on it afresh. -/
def pathRestore (p : Nat) (s : State) : State :=
  match s.health.pathClean.at p with
  | some t =>
    if s.pathFaulted p = true ∧ t + 1_000_000_000 ≤ s.now then
      let clear (m : List (Nat × Beat)) (n : Nat) : List (Nat × Beat) :=
        let b := mapGet (fun _ => (⟨0, 0⟩ : Beat)) m (2 * n + p)
        mapSet (fun _ => (⟨0, 0⟩ : Beat)) m (2 * n + p) { b with missed := 0 }
      let s1 := (s.wr (pathFld p) 0).modHealth (fun h => { h with
        pathClean := h.pathClean.upd p none, beats := (List.range 33).foldl clear h.beats })
      s1.event 0x1301 .clear 0x70 none 0 p 0 0
    else s
  | none => s

def execPathRestore (p : Fin 2) (s : State) : Host.Outcome State Fault Refusal := done (pathRestore p s)

/-! ## Front-pipeline residues (R569) -/

/-- FRONT_RESIDUE_MISMATCH (R569). In stages 3 to 7 the points in process, sampled from `t0` to `t1`, lie in a fault span of the
fibre; in stages 8 and 9 channel `c`'s latest sample is erased in the same way. (DEDUCED, assumption 60.) -/
def frontResidue (x : Fibre) (late : Bool) (c t0 t1 : Nat) (s : State) : State :=
  let s1 :=
    if late then
      match ((s.cmt x).chan c).entries.getLast? with
      | some e =>
        let s1 := s.modCmt x (fun m =>
          let ch := m.chan c
          m.setChan c { ch with entries := ch.entries.dropLast ++ [{ e with fault := true }] })
        s1.addCause x causeSpan (fun sl => sl.id == slotId e.round e.tone)
      | none => s
    else s.setSlices (fun v => { v with spans := v.spans ++ [(4 * x.idx, { t0 := t0, t1 := t1, ref := false })] })
  let recent := s.now :: (s.health.residues.at x.idx).filter (fun t => decide (s.now < t + 1_000_000_000))
  let put (l : List Nat) (s : State) : State := s.modHealth (fun h => { h with residues := h.residues.upd x.idx l })
  if 16 ≤ recent.length then (put [] s1).event 0x1304 .fault 0x60 (some x) 0 recent.length 0 0 else put recent s1

def execFrontResidueMismatch (x : Fibre) (late : Bool) (c t0 t1 : Nat) (s : State) : Host.Outcome State Fault Refusal :=
  done (frontResidue x late c t0 t1 s)

/-! ## Test requests (R570, R571) -/

/-- A code of R558 other than 0x70. -/
def unitTestable (u : Nat) : Bool :=
  decide (u ≤ 0x0E) || decide (0x20 ≤ u ∧ u ≤ 0x40) || decide (0x50 ≤ u ∧ u ≤ 0x51) || decide (0x60 ≤ u ∧ u ≤ 0x62)

/-- A refused request (R570). -/
def State.testRefuse (s : State) (st : Status) (res : Nat) : State := (s.wr F.HLTH_TSTAT.RESULT res).answer st

/-- An accepted request: the test runs or waits. (DEDUCED, assumption 63.) -/
def State.testAccept (s : State) (u : Nat) (intr : Bool) (startAt : Option Nat) : State :=
  ((s.testResult u 0 true).modHealth (fun h =>
    { h with test := some { unit := u, intrusive := intr, startAt := startAt, goAt := s.now } })).answer .ok

/-- A test of a slice. (DEDUCED, assumption 21.) -/
def testSlice (n : Nat) (s : State) : State :=
  let mode := s.rd (F.SLC_STAT.MODE n)
  let s1 := s.testAccept n false none
  if mode = slFenced ∨ mode = slTest then
    if s.slices.tests.any (·.1 == n) then s1
    else s1.sliceTest n
  else
    let cmd := s.reg R.SLC_CAL_CMD
    let res := s.reg R.SLC_CAL_STAT
    let t := (calStart n false false s1).setReg R.SLC_CAL_CMD cmd
    if t.status = .ok then t
    else if s.slices.cal.isSome then (s.setReg R.SLC_CAL_STAT res).testRefuse .busy 4
    else s.testRefuse .busy 2

/-- A test of a lane. -/
def testLane (n : Nat) (s : State) : State :=
  let u := laneUnit n
  let mode := s.laneMode n
  let running (s : State) : State :=
    if s.lanes.tests.any (·.1 == n) then s else s.modLanes (fun v => { v with tests := v.tests ++ [(n, s.now)] })
  if mode = laneFenced ∨ mode = laneTest then running (s.testAccept u false none)
  else if s.spareLane = n then
    running ((shadowStop (s.testAccept u false none)).wrs [(F.HLTH_LANE.SPARE, noSpare), (F.LANE_STAT.MODE n, laneTest)])
  else if 33 ≤ s.spareLane ∨ mode ≠ laneActive then s.testRefuse .busy 2
  else
    let s1 := (s.testAccept u false none).modLanes (fun v => { v with aim := some (s.laneLL n) })
    shadowBegin s1

/-- A test of a housekeeping converter. -/
def testHk (c : Nat) (s : State) : State :=
  let u := hkUnit c
  let s1 := s.testAccept u false none
  if c = s.hkActive then
    if s.idleSt = ihFenced ∨ s.idleSt = ihTest then s.testRefuse .busy 2
    else if s.idleSt = ihCal then s.testRefuse .busy 4
    else s1.modHk (fun h => { h with resetReq := true })
  else if s.idleSt = ihTest then s1
  else if s.idleSt = ihFenced then hkFence s1
  else if s.idleSt = ihCal then s.testRefuse .busy 4
  else (hkCalBegin s1).answer .ok

/-- A test of the front pipeline, the synthesizer or the memory controller. -/
def testShared (u : Nat) (intr : Bool) (s : State) : State :=
  if s.anyAcquiring = false then
    let s1 := s.testAccept u false (some s.now)
    if u = 0x62 then beginTraining .test s1 else s1
  else if intr then s.testAccept u true none
  else s.testRefuse .busy 3

/-- HLTH_TCMD.GO (R570). (DEDUCED, assumption 63.) -/
def testGo (u : Nat) (intr : Bool) (s0 : State) : State :=
  let s := s0.wrs [(F.HLTH_TCMD.UNIT, u), (F.HLTH_TCMD.INTRUSIVE, if intr then 1 else 0)]
  if unitTestable u = false then s0.testRefuse .refused 5
  else if s.health.test.isSome then s.testRefuse .busy 4
  else if u < 0x20 then testSlice u s
  else if u < 0x50 then testLane (u - 0x20) s
  else if u < 0x60 then testHk (u - 0x50) s
  else testShared u intr s

def execHlthTestGo (u : Fin 256) (intr : Bool) (s : State) : Host.Outcome State Fault Refusal := done (testGo u intr s)

/-- Duration of a test of R571. -/
def sharedTestNs (u : Nat) : Nat := if u = 0x60 then 30_000_000 else if u = 0x61 then 5_000_000 else 150_000_000

/-- A test of R571 ends once its time has run; one of the memory controller was a training of every set point. -/
def sharedTestEnd (intr : Bool) (pass : Bool) (s : State) : State :=
  match s.health.test with
  | some t =>
    match t.startAt with
    | some t0 =>
      if t.intrusive ≠ intr ∨ t.unit < 0x60 ∨ s.now < t0 + sharedTestNs t.unit then s
      else
        let s1 := if t.unit = 0x62 then
            let s1 := (s.modMemc (fun m => { m with train := none })).wr F.MEMC_STAT.TRAIN 0
            if pass then s1.wr F.MEMC_STAT.VALID 7 else s1
          else s
        s1.testDone t.unit pass
    | none => s
  | none => s

/-- INTRUSIVE_TEST_END (R571). The slots stay dark until each fibre's next round boundary. -/
def execIntrusiveTestEnd (pass : Bool) (s : State) : Host.Outcome State Fault Refusal := done (sharedTestEnd true pass s)

/-- UNIT_TEST_COMPLETE (R562, R563, R570): the test of unit `u` ends, with what it measured where it is a calibration. -/
def unitTestComplete (u : Nat) (pass : Bool) (m : SliceCoefs) (gain : Nat) (ofs : Int) (s : State) : State :=
  if u < 0x20 then
    if s.slices.tests.any (fun p => p.1 == u && decide (p.2 + 20_000_000 ≤ s.now)) then sliceTestEnd u m s else s
  else if u < 0x50 then
    if s.lanes.tests.any (fun p => p.1 + 0x20 == u && decide (p.2 + 20_000_000 ≤ s.now)) then laneTestEnd (u - 0x20) pass s else s
  else if u < 0x60 then
    match s.hk.testAt with
    | some t => if t + 2_000_000 ≤ s.now ∧ u = hkUnit (1 - s.hkActive) then hkTestEnd pass gain ofs s else s
    | none => s
  else if (match s.health.test with | some t => t.unit == u | none => false) then sharedTestEnd false pass s
  else s

def execUnitTestComplete (u : Fin 256) (pass : Bool) (m : SliceCoefs) (gain : Fin 65536) (ofs : Int) (s : State) :
    Host.Outcome State Fault Refusal := done (unitTestComplete u pass m gain ofs s)

end Sys2Proof.Machine
end

