-- ==== Sys2Proof/Machine/Inflate.lean ====
section
/-!
DEFINITION. The checks and arithmetic that RFC 1950 and RFC 1951 give the decompressor (R517): zlib header, stored, fixed and
dynamic blocks, Adler-32; and the CRC-32 of R621.
-/
namespace Sys2Proof.Machine

/-- The bits of bytes, least significant first. -/
def bitsOf (l : List Byte) : List Bool := l.flatMap (fun b => (List.range 8).map (fun i => b.toNat / 2 ^ i % 2 == 1))

/-- A number of `n` bits, least significant first, and what follows; none when the input ends. -/
def takeBits : Nat → List Bool → Option (Nat × List Bool)
  | 0, l => some (0, l)
  | _ + 1, [] => none
  | n + 1, b :: t => match takeBits n t with
    | some (v, r) => some ((if b then 1 else 0) + 2 * v, r)
    | none => none

/-- A canonical Huffman code: how many codes each length from 1 to 15 has, and the symbols in order of their codes. -/
structure Huff where
  counts : List Nat
  syms : List Nat
deriving DecidableEq, Repr

def huffOf (lens : List Nat) : Huff :=
  let at_ (l : Nat) : List Nat := (List.range lens.length).filter (fun i => lens.getD i 0 == l)
  { counts := (List.range 15).map (fun l => (at_ (l + 1)).length), syms := (List.range 15).flatMap (fun l => at_ (l + 1)) }

/-- Codes left unused by the lengths: negative when over-subscribed. -/
def huffLeft (h : Huff) : Int := h.counts.foldl (fun (l : Int) (c : Nat) => if l < 0 then l else 2 * l - (c : Int)) 1

/-- A code-length set is valid: complete, or no code, or a single code of one bit. -/
def huffOk (h : Huff) : Bool :=
  huffLeft h == 0 || h.syms.isEmpty || (h.syms.length == 1 && h.counts.headD 0 == 1)

/-- What reading a symbol comes to. -/
inductive SymRead where
  | got (sym : Nat) (rest : List Bool)
  | bad
  | short
deriving DecidableEq, Repr

def readSymGo (syms : List Nat) : List Nat → Nat → Nat → Nat → List Bool → SymRead
  | [], _, _, _, _ => .bad
  | _ :: _, _, _, _, [] => .short
  | c :: cs, code, first, index, b :: t =>
    let code := code + (if b then 1 else 0)
    if code < first + c then
      match syms[index + (code - first)]? with
      | some v => .got v t
      | none => .bad
    else readSymGo syms cs (2 * code) (2 * (first + c)) (index + c) t

def readSym (h : Huff) (bits : List Bool) : SymRead := readSymGo h.syms h.counts 0 0 0 bits

def lenBase : List Nat :=
  [3, 4, 5, 6, 7, 8, 9, 10, 11, 13, 15, 17, 19, 23, 27, 31, 35, 43, 51, 59, 67, 83, 99, 115, 131, 163, 195, 227, 258]
def lenExtra : List Nat :=
  [0, 0, 0, 0, 0, 0, 0, 0, 1, 1, 1, 1, 2, 2, 2, 2, 3, 3, 3, 3, 4, 4, 4, 4, 5, 5, 5, 5, 0]
def distBase : List Nat :=
  [1, 2, 3, 4, 5, 7, 9, 13, 17, 25, 33, 49, 65, 97, 129, 193, 257, 385, 513, 769, 1025, 1537, 2049, 3073, 4097, 6145, 8193,
   12289, 16385, 24577]
def distExtra : List Nat :=
  [0, 0, 0, 0, 1, 1, 2, 2, 3, 3, 4, 4, 5, 5, 6, 6, 7, 7, 8, 8, 9, 9, 10, 10, 11, 11, 12, 12, 13, 13]

/-- The result of a piece of decompression: what follows and the output, newest byte first, or the code of R517 with the output
offset at which the failure was found. -/
inductive Inflated where
  | ok (rest : List Bool) (out : List Byte)
  | fail (code ofs : Nat)
deriving DecidableEq, Repr

/-- Copy `n` bytes from distance `d`. -/
def copyBack (d : Nat) : Nat → List Byte → List Byte
  | 0, out => out
  | n + 1, out => copyBack d n (out.getD (d - 1) 0 :: out)

/-- The symbols of a compressed block, up to its end code; output beyond `limit` bytes fails. -/
def inflateSyms (limit : Nat) (lit dist : Huff) : Nat → List Bool → List Byte → Inflated
  | 0, _, out => .fail 4 out.length
  | n + 1, bits, out =>
    match readSym lit bits with
    | .bad => .fail 3 out.length
    | .short => .fail 4 out.length
    | .got s r =>
      if s < 256 then
        if limit ≤ out.length then .fail 4 out.length else inflateSyms limit lit dist n r (BitVec.ofNat 8 s :: out)
      else if s = 256 then .ok r out
      else if 285 < s then .fail 3 out.length
      else
        match takeBits (lenExtra.getD (s - 257) 0) r with
        | none => .fail 4 out.length
        | some (e, r1) =>
          let len := lenBase.getD (s - 257) 0 + e
          match readSym dist r1 with
          | .bad => .fail 3 out.length
          | .short => .fail 4 out.length
          | .got ds r2 =>
            if 29 < ds then .fail 3 out.length
            else match takeBits (distExtra.getD ds 0) r2 with
              | none => .fail 4 out.length
              | some (de, r3) =>
                let d := distBase.getD ds 0 + de
                if out.length < d then .fail 3 out.length
                else if limit < out.length + len then .fail 4 out.length
                else inflateSyms limit lit dist n r3 (copyBack d len out)

def fixedLit : Huff :=
  huffOf (List.replicate 144 8 ++ List.replicate 112 9 ++ List.replicate 24 7 ++ List.replicate 8 8)
def fixedDist : Huff := huffOf (List.replicate 30 5 ++ [5, 5])

def clOrder : List Nat := [16, 17, 18, 0, 8, 7, 9, 6, 10, 5, 11, 4, 12, 3, 13, 2, 14, 1, 15]

/-- `n` code lengths of the code-length code, 3 bits each. -/
def readCl : Nat → List Bool → Option (List Nat × List Bool)
  | 0, l => some ([], l)
  | n + 1, l => match takeBits 3 l with
    | none => none
    | some (v, r) => match readCl n r with
      | some (t, r') => some (v :: t, r')
      | none => none

/-- Literal and distance code lengths, `want` in all; newest first. -/
def readLens (h : Huff) (want : Nat) : Nat → List Bool → List Nat → Option (List Bool × List Nat) × Nat
  | 0, _, _ => (none, 3)
  | n + 1, bits, acc =>
    if acc.length = want then (some (bits, acc.reverse), 0)
    else if want < acc.length then (none, 3)
    else match readSym h bits with
      | .bad => (none, 3)
      | .short => (none, 4)
      | .got s r =>
        if s < 16 then readLens h want n r (s :: acc)
        else
          let (k, base) := if s = 16 then (2, 3) else if s = 17 then (3, 3) else (7, 11)
          match takeBits k r with
          | none => (none, 4)
          | some (e, r1) =>
            if s = 16 ∧ acc.isEmpty then (none, 3)
            else readLens h want n r1 (List.replicate (base + e) (if s = 16 then acc.headD 0 else 0) ++ acc)

/-- The header of a dynamic block: its two codes, or the failure code. -/
def dynamicCodes (bits : List Bool) : Option (Huff × Huff × List Bool) × Nat :=
  match takeBits 14 bits with
  | none => (none, 4)
  | some (v, r) =>
    let hlit := v % 32 + 257
    let hdist := v / 32 % 32 + 1
    let hclen := v / 1024 + 4
    if 286 < hlit ∨ 30 < hdist then (none, 3)
    else match readCl hclen r with
      | none => (none, 4)
      | some (cl, r1) =>
        let lens := (List.range 19).map (fun s => match (List.range hclen).find? (fun i => clOrder.getD i 0 == s) with
          | some i => cl.getD i 0
          | none => 0)
        let h := huffOf lens
        if huffLeft h ≠ 0 then (none, 3)
        else match readLens h (hlit + hdist) (hlit + hdist + 1) r1 [] with
          | (none, c) => (none, c)
          | (some (r2, l), _) =>
            let lit := huffOf (l.take hlit)
            let dist := huffOf (l.drop hlit)
            if l.getD 256 0 = 0 ∨ huffOk lit = false ∨ huffOk dist = false then (none, 3) else (some (lit, dist, r2), 0)

/-- A stored block's bytes. -/
def storedBytes : Nat → List Bool → List Byte → Option (List Bool × List Byte)
  | 0, bits, out => some (bits, out)
  | n + 1, bits, out => match takeBits 8 bits with
    | some (v, r) => storedBytes n r (BitVec.ofNat 8 v :: out)
    | none => none

/-- Blocks up to the final one. -/
def inflateBlocks (limit : Nat) : Nat → List Bool → List Byte → Inflated
  | 0, _, out => .fail 4 out.length
  | n + 1, bits, out =>
    match takeBits 3 bits with
    | none => .fail 4 out.length
    | some (v, r) =>
      let res : Inflated :=
        match v / 2 with
        | 0 =>
          let r1 := r.drop (r.length % 8)
          match takeBits 32 r1 with
          | none => .fail 4 out.length
          | some (h, r2) =>
            if h % 65536 + h / 65536 ≠ 65535 then .fail 3 out.length
            else if limit < out.length + h % 65536 then .fail 4 limit
            else match storedBytes (h % 65536) r2 out with
              | some (r3, o) => .ok r3 o
              | none => .fail 4 out.length
        | 1 => inflateSyms limit fixedLit fixedDist (r.length + 1) r out
        | 2 => match dynamicCodes r with
          | (none, c) => .fail c out.length
          | (some (lit, dist, r1), _) => inflateSyms limit lit dist (r1.length + 1) r1 out
        | _ => .fail 3 out.length
      match res with
      | .fail c o => .fail c o
      | .ok r' o => if v % 2 = 1 then .ok r' o else inflateBlocks limit n r' o

/-- Adler-32 of RFC 1950. -/
def adler32 (l : List Byte) : Nat :=
  let (a, b) := l.foldl (fun (p : Nat × Nat) x => let a := (p.1 + x.toNat) % 65521; (a, (p.2 + a) % 65521)) (1, 0)
  b * 65536 + a

/-- Decompress one object of declared length `ulen`: its bytes, or the failure code with its output offset (R517). -/
def decompress (ulen : Nat) (data : List Byte) : Except (Nat × Nat) (List Byte) :=
  match data with
  | cmf :: flg :: body =>
    let c := cmf.toNat
    let f := flg.toNat
    if c % 16 ≠ 8 ∨ 7 < c / 16 ∨ f / 32 % 2 = 1 ∨ (256 * c + f) % 31 ≠ 0 then .error (2, 0)
    else
      let bits := bitsOf body
      match inflateBlocks ulen (bits.length + 1) bits [] with
      | .fail code o => .error (code, o)
      | .ok r out =>
        if out.length ≠ ulen then .error (4, out.length)
        else match takeBits 32 (r.drop (r.length % 8)) with
          | none => .error (4, out.length)
          | some (v, _) =>
            let sum := v % 256 * 2 ^ 24 + v / 256 % 256 * 65536 + v / 65536 % 256 * 256 + v / 2 ^ 24
            let bytes := out.reverse
            if sum = adler32 bytes then .ok bytes else .error (5, out.length)
  | _ => .error (4, 0)

/-! ## CRC-32 (R621) -/

/-- One bit of the reflected IEEE 802.3 polynomial. -/
def crcBits : Nat → Nat → Nat
  | 0, c => c
  | n + 1, c => crcBits n (if c % 2 = 1 then Nat.xor (c / 2) 0xEDB8_8320 else c / 2)

def crc32 (l : List Byte) : Nat :=
  Nat.xor (l.foldl (fun c b => crcBits 8 (Nat.xor c b.toNat)) 0xFFFF_FFFF) 0xFFFF_FFFF

end Sys2Proof.Machine
end

