-- ==== Sys2Proof/Machine/Deflate.lean ====
section
/-!
DEFINITION. The compressors' zlib streams (R508, R509): symbols of a match search, blocks, the block types and the policy between them.
-/
namespace Sys2Proof.Machine

/-- A symbol of the compressed data: a literal, or a match of a length at a distance. -/
inductive LzSym where
  | lit (b : Byte)
  | copy (len dist : Nat)
deriving DecidableEq, Repr

/-- Input bytes of a symbol. -/
def LzSym.span : LzSym → Nat
  | .lit _ => 1
  | .copy len _ => len

/-- A proposed match is one: length and distance within R508's limits, and the bytes agree. `out` is what precedes, newest first. -/
def goodMatch (out rest : List Byte) (len dist : Nat) : Bool :=
  decide (3 ≤ len ∧ len ≤ 258 ∧ 1 ≤ dist ∧ dist ≤ 32768 ∧ dist ≤ out.length ∧ len ≤ rest.length) &&
    ((copyBack dist len out).take len).reverse == rest.take len

/-- The symbols of an input: the search's matches where they are such, else literals. (DESIGN CHOICE, assumption 109.) -/
def lzSymbols (policy : Nat) (data : List Byte) : Nat → List Byte → List Byte → List LzSym
  | 0, _, _ => []
  | _ + 1, _, [] => []
  | n + 1, out, b :: t =>
    let m := Config.lzMatch policy data out.length
    if goodMatch out (b :: t) m.1 m.2 then
      .copy m.1 m.2 :: lzSymbols policy data n (copyBack m.2 m.1 out) ((b :: t).drop m.1)
    else .lit b :: lzSymbols policy data n (b :: out) t

/-- The symbols of a block: at most `syms` of them and `bytes` input bytes; and what follows. -/
def takeBlock : Nat → Nat → List LzSym → List LzSym × List LzSym
  | 0, _, l => ([], l)
  | _ + 1, _, [] => ([], [])
  | n + 1, bytes, a :: t =>
    if bytes < a.span then ([], a :: t)
    else
      let (b, r) := takeBlock n (bytes - a.span) t
      (a :: b, r)

/-- The blocks of a stream (R509): 16,384 symbols, or 65,535 input bytes, or the stream's end. -/
def deflateBlocks : Nat → List LzSym → List (List LzSym)
  | 0, _ => []
  | n + 1, l =>
    let (b, r) := takeBlock 16384 65535 l
    if r.isEmpty then [b] else b :: deflateBlocks n r

/-! ## Codes of RFC 1951 -/

/-- `n` bits, the most significant first: a Huffman code; and the least significant first: every other value. -/
def msbBits (n v : Nat) : List Bool := (List.range n).map (fun i => v / 2 ^ (n - 1 - i) % 2 == 1)
def lsbBits (n v : Nat) : List Bool := (List.range n).map (fun i => v / 2 ^ i % 2 == 1)

/-- Bits of a literal/length symbol under the fixed code. -/
def fixedBits (s : Nat) : List Bool :=
  if s < 144 then msbBits 8 (0x30 + s)
  else if s < 256 then msbBits 9 (0x190 + (s - 144))
  else if s < 280 then msbBits 7 (s - 256)
  else msbBits 8 (0xC0 + (s - 280))

/-- The last place of a rising table whose base does not exceed `v`. -/
def placeIn (base : List Nat) (v : Nat) : Nat := ((List.range base.length).filter (fun k => decide (base.getD k 0 ≤ v))).length - 1

/-- A symbol in the fixed code. -/
def fixedSym : LzSym → List Bool
  | .lit b => fixedBits b.toNat
  | .copy len dist =>
    let k := placeIn lenBase len
    let d := placeIn distBase dist
    fixedBits (257 + k) ++ lsbBits (lenExtra.getD k 0) (len - lenBase.getD k 0) ++ msbBits 5 d ++
      lsbBits (distExtra.getD d 0) (dist - distBase.getD d 0)

/-- A fixed Huffman block: its header with the final bit, its symbols, the end code. -/
def fixedBlock (last : Bool) (l : List LzSym) : List Bool :=
  last :: lsbBits 2 1 ++ l.flatMap fixedSym ++ fixedBits 256

/-- A symbol as a pair of numbers: length 0 for a literal. -/
def LzSym.pair : LzSym → Nat × Nat
  | .lit b => (0, b.toNat)
  | .copy len dist => (len, dist)

/-- A dynamic Huffman block. -/
def dynamicBlock (last : Bool) (l : List LzSym) : List Bool := last :: lsbBits 2 2 ++ Config.dynamicBits (l.map LzSym.pair)

/-- A stored block of bytes that begins at bit `at_` of the stream. -/
def storedBlock (last : Bool) (at_ : Nat) (l : List Byte) : List Bool :=
  last :: lsbBits 2 0 ++ List.replicate ((8 - (at_ + 3) % 8) % 8) false ++ lsbBits 16 l.length ++ lsbBits 16 (65535 - l.length) ++
    bitsOf l

/-- The block under a policy: STATIC, DYNAMIC, or with AUTO the shortest, ties going to stored, then to fixed (R509). -/
def policyBlock (policy : Nat) (last : Bool) (at_ : Nat) (bytes : List Byte) (l : List LzSym) : List Bool :=
  let fixed := fixedBlock last l
  match policy with
  | 1 => fixed
  | 2 => dynamicBlock last l
  | _ =>
    let stored := storedBlock last at_ bytes
    let dyn := dynamicBlock last l
    if stored.length ≤ fixed.length ∧ stored.length ≤ dyn.length then stored
    else if fixed.length ≤ dyn.length then fixed else dyn

/-- The bits of all blocks, from bit `at_` on. -/
def streamBits (policy : Nat) : Nat → List Byte → List (List LzSym) → List Bool
  | _, _, [] => []
  | at_, data, b :: t =>
    let n := (b.map LzSym.span).foldl (· + ·) 0
    let bits := policyBlock policy t.isEmpty at_ (data.take n) b
    bits ++ streamBits policy (at_ + bits.length) (data.drop n) t

/-- Bits to bytes, least significant first, by fuel; a short last byte is padded with zeros. -/
def packBits : Nat → List Bool → List Byte
  | 0, _ => []
  | n + 1, l =>
    if l.isEmpty then []
    else BitVec.ofNat 8 ((l.take 8).zipIdx.foldl (fun a p => if p.1 then a + 2 ^ p.2 else a) 0) :: packBits n (l.drop 8)

/-- The zlib stream of an input (R508): CMF 0x78, FLG 0x9C, which has FDICT 0, FLEVEL 0b10 and the check bits, the blocks, and the Adler-32
of the input, most significant byte first. -/
def zlibStream (policy : Nat) (data : List Byte) : List Byte :=
  let syms := lzSymbols policy data data.length [] data
  let bits := streamBits policy 0 data (deflateBlocks (syms.length + 1) syms)
  let sum := adler32 data
  [0x78, 0x9C] ++ packBits bits.length bits ++ (List.range 4).map (fun i => BitVec.ofNat 8 (sum / 256 ^ (3 - i)))

end Sys2Proof.Machine
end

