-- ==== Sys2Proof/Machine/Secure.lean ====
section
/-!
DEFINITION. Identity, keys and trust (R525–R557): hashes and signatures as byte strings, the DRBG, challenges, authentication
trailers, monitor sessions, fuse operations, anti-rollback and the JTAG port.
-/
namespace Sys2Proof.Machine

/-! ## Byte strings (R525) -/

def hash384 (m : List Byte) : List Byte := beBytes 48 (Config.sha384 m).toNat
def beNat (l : List Byte) : Nat := l.foldl (fun a b => a * 256 + b.toNat) 0
def identityQ : List Byte := beBytes 96 Config.identityKey.toNat
def signIdentity (m : List Byte) : List Byte := beBytes 96 (Config.identitySign m).toNat

/-- An owner's signature over a message holds. -/
def verifySig (key msg sig : List Byte) : Bool :=
  Config.ecdsaVerify (BitVec.ofNat 768 (beNat key)) msg (BitVec.ofNat 768 (beNat sig))

/-- The device ID (R530). -/
def deviceId : List Byte := (hash384 identityQ).take 8

/-! ## Lifecycle and owner keys (R526, R527, R533) -/

def lifeBlank : Nat := 0
def lifeOwned : Nat := 1
def lifeLocked : Nat := 2
def lifeFault : Nat := 3

def State.life (s : State) : Nat := s.rd F.SEC_STAT.LIFE

/-- The state that the fuses give (R527). -/
def State.lifeOf (s : State) : Nat :=
  if s.rd F.FUSE_SEC.JTAG_LOCK = 1 then lifeLocked
  else if s.rd F.FUSE_SEC.VALID = 0 then lifeBlank
  else lifeOwned

def State.showLife (s : State) : State := if s.life = lifeFault then s else s.wr F.SEC_STAT.LIFE s.lifeOf

def State.slotValid (s : State) (k : Nat) : Bool := nthBit (s.rd F.FUSE_SEC.VALID) k
def State.slotRevoked (s : State) (k : Nat) : Bool := nthBit (s.rd F.FUSE_SEC.REVOKED) k

/-- The key hash of a slot, in the byte order of R554. -/
def State.slotHash (s : State) (k : Nat) : List Byte := wordsToBytes ((List.range 12).map (fun j => s.reg (R.FUSE_KEYH k j)))

/-- Slot `k` holds the hash of a key. -/
def State.slotHolds (s : State) (k : Nat) (key : List Byte) : Bool := s.slotValid k && s.slotHash k == hash384 key

/-- Slot `k` accepts an owner key (R533). -/
def State.slotAccepts (s : State) (k : Nat) (key : List Byte) : Bool :=
  decide (k < 4) && s.slotHolds k key && !s.slotRevoked k

/-! ## The runtime DRBG (R531, R532) -/

/-- 48 random bytes; none while the DRBG is in error. -/
def drbgTake (s : State) : Option (List Byte) × State :=
  if s.rd F.SEC_STAT.DRBGERR = 1 then (none, s)
  else (some (beBytes 48 (Config.drbg s.fresh).toNat),
    (s.spend 1).modSecu (fun v => { v with drbgReqs := v.drbgReqs + 1 }))

def execDrbgReseed (s : State) : Host.Outcome State Fault Refusal :=
  onlyIf (s.rd F.SEC_STAT.DRBGERR == 0 && decide (65536 ≤ s.secu.drbgReqs ∨ s.secu.drbgAt + hourNs ≤ s.now)) s
    (s.modSecu (fun v => { v with drbgReqs := 0, drbgAt := s.now }))

/-- Instantiation of the runtime DRBG. -/
def drbgInstantiate (s : State) : State :=
  (s.modSecu (fun v => { v with drbgReqs := 0, drbgAt := s.now })).wr F.SEC_STAT.DRBGERR 0

def execDrbgHealthFail (s : State) : Host.Outcome State Fault Refusal :=
  onlyIf (s.rd F.SEC_STAT.DRBGERR == 0) s
    (((s.modSecu (fun v => { v with retryAt := s.now + 1_000_000_000 })).wr F.SEC_STAT.DRBGERR 1).event
      0x1201 .fault noUnit none 0 0 0 0)

/-- A retry, every 1 s in error; a success clears DRBGERR. -/
def execDrbgRetry (ok : Bool) (s : State) : Host.Outcome State Fault Refusal :=
  onlyIf (s.rd F.SEC_STAT.DRBGERR == 1 && decide (s.secu.retryAt ≤ s.now)) s
    (if ok then (drbgInstantiate s).event 0x1201 .clear noUnit none 0 0 0 0
     else s.modSecu (fun v => { v with retryAt := s.now + 1_000_000_000 }))

/-! ## Challenges and trailers (R540, R541) -/

/-- A new challenge replaces any outstanding one: its nonce, or none while the DRBG is in error. -/
def newChallenge (s : State) : Option (List Byte) × State :=
  match drbgTake s with
  | (some n, s1) =>
    (some n, (s1.modSecu (fun v => { v with challenge := some (n, s.now + 60_000_000_000) })).wr F.SEC_STAT.CHAL 1)
  | (none, s1) => (none, s1)

def dropChallenge (s : State) : State := (s.modSecu (fun v => { v with challenge := none })).wr F.SEC_STAT.CHAL 0

/-- The slot under which a trailer verifies over a message context (R541, R542). -/
def State.trailerSlot (s : State) (ctx trailer : List Byte) : Option Nat :=
  match s.secu.challenge with
  | none => none
  | some (nonce, till) =>
    let k := (trailer.getD 0 0).toNat
    let key := (trailer.drop 4).take 96
    if s.now < till ∧ trailer.length = 196 ∧ s.slotAccepts k key = true ∧
        verifySig key (nonce ++ deviceId ++ ctx) (trailer.drop 100) = true then some k
    else none

def execChallengeExpire (s : State) : Host.Outcome State Fault Refusal :=
  match s.secu.challenge with
  | some (_, till) => onlyIf (decide (till ≤ s.now)) s (dropChallenge s)
  | none => done s

/-! ## Monitor sessions (R542) -/

def openSession (k : Nat) (s : State) : State :=
  (s.modSecu (fun v => { v with session := some (k, s.now) })).wr F.SEC_STAT.MONSESS 1

def endSession (s : State) : State := (s.modSecu (fun v => { v with session := none })).wr F.SEC_STAT.MONSESS 0

def execSessionTimeout (s : State) : Host.Outcome State Fault Refusal :=
  match s.secu.session with
  | some (_, t) => onlyIf (decide (t + 600_000_000_000 ≤ s.now)) s (endSession s)
  | none => done s

/-! ## Fuse operations (R534, R535, R553) -/

def opProgKey : Nat := 1
def opRevoke : Nat := 2
def opAdvance : Nat := 3
def opFleetKey : Nat := 4
def opLockJtag : Nat := 5

/-- The anti-rollback counter A (R536), and the SVN of the running image. -/
def State.arb (s : State) : Nat := s.rd F.FUSE_SEC.ARB

/-- Why an operation is refused, as SEC_FPSTAT.RESULT; 0 when it may start. -/
def State.fuseRefusal (s : State) (op slot : Nat) (auth : Option Nat) : Nat :=
  let blank := s.life == lifeBlank
  if op = 0 ∨ 5 < op then 2
  else if op = opProgKey then
    if s.slotValid slot || nthBit (s.rd F.FUSE_SEC.SPOILED) slot then 3 else 0
  else if op = opRevoke then
    if blank then 2
    else if auth = some slot ∨ ((List.range 4).any (fun k => k != slot && s.slotValid k && !s.slotRevoked k)) = false then 4 else 0
  else if op = opAdvance then
    let v := (s.secu.fpdata.getD 0 0).toNat % 128
    let top := match s.boot.image with | some i => i.svn | none => 0
    if blank ∨ v ≤ s.arb ∨ top < v then 2 else 0
  else if op = opFleetKey then
    if s.rd F.FUSE_SEC.FLEET = 1 ∨ s.secu.fleetSpoiled = true then 6 else 0
  else if blank then 2 else 0

/-- A fuse operation is requested with the authority of a slot; BLANK needs none (R534). -/
def fuseCommand (op slot : Nat) (auth : Option Nat) (s : State) : State :=
  if s.rd F.SEC_FPSTAT.BUSY = 1 then s.answer .busy
  else if s.life ≠ lifeBlank ∧ auth = none then s.answer .auth
  else
    let s1 := s.wrs [(F.SEC_FPCMD.OP, op), (F.SEC_FPCMD.SLOT, slot)]
    let r := s.fuseRefusal op slot auth
    if r ≠ 0 then (s1.wr F.SEC_FPSTAT.RESULT r).answer .refused
    else ((s1.modSecu (fun v => { v with fuseOp := some { op := op, slot := slot, data := v.fpdata } })).wrs
      [(F.SEC_FPSTAT.RESULT, 0), (F.SEC_FPSTAT.BUSY, 1)]).answer .ok

/-- A write of SEC_FPDATAk (R534, R554). -/
def fuseData (k : Nat) (w : Word) (auth : Option Nat) (s : State) : State :=
  if s.rd F.SEC_FPSTAT.BUSY = 1 then s.answer .busy
  else if s.life ≠ lifeBlank ∧ auth = none then s.answer .auth
  else (s.modSecu (fun v => { v with fpdata := setAt v.fpdata k w })).answer .ok

/-- The slot of the monitor session, which authorises its writes (R637). -/
def State.sessionSlot (s : State) : Option Nat := s.secu.session.map (·.1)

/-- An operation requested from the monitor's session, or in BLANK (R635, R637). -/
def monFuse (op slot : Nat) (s : State) : State := fuseCommand op slot s.sessionSlot s

def execProgkey (slot : Fin 4) (s : State) : Host.Outcome State Fault Refusal := done (monFuse opProgKey slot s)
def execRevoke (slot : Fin 4) (s : State) : Host.Outcome State Fault Refusal := done (monFuse opRevoke slot s)
def execAdvance (s : State) : Host.Outcome State Fault Refusal := done (monFuse opAdvance 0 s)
def execFleetkey (s : State) : Host.Outcome State Fault Refusal := done (monFuse opFleetKey 0 s)
def execLockjtag (s : State) : Host.Outcome State Fault Refusal := done (monFuse opLockJtag 0 s)

/-- Some operand word is not zero: fuses of it were blown. -/
def anyBlown (l : List Word) : Bool := l.any (· != 0)

/-- What a completed operation leaves. -/
def fuseEffect (o : FuseOp) (s : State) : State :=
  if o.op = opProgKey then
    let s1 := (List.range 12).foldl (fun (s : State) k => s.setReg (R.FUSE_KEYH o.slot k) (o.data.getD k 0)) s
    s1.wr F.FUSE_SEC.VALID (setBit (s.rd F.FUSE_SEC.VALID) o.slot)
  else if o.op = opRevoke then
    let s1 := s.wr F.FUSE_SEC.REVOKED (setBit (s.rd F.FUSE_SEC.REVOKED) o.slot)
    if s.sessionSlot = some o.slot then endSession s1 else s1
  else if o.op = opAdvance then s.wr F.FUSE_SEC.ARB (max s.arb ((o.data.getD 0 0).toNat % 128))
  else if o.op = opFleetKey then (s.modSecu (fun v => { v with fleetKey := o.data.take 8 })).wr F.FUSE_SEC.FLEET 1
  else s.wr F.FUSE_SEC.JTAG_LOCK 1

/-- What an operation leaves whose data fuses were not verified: a key target with a blown fuse is SPOILED (R526). -/
def fuseSpoil (o : FuseOp) (s : State) : State :=
  if o.op = opProgKey then
    if anyBlown o.data then s.wr F.FUSE_SEC.SPOILED (setBit (s.rd F.FUSE_SEC.SPOILED) o.slot) else s
  else if o.op = opFleetKey then
    if anyBlown (o.data.take 8) then s.modSecu (fun v => { v with fleetSpoiled := true }) else s
  else s

/-- The operation ends with its read-back. (DEDUCED, assumption 50.) -/
def fuseComplete (ok : Bool) (s : State) : State :=
  match s.secu.fuseOp with
  | none => s
  | some o =>
    let s1 := (s.modSecu (fun v => { v with fuseOp := none })).wr F.SEC_FPSTAT.BUSY 0
    if ok then (fuseEffect o (s1.wr F.SEC_FPSTAT.RESULT 1)).showLife
    else (fuseSpoil o (s1.wr F.SEC_FPSTAT.RESULT 5)).event 0x1201 .fault noUnit none 0 o.op o.slot 0

def execFuseOpComplete (ok : Bool) (s : State) : Host.Outcome State Fault Refusal := done (fuseComplete ok s)

/-- A reset during an operation leaves it unfinished: a key target untouched or SPOILED, a counter step or revocation done or not
(R535); which of the two is free. A pair of which one fuse was blown counts as blown at once; the other fuse of it, blown at the next
boot, changes nothing that can be read. -/
def fuseInterrupted (s : State) : State :=
  match s.secu.fuseOp with
  | none => s
  | some o =>
    let half := Config.freeNat s.fresh % 2 == 1
    let s1 := s.spend 1
    let s2 := (s1.modSecu (fun v => { v with fuseOp := none })).wr F.SEC_FPSTAT.BUSY 0
    if half = false then s2
    else if o.op = opProgKey ∨ o.op = opFleetKey then fuseSpoil o s2
    else if o.op = opAdvance then
      -- a part of the steps
      (s2.spend 1).wr F.FUSE_SEC.ARB (s.arb + (Config.freeNat s2.fresh % ((o.data.getD 0 0).toNat % 128 + 1 - s.arb)))
    else fuseEffect o s2

/-! ## Anti-rollback (R537) -/

def execArbAutoAdvance (s : State) : Host.Outcome State Fault Refusal :=
  onlyIf (s.rd F.SEC_STAT.ARBPEND == 1 && (s.boot.committed || decide (s.boot.appliedAt + 60_000_000_000 ≤ s.now))) s
    (s.wrs [(F.FUSE_SEC.ARB, max s.arb (s.rd F.SEC_IMGSTAT.SVN)), (F.SEC_STAT.ARBPEND, 0)])

/-! ## Identity (R529, R530) and the JTAG port (R547) -/

/-- Write words to consecutive registers. -/
def writeWords (f : Nat → Nat) (l : List Word) (s : State) : State :=
  (List.range l.length).foldl (fun (s : State) k => s.setReg (f k) (l.getD k 0)) s

def showIdentity (s : State) : State :=
  let id := leNat deviceId
  writeWords R.SEC_IDPUB (bytesToWords identityQ)
    ((s.setReg R.SEC_DEVID_LO (w32 id)).setReg R.SEC_DEVID_HI (w32 (id / 2 ^ 32)))

def execIdentityKeyDerived (s : State) : Host.Outcome State Fault Refusal :=
  onlyIf (decide (2 ≤ s.rd F.SYS_BOOT.PHASE) && !s.secu.identity) s
    (showIdentity (s.modSecu (fun v => { v with identity := true })))

/-- TAP instructions: 0 BYPASS, 1 IDCODE, 2 SAMPLE/PRELOAD, 3 EXTEST, 4 a debug instruction, 5 the programming of a reach field,
others as BYPASS. Once JTAG_LOCK is blown, all but the first three act as BYPASS. A reach field can be programmed once (R589). (DESIGN
CHOICE, assumption 76.) -/
def jtagInstruction (ins src code : Nat) (s : State) : State :=
  if s.rd F.FUSE_SEC.JTAG_LOCK = 1 then s
  else if ins = 3 ∨ ins = 4 then s.wr F.SEC_STAT.DBGUSED 1
  else if ins = 5 ∧ 1 ≤ src ∧ src ≤ 8 ∧ code ≠ 0 ∧ (s.secu.reach.any (fun p => p.1 == src)) = false then
    s.modSecu (fun v => { v with reach := v.reach ++ [(src, code)] })
  else s

def execJtagInstruction (ins : Fin 6) (src : Fin 9) (code : Fin 8) (s : State) : Host.Outcome State Fault Refusal :=
  done (jtagInstruction ins src code s)

end Sys2Proof.Machine
end

