-- ==== Sys2Proof/Machine/Compress.lean ====
section
/-!
DEFINITION. The compressors and their hash chains (R507–R516, R544–R546).
-/
namespace Sys2Proof.Machine

/-! ## The pre-coder (R512) -/

/-- Zigzag of a difference modulo 2^32. -/
def zigzag (d : Nat) : Nat := if d < 2 ^ 31 then 2 * d else 2 * (2 ^ 32 - d) - 1

/-- Zigzag differences of a row of samples against its predictors. -/
def differences : List Word → List Word → List Nat
  | [], _ => []
  | x :: t, ps => zigzag ((x.toNat + 2 ^ 32 - (ps.headD 0).toNat) % 2 ^ 32) :: differences t ps.tail

/-- The four byte planes, least significant first. -/
def bytePlanes (l : List Nat) : List Byte :=
  (List.range 4).flatMap (fun j => l.map (fun z => BitVec.ofNat 8 (z / 256 ^ j)))

/-- The header words of a record. -/
def headerWords (r : Record) : List Word := [headerWord r, r.h1, r.h2, r.h3]

/-- A record's bytes as it stands in the Ground. -/
def recordBytes (r : Record) : List Byte := wordsToBytes (headerWords r ++ r.payload)

/-- A record's bytes in a block: pre-coded for KIND 0x1 and 0x2 under SPACE (1) or TIME (2), whose predictor is the previous
record of the block with the same NS and FIRST. -/
def precoded (mode : Nat) (prev : Option Record) (r : Record) : List Byte :=
  if (r.kind = 1 ∨ r.kind = 2) ∧ (mode = 1 ∨ mode = 2) then
    let xs := r.payload.take r.ns
    let ps : List Word :=
      if mode = 1 then 0 :: xs
      else match prev with
        | some p => if p.ns = r.ns ∧ p.h1 = r.h1 then p.payload.take p.ns else []
        | none => []
    wordsToBytes (headerWords r) ++ bytePlanes (differences xs ps) ++ wordsToBytes (r.payload.drop r.ns)
  else recordBytes r

/-- The block's bytes: `prev` is the last pre-coded record. -/
def blockBytes (mode : Nat) : Option Record → List Record → List Byte
  | _, [] => []
  | prev, r :: t => precoded mode prev r ++ blockBytes mode (if r.kind = 1 ∨ r.kind = 2 then some r else prev) t

/-! ## Taking records (R510) -/

def State.blockLimit (s : State) (n : Nat) : Nat := s.rd (F.DFL_BLK.BLKSIZE n) * 1024

def Comp.bytes (c : Comp) : Nat := sumN (c.recs.map recBytes)

/-- Add a record to the open block, which may close with it; the block opens as its first record becomes readable. -/
def blockAdd (n : Nat) (st : Stored) (s : State) : State :=
  let c := s.comp n
  let r := st.data
  let c1 := { c with recs := c.recs ++ [r], openAt := if c.recs.isEmpty then st.freed else c.openAt }
  let s1 := ((s.setComp n c1).wr (F.DFL_STAT.OPEN n) 1).bumpBy (F.DFL_INB.COUNT n) (recBytes r)
  let lim := s.blockLimit n
  if lim ≤ c1.bytes ∨ lim - c1.bytes < recBytes r then closeBlock n false s1 else s1

/-- A compressor takes the next readable record of its input bobbin, unless its output defers (R514). A record removed ahead of it
or a change of the source's descriptor is a discontinuity; a record that does not fit closes the block before it. (DEDUCED, assumption
56.) -/
def compressRecord (n : Nat) (s : State) : State :=
  let b := s.rd (F.DFL_CFG.INBOB n)
  if s.rd (F.DFL_CFG.EN n) = 0 ∨ s.rd (F.DFL_STAT.STALL n) = 1 then s
  else match s.readerPos b (.comp n) with
    | none => s
    | some pos =>
      match nextRecord (s.bob b) pos false with
      | none => s
      | some st =>
        let c := s.comp n
        let src := (s.source485 b).bytes
        let cut := decide (c.last < st.idx) || (decide (c.src ≠ []) && decide (c.src ≠ src))
        let s1 := if cut then closeBlock n true s else s
        let c1 := s1.comp n
        let s2 := if c1.recs.isEmpty = false ∧ s.blockLimit n < c1.bytes + recBytes st.data then closeBlock n false s1 else s1
        let s3 := s2.setComp n { s2.comp n with last := st.idx + 1, src := src }
        (blockAdd n st s3).advanceReader b (.comp n) (st.idx + 1)

def execCompressRecord (n : Fin 2) (s : State) : Host.Outcome State Fault Refusal := done (compressRecord n s)

def execBlockTimeout (n : Fin 2) (s : State) : Host.Outcome State Fault Refusal :=
  onlyIf (!(s.comp n).recs.isEmpty && decide ((s.comp n).openAt + s.rd (F.DFL_BLK.BLKTMO n) * 1_000_000 ≤ s.now)) s
    (closeBlock n false s)

/-! ## Compressed records (R511, R513, R514) -/

/-- The youngest of a list of records, by label. -/
def youngestRec (l : List Record) (d : Record) : Record := l.foldl (fun a r => if a.label ≤ r.label then r else a) d

/-- The compressed record of a closed block with index `i`. -/
def compressedRecord (s : State) (n i : Nat) (b : Block) : Option Record :=
  match b.recs with
  | [] => none
  | f :: _ =>
    let mode := s.rd (F.DFL_CFG.PRECODE n)
    let raw := blockBytes mode none b.recs
    let z := zlibStream (s.rd (F.DFL_CFG.POLICY n)) raw
    let l := b.recs.getLast?.getD f
    let payload : List Word :=
      [w32 raw.length, w32 b.recs.length, w32 i,
       w32 ((if b.gap then 1 else 0) + (if mode = 1 then 2 else 0) + (if mode = 2 then 4 else 0)), l.h2, w32 b.at_,
       w32 (b.at_ / 2 ^ 32), w32 z.length] ++ bytesToWords z
    some { kind := 6, fibre := f.fibre, pic := b.recs.any (·.pic), bad := b.recs.any (·.bad), ns := payload.length,
           h1 := w32 (i % 2 ^ 19), h2 := f.h2, h3 := (youngestRec b.recs f).h3, payload := payload, label := s.tbNs, born := 0 }

/-- The chain covers a compressed record just written (R545). -/
def chainCover (i : Nat) (r : Record) (gap : Bool) (c : Chain384) : Chain384 :=
  { c with first := if c.count = 0 then i else c.first, count := c.count + 1, bytes := c.bytes ++ recordBytes r,
           flags := if gap then c.flags ||| 4 else c.flags }

/-- A link closes every 250,000,000 TIME clocks from the genesis. -/
def linkClose (n : Nat) (s : State) : State :=
  let c := s.comp n
  match c.chain with
  | none => s
  | some h =>
    if s.now < h.due then s
    else
      let d := hash384 (h.value ++ h.bytes)
      let l : Link := { i := h.i, at_ := s.tbNs, first := if h.count = 0 then 0 else h.first, count := h.count, flags := h.flags,
                        prev := h.value, value := d }
      s.setComp n { c with chain := some {
          i := h.i + 1, due := h.due + 1_000_000_000, value := d, first := 0, count := 0, bytes := [], flags := 0,
          links := h.links ++ [l] } }

/-- A closed block's record is written; a deferring output stalls the compressor. A link due by then closes first (R545). (DEDUCED,
assumption 56.) -/
def compressedWrite (n : Nat) (s0 : State) : State :=
  let s := linkClose n s0
  let c := s.comp n
  match c.closed with
  | [] => s
  | b :: t =>
    match compressedRecord s n c.index b with
    | none => s.setComp n { c with closed := t }
    | some r =>
      let (s1, ok) := s.produce (s.rd (F.DFL_CFG.OUTBOB n)) r .queued noTags none
      if ok then
        let c1 := { s1.comp n with closed := t, index := (c.index + 1) % 2 ^ 32, chain := c.chain.map (chainCover c.index r b.gap) }
        let s2 := ((s1.setComp n c1).bumpBy (F.DFL_OUTB.COUNT n) (recBytes r)).bump (F.DFL_NBLK.COUNT n)
        (if b.gap then s2.wr (F.DFL_STAT.GAPSEEN n) 1 else s2).wr (F.DFL_STAT.STALL n) 0
      else s1.wr (F.DFL_STAT.STALL n) 1

def execCompressedRecordWrite (n : Fin 2) (s : State) : Host.Outcome State Fault Refusal := done (compressedWrite n s)

/-- An uncorrectable error in a compressor's buffers discards the open block (R515). -/
def compressorEcc (n : Nat) (s : State) : State :=
  let c := s.comp n
  if c.recs.isEmpty then s
  else
    ((s.setComp n { c with recs := [], gap := true, chain := c.chain.map (fun h => { h with flags := h.flags ||| 2 }) }).wrs
      [(F.DFL_STAT.OPEN n, 0), (F.DFL_STAT.ECCDISC n, 1)]).event 0x1101 .warn noUnit none 0 n 0 0

def execCompressorEccError (n : Fin 2) (s : State) : Host.Outcome State Fault Refusal := done (compressorEcc n s)

/-! ## Hash chains (R544–R546) -/

/-- The genesis link of compressor `n`'s chain. -/
def genesis (n : Nat) (s : State) : State :=
  let hash := match s.boot.image with
    | some (i : Image) => i.hash
    | none => List.replicate 48 0
  let d := hash384 (deviceId ++ hash ++ [BitVec.ofNat 8 n] ++ leBytes 8 s.tbNs)
  let l : Link := { i := 0, at_ := s.tbNs, first := 0, count := 0, flags := 1, prev := List.replicate 48 0, value := d }
  s.setComp n { s.comp n with chain := some {
      i := 1, due := s.now + 1_000_000_000, value := d, first := 0, count := 0, bytes := [], flags := 0, links := [l] } }

def execDigestLinkClose (n : Fin 2) (s : State) : Host.Outcome State Fault Refusal := done (linkClose n s)

/-- The digest record of a link (R546). -/
def digestRecord (s : State) (l : Link) : Record :=
  let base : Record := { kind := 7, fibre := 0, pic := false, bad := false, ns := 56, h1 := w32 (l.i % 2 ^ 19), h2 := w32 l.at_,
                         h3 := 0, payload := [], label := s.tbNs, born := 0 }
  let body : List Word := [1, w32 l.i, w32 l.first, w32 l.count, w32 l.at_, w32 (l.at_ / 2 ^ 32), w32 l.flags, 0] ++
    bytesToWords l.prev ++ bytesToWords l.value
  { base with payload := body ++ bytesToWords (signIdentity (wordsToBytes (headerWords base ++ body))) }

def digestWrite (n : Nat) (s : State) : State :=
  let c := s.comp n
  match c.chain with
  | none => s
  | some h =>
    match h.links with
    | [] => s
    | l :: t =>
      let (s1, ok) := s.produce (s.rd (F.DFL_CFG.OUTBOB n)) (digestRecord s l) .queued noTags none
      if ok then s1.setComp n { s1.comp n with chain := some { h with links := t } } else s1

def execDigestRecordWrite (n : Fin 2) (s : State) : Host.Outcome State Fault Refusal := done (digestWrite n s)

/-! ## Enabling (R513, R519) -/

/-- A compressor begins: enabled by the image it reads from the oldest record of its input, at runtime from the first one that
follows (R412); its chain begins at the genesis. -/
def compStart (n : Nat) (oldest : Bool) (s : State) : State :=
  let b := s.rd (F.DFL_CFG.INBOB n)
  let s1 := s.bindReader b (.comp n) oldest
  genesis n (s1.setComp n { s1.comp n with last := (s1.readerPos b (.comp n)).getD 0, src := [] })

/-- A write of DFL_CFGn.EN. -/
def dflEnWrite (n : Nat) (en : Bool) (s : State) : State :=
  let on := s.rd (F.DFL_CFG.EN n) == 1
  if en then
    if s.compOver s.liveView n then (s.wr (F.DFL_STAT.ERR n) 1).answer .refused
    else
      let s1 := s.wrs [(F.DFL_STAT.ERR n, 0), (F.DFL_CFG.EN n, 1)]
      ((if on then s1 else compStart n false s1).showBudgets).answer .ok
  else if on then
    let s1 := (closeBlock n true s).unbindReader (s.rd (F.DFL_CFG.INBOB n)) (.comp n)
    (((s1.setComp n { s1.comp n with chain := none }).wr (F.DFL_CFG.EN n) 0).showBudgets).answer .ok
  else s.answer .ok

def execDflEnWrite (n : Fin 2) (en : Bool) (s : State) : Host.Outcome State Fault Refusal := done (dflEnWrite n en s)

end Sys2Proof.Machine
end

