-- ==== Sys2Proof/Machine/Net.lean ====
section
/-!
DEFINITION. The network ports (R467–R477): links, frame filtering, MACsec and MKA, next hops, and what leaves a port.
-/
namespace Sys2Proof.Machine

def State.port (s : State) (p : Nat) : Port := s.net.ports.at p
def State.modPort (s : State) (p : Nat) (f : Port → Port) : State :=
  s.modNet (fun n => { n with ports := n.ports.upd p (f (n.ports.at p)) })
def State.modSec (s : State) (p : Nat) (f : Secure → Secure) : State := s.modPort p (fun q => { q with sec := f q.sec })

/-! ## Codes -/

def msecOff : Nat := 0
def msecStatic : Nat := 1
def msecMka : Nat := 2
def mkaOff : Nat := 0
def mkaPending : Nat := 1
def mkaSecured : Nat := 2
def mkaFailed : Nat := 3

def State.msec (s : State) (p : Nat) : Nat := s.rd (F.NET_PCFG.MSEC p)
def State.linkUp (s : State) (p : Nat) : Bool := s.rd (F.NET_PSTAT.LINK p) == 1

/-- The port may carry more than EAPOL: it is not in MKA mode, or SECURED (R472). -/
def State.secured (s : State) (p : Nat) : Bool := s.msec p != msecMka || s.rd (F.NET_PSTAT.MKA p) == mkaSecured

/-! ## Availability (R479, R486) -/

def isMulticast (v6 : Bool) (a : Nat) : Bool := if v6 then a / 2 ^ 120 == 0xFF else a / 2 ^ 28 == 0xE

def State.iface (s : State) (p : Nat) (v6 : Bool) : Option Iface := if v6 then (s.port p).ip6 else (s.port p).ip4

/-- Two addresses agree in a prefix. -/
def samePrefix (v6 : Bool) (len a b : Nat) : Bool :=
  let w := (if v6 then 128 else 32) - len
  a / 2 ^ w == b / 2 ^ w

/-- The next hop of a destination: itself on the link, else the gateway (R475). -/
def State.hopAddr (s : State) (p : Nat) (v6 : Bool) (a : Nat) : Nat :=
  match s.iface p v6 with
  | some i => if samePrefix v6 i.pfx i.addr a then a else i.gw
  | none => a

def State.hop (s : State) (p : Nat) (v6 : Bool) (a : Nat) : Option Hop :=
  (s.port p).hops.find? (fun h => h.v6 == v6 && h.addr == s.hopAddr p v6 a)

/-- A destination has a MAC address: multicast maps to one (R476). -/
def State.resolved (s : State) (p : Nat) (v6 : Bool) (a : Nat) : Bool :=
  isMulticast v6 a || (match s.hop p v6 a with | some h => h.mac.isSome | none => false)

/-- A destination counts as unresolved: no answer for 3 s (R476). -/
def State.unresolved (s : State) (p : Nat) (v6 : Bool) (a : Nat) : Bool :=
  !isMulticast v6 a && (match s.hop p v6 a with | some h => h.failed | none => false)

def State.dest (s : State) (i : Nat) : Option Dest := (s.net.dests.find? (fun d => d.1 == i)).map (·.2)

/-- Port `p` is available to stream `i`. -/
def State.availFor (s : State) (i p : Nat) : Bool :=
  s.rd (F.NET_PCFG.EN p) == 1 && s.linkUp p && s.secured p &&
    (match s.dest i with | some d => !s.unresolved p d.v6 d.addr | none => false)

/-- No port is available to a stream. -/
def State.unavailable (s : State) (i : Nat) : Bool :=
  match s.rd (F.NET_SCFG.PORTSEL i) with
  | 0 => !s.availFor i 0
  | 1 => !s.availFor i 1
  | _ => !s.availFor i 0 && !s.availFor i 1

/-- Show what the availability of ports does to every stream. -/
def refreshAvail (s : State) : State :=
  s.net.streams.foldl (fun s p =>
    let a := s.availFor p.1 0
    let v := s.stream p.1
    let s1 := if v.n0 = a then s else s.setStream p.1 { v with n0 := a, n0At := s.now }
    s1.wr (F.NET_SSTAT.UNAVAIL p.1) (if s1.unavailable p.1 then 1 else 0)) s

/-! ## Sending -/

/-- PN limit of a static port (R473). -/
def pnLimit : Nat := 2 ^ 64 - 2 ^ 20

/-- A port may carry a frame: EAPOL alone where it is not SECURED, and none that needs a PN once a static port's is exhausted
(R471–R473). -/
def State.mayCarry (s : State) (p : Nat) (w : Out) : Bool :=
  let eapol := match w with | .eapol _ => true | _ => false
  let sec := s.msec p != msecOff && !eapol
  let spent := s.msec p == msecStatic && decide (pnLimit ≤ (s.port p).sec.txPn)
  s.rd (F.NET_PCFG.EN p) == 1 && s.linkUp p && (eapol || s.secured p) && !(sec && (s.rd (F.NET_PSTAT.PNEXH p) == 1 || spent))

/-- A frame is handed to port `p`, for a stream or for none; what the port cannot carry is lost. -/
def transmitFor (i : Option Nat) (p : Nat) (w : Out) (s : State) : State :=
  if s.mayCarry p w then s.modPort p (fun q => { q with txq := q.txq ++ [(i, w)] }) else s

/-- A message that is no stream's: it goes before those (R487). -/
def transmit (p : Nat) (w : Out) (s : State) : State := transmitFor none p w s

/-- A datagram to a unicast or multicast address: it waits for its next hop where that is not known (R476). (DESIGN CHOICE, assumption
107.) -/
def sendTo (p : Nat) (v6 : Bool) (a : Nat) (w : Out) (s : State) : State :=
  if s.resolved p v6 a then transmit p w s else s.modPort p (fun q => { q with held := q.held ++ [(v6, s.hopAddr p v6 a, w)] })

/-! ## The transmitter (R469, R471, R476, R487) -/

/-- The MAC address of a multicast group (RFC 1112, RFC 2464). -/
def groupMac (v6 : Bool) (a : Nat) : Nat := if v6 then 0x3333_0000_0000 + a % 2 ^ 32 else 0x0100_5E00_0000 + a % 2 ^ 23

/-- The MAC address that a destination is reached at. -/
def State.hopMac (s : State) (p : Nat) (v6 : Bool) (a : Nat) : Nat :=
  if isMulticast v6 a then groupMac v6 a else match s.hop p v6 a with | some h => h.mac.getD 0 | none => 0

/-- The MAC address that a frame goes to; those of messages to groups are their standards'. (PRESUMED, assumption 58.) -/
def State.dstMac (s : State) (p : Nat) (w : Out) : Nat :=
  match w with
  | .udp v6 a _ _ _ _ => s.hopMac p v6 a
  | .eapol _ => 0x0180_C200_0003
  | .arpReply _ mac => mac
  | .arpRequest _ => 0xFFFF_FFFF_FFFF
  | .neighbourAdvert _ mac => mac
  | .neighbourSolicit a => 0x3333_FF00_0000 + a % 2 ^ 24
  | .echoReply v6 a _ => s.hopMac p v6 a
  | .delayReq _ => match s.rd F.NET_PTPCFG.TRANSPORT with
    | 0 => groupMac false 0xE000_0181
    | 1 => groupMac true 0x181
    | _ => 0x011B_1900_0000

/-- Bytes of a frame between its Ethernet header and its FCS. (PRESUMED, assumption 58.) -/
def State.outBytes (s : State) (w : Out) : Nat :=
  match w with
  | .udp v6 _ _ _ _ l => ipUdp v6 + l.length
  | .eapol l => l.length
  | .arpReply _ _ | .arpRequest _ => 28
  | .neighbourAdvert _ _ | .neighbourSolicit _ => 72
  | .echoReply v6 _ l => ipUdp v6 + l.length
  | .delayReq _ => 44 + match s.rd F.NET_PTPCFG.TRANSPORT with | 0 => 28 | 1 => 48 | _ => 0

/-- Time that a frame takes on the line in ns, rounded up (R487, R488). -/
def State.lineNs (s : State) (p : Nat) (w : Out) : Nat :=
  ceilDiv (8 * (max 46 (s.outBytes w) + s.wireExtra p)) (if s.rd (F.NET_PCFG.SPEED p) = 1 then 10 else 25)

/-- The frame that port `p` sends next: a message that is no stream's, else one frame of each stream in turn (R487). -/
def State.nextFrame (s : State) (p : Nat) : Option (Option Nat × Out) :=
  let q := (s.port p).txq
  let turn := (s.port p).turn
  let key (o : Option Nat) : Nat := match o with
    | none => 0
    | some i => match turn.findIdx? (· = i) with | some k => k + 2 | none => 1
  q.foldl (fun (b : Option (Option Nat × Out)) f => match b with
    | none => some f
    | some g => if key f.1 < key g.1 then some f else some g) none

/-- A frame leaves port `p` under its PN (R471); the instant at which a Delay_Req leaves is its timestamp (R490). -/
def sendFrameOut (p : Nat) (w : Out) (s : State) : State :=
  let eapol := match w with | .eapol _ => true | _ => false
  let sec := s.msec p != msecOff && !eapol
  let f : Sent :=
    { port := p, dst := s.dstMac p w,
      tag := if s.rd (F.NET_PVLAN.VLAN p) = 1 then some (s.rd (F.NET_PVLAN.VID p), s.rd (F.NET_PVLAN.PCP p)) else none,
      pn := if sec then some ((s.port p).sec.txPn, s.rd (F.NET_PSTAT.AN p)) else none, what := w }
  let s1 := s.modNet (fun n => { n with sent := n.sent ++ [f] })
  let s2 := match w with
    | .delayReq seq => s1.modNet (fun n => { n with ptp := { n.ptp with req := some (seq, (s.tbNs : Int)) } })
    | _ => s1
  (if sec then s2.modSec p (fun v => { v with txPn := v.txPn + 1 }) else s2).bump (F.NET_PTX.COUNT p)

/-- One TIME clock of a port's transmitter: when the line is free the next frame leaves, or is lost where the port carries it no
longer. -/
def lineClock (p : Nat) (s : State) : State :=
  if s.now < (s.port p).txAt then s
  else match s.nextFrame p with
    | none => s
    | some (i, w) =>
      let s1 := s.modPort p (fun q => { q with
        txq := q.txq.erase (i, w), turn := match i with | some k => q.turn.filter (· ≠ k) ++ [k] | none => q.turn })
      if s.mayCarry p w then
        sendFrameOut p w (s1.modPort p (fun q => { q with txAt := max q.txAt (s.now - 3) + s.lineNs p w }))
      else s1

/-! ## MKA (R472) -/

/-- The port's SCI: its MAC address and port number 1. -/
def State.sci (s : State) (p : Nat) : Nat := (s.port p).mac * 65536 + 1

/-- The content of an MKPDU that the model records: priority, SCI, the CKN, and the association number and SAK that it distributes. -/
def mkpdu (s : State) (p : Nat) (sak : Option (Nat × Nat)) : Out :=
  .eapol (leBytes 1 (s.port p).sec.priority ++ beBytes 8 (s.sci p) ++ wordsToBytes (s.port p).sec.ckn ++
    (match sak with | some (an, k) => leBytes 1 an ++ beBytes 32 k | none => []))

/-- A SAK is installed for transmission: the AN in use, PN from 1, the former SAK still received (R472). -/
def installSak (p an key : Nat) (s : State) : State :=
  refreshAvail ((s.modSec p (fun v => { v with
    saks := (v.saks.filter (fun k => k.1 ≠ an)).reverse.take 1 ++ [(an, key)], txPn := 1,
    rxPn := v.rxPn.filter (fun r => r.1 ≠ an) ++ [(an, 1)] })).wrs [(F.NET_PSTAT.AN p, an), (F.NET_PSTAT.MKA p, mkaSecured)])

/-- The key server draws a SAK and distributes it; while the DRBG is in error the port leaves SECURED (R532). -/
def newSak (p : Nat) (s : State) : State :=
  match drbgTake s with
  | (none, s1) => refreshAvail (s1.wr (F.NET_PSTAT.MKA p) mkaFailed)
  | (some r, s1) =>
    let key := beNat (r.take 32)
    let an := if (s.port p).sec.saks.isEmpty then 0 else (s.rd (F.NET_PSTAT.AN p) + 1) % 4
    installSak p an key (transmit p (mkpdu s1 p (some (an, key))) s1)

/-- MKA_FRAME: the oldest MKPDU received. One that does not verify is ignored; the lower priority value, then the lower SCI, is
key server. (PRESUMED, assumption 58.) -/
def mkaFrame (p : Nat) (s : State) : State :=
  match (s.port p).mkaIn with
  | [] => s
  | m :: t =>
    let s1 := s.modPort p (fun q => { q with mkaIn := t })
    if s.msec p ≠ msecMka ∨ m.valid = false then s1
    else
      let mine := (s.port p).sec.priority
      let server := decide (mine < m.priority ∨ (mine = m.priority ∧ s.sci p < m.sci))
      let s2 := s1.modSec p (fun v => { v with lastSeen := some s.now, server := server })
      if server then (if s.rd (F.NET_PSTAT.MKA p) = mkaSecured then s2 else newSak p s2)
      else match m.sak with
        | some (an, key) => installSak p (an % 4) key s2
        | none => s2

def execMkaFrame (p : Fin 2) (s : State) : Host.Outcome State Fault Refusal := done (mkaFrame p s)

def execMkaHello (p : Fin 2) (s : State) : Host.Outcome State Fault Refusal :=
  onlyIf (s.msec p == msecMka && s.linkUp p && decide ((s.port p).sec.hello ≤ s.now)) s
    (transmit p (mkpdu s p none) (s.modSec p (fun v => { v with hello := s.now + 2_000_000_000 })))

/-- No MKPDU from the partner for 6 s. -/
def execMkaLifeTimeout (p : Fin 2) (s : State) : Host.Outcome State Fault Refusal :=
  match (s.port p).sec.lastSeen with
  | some t =>
    onlyIf (s.msec p == msecMka && decide (t + 6_000_000_000 ≤ s.now)) s
      (refreshAvail ((s.modSec p (fun v => { v with lastSeen := none, saks := [], server := false })).wr
        (F.NET_PSTAT.MKA p) mkaPending))
  | none => done s

/-- The PN at which the key server begins a new SAK (R472). (PRESUMED, assumption 58.) -/
def State.rekeyAt (s : State) (p : Nat) : Nat := if s.rd (F.NET_PCFG.SUITE p) = 1 then 2 ^ 62 else 0xC000_0000

def execSakRekey (p : Fin 2) (s : State) : Host.Outcome State Fault Refusal :=
  onlyIf (s.msec p == msecMka && (s.port p).sec.server && s.rd (F.NET_PSTAT.MKA p) == mkaSecured &&
    decide (s.rekeyAt p ≤ (s.port p).sec.txPn)) s (newSak p s)

/-- A static port's PN is exhausted (R473). -/
def execPnExhausted (p : Fin 2) (s : State) : Host.Outcome State Fault Refusal :=
  onlyIf (s.msec p == msecStatic && s.rd (F.NET_PSTAT.PNEXH p) == 0 && decide (pnLimit ≤ (s.port p).sec.txPn)) s
    ((s.wr (F.NET_PSTAT.PNEXH p) 1).event 0x1001 .warn noUnit none 0 p 2 0)

/-! ## Links (R468) -/

/-- The link of an enabled port comes up after `held` ns of block lock without hi-BER, and with FEC alignment when FEC is on. -/
def linkUp (p held : Nat) (fec : Bool) (s : State) : State :=
  let want := s.rd (F.NET_PCFG.FEC p)
  if s.rd (F.NET_PCFG.EN p) = 1 ∧ s.linkUp p = false ∧ s.rd F.CLK_STAT.NET_LOCK = 1 ∧ 1_000_000 ≤ held ∧
      (want = 0 ∨ fec = true) then
    let s1 := s.wrs [(F.NET_PSTAT.LINK p, 1), (F.NET_PSTAT.FECLOCK p, want),
      (F.NET_PSTAT.MKA p, if s.msec p = msecMka then mkaPending else mkaOff)]
    let s2 := s1.modSec p (fun v => { v with hello := s.now })
    (refreshAvail s2).event 0x1001 .clear noUnit none 0 p 1 0
  else s

def execLinkUp (p : Fin 2) (held : Nat) (fec : Bool) (s : State) : Host.Outcome State Fault Refusal := done (linkUp p held fec s)

def linkDown (p : Nat) (s : State) : State :=
  if s.linkUp p then
    let s1 := s.wrs [(F.NET_PSTAT.LINK p, 0), (F.NET_PSTAT.FECLOCK p, 0), (F.NET_PSTAT.LINKDN p, 1),
      (F.NET_PSTAT.MKA p, if s.msec p = msecMka then mkaPending else mkaOff)]
    let s1 := s1.modPort p (fun q => { q with txq := [] })
    let s2 := if s.msec p = msecMka then
        s1.modSec p (fun v => { v with saks := [], rxPn := [], lastSeen := none, server := false }) else s1
    (refreshAvail s2).event 0x1001 .warn noUnit none 0 p 0 0
  else s

def execLinkDown (p : Fin 2) (s : State) : Host.Outcome State Fault Refusal := done (linkDown p s)

/-- Loss of NET PLL lock takes both links down (R41). CLK_STAT.NET_LOCK is set again by ROM_START alone: the spec does not say how a
regained lock shows. (DESIGN CHOICE, assumption 84.) -/
def execNetPllLockLost (s : State) : Host.Outcome State Fault Refusal :=
  onlyIf (s.rd F.CLK_STAT.NET_LOCK == 1) s
    (linkDown 1 (linkDown 0 ((s.wrs [(F.CLK_STAT.NET_LOCK, 0), (F.CLK_STAT.NET_LOST, 1)]).event 0x0101 .warn noUnit none 0 0 0 0)))

/-! ## Next hops (R476) -/

/-- Ask for a next hop's MAC address. -/
def askHop (p : Nat) (v6 : Bool) (a : Nat) (s : State) : State := transmit p (if v6 then .neighbourSolicit a else .arpRequest a) s

/-- A destination is needed: its next hop is asked for once. -/
def needHop (p : Nat) (v6 : Bool) (a : Nat) (s : State) : State :=
  if isMulticast v6 a ∨ (s.hop p v6 a).isSome then s
  else
    let h := s.hopAddr p v6 a
    askHop p v6 h (s.modPort p (fun q => { q with
      hops := q.hops ++ [{ v6 := v6, addr := h, mac := none, asked := s.now, refresh := 0, failed := false }] }))

/-- An address is found at a MAC address, if the port has asked for it: what waited for it goes out. -/
def learnHop (p : Nat) (v6 : Bool) (a mac : Nat) (s : State) : State :=
  let s1 := refreshAvail (s.modPort p (fun q => { q with hops := q.hops.map (fun h =>
    if h.v6 = v6 ∧ h.addr = a then { h with mac := some mac, failed := false, refresh := s.now + 60_000_000_000 } else h) }))
  let mine (w : Bool × Nat × Out) : Bool := w.1 == v6 && w.2.1 == a
  if (s.port p).hops.any (fun h => h.v6 == v6 && h.addr == a) then
    foldS (fun (w : Bool × Nat × Out) => transmit p w.2.2) ((s.port p).held.filter mine)
      (s1.modPort p (fun q => { q with held := q.held.filter (fun w => !mine w) }))
  else s1

/-- The oldest ARP message: an answer resolves, a request for the port's own address is answered. -/
def arpFrame (p : Nat) (s : State) : State :=
  match (s.port p).arpIn with
  | [] => s
  | m :: t =>
    let s1 := learnHop p false m.sender m.mac (s.modPort p (fun q => { q with arpIn := t }))
    match (s.port p).ip4 with
    | some i => if m.answer = false ∧ m.target = i.addr then transmit p (.arpReply m.sender m.mac) s1 else s1
    | none => s1

/-- The same for neighbour discovery. -/
def neighbourFrame (p : Nat) (s : State) : State :=
  match (s.port p).ndIn with
  | [] => s
  | m :: t =>
    let s1 := learnHop p true m.sender m.mac (s.modPort p (fun q => { q with ndIn := t }))
    match (s.port p).ip6 with
    | some i => if m.answer = false ∧ m.target = i.addr then transmit p (.neighbourAdvert m.sender m.mac) s1 else s1
    | none => s1

def execArpFrame (p : Fin 2) (s : State) : Host.Outcome State Fault Refusal := done (arpFrame p s)
def execNeighbourFrame (p : Fin 2) (s : State) : Host.Outcome State Fault Refusal := done (neighbourFrame p s)

/-- The oldest echo request: at most 100 a second are answered. -/
def echoRequest (p : Nat) (s : State) : State :=
  match (s.port p).echoIn with
  | [] => s
  | m :: t =>
    let q := s.port p
    let fresh := decide (q.echoAt + 1_000_000_000 ≤ s.now)
    let n := if fresh then 0 else q.echoes
    let s1 := s.modPort p (fun q => { q with
      echoIn := t, echoAt := if fresh then s.now else q.echoAt, echoes := if n < 100 then n + 1 else n })
    if n < 100 then sendTo p m.v6 m.src (.echoReply m.v6 m.src m.payload) (needHop p m.v6 m.src s1) else s1

def execEchoRequest (p : Fin 2) (s : State) : Host.Outcome State Fault Refusal := done (echoRequest p s)

/-- Resolved next hops whose 60 s are over are asked for again. -/
def nextHopRefresh (p : Nat) (s : State) : State :=
  let due := (s.port p).hops.filter (fun h => h.mac.isSome && decide (h.refresh ≤ s.now))
  let s1 := s.modPort p (fun q => { q with hops := q.hops.map (fun h =>
    if h.mac.isSome ∧ h.refresh ≤ s.now then { h with refresh := h.refresh + 60_000_000_000 } else h) })
  foldS (fun (h : Hop) => askHop p h.v6 h.addr) due s1

def execNextHopRefresh (p : Fin 2) (s : State) : Host.Outcome State Fault Refusal := done (nextHopRefresh p s)

/-- Next hops asked for 3 s ago without an answer: what waited for them is lost. -/
def resolveTimeout (p : Nat) (s : State) : State :=
  let late (h : Hop) : Bool := h.mac.isNone && decide (h.asked + 3_000_000_000 ≤ s.now)
  let gone := (s.port p).hops.filter late
  refreshAvail (s.modPort p (fun q => { q with
    hops := q.hops.map (fun h => if late h then { h with failed := true } else h),
    held := q.held.filter (fun w => !gone.any (fun h => h.v6 == w.1 && h.addr == w.2.1)) }))

def execResolveTimeout (p : Fin 2) (s : State) : Host.Outcome State Fault Refusal := done (resolveTimeout p s)

/-! ## Receiving (R469–R471, R474, R475, R477, R491, R496) -/

/-- The port and its SRC code that PTP runs on (R45). -/
def State.ptpPort (s : State) : Option Nat :=
  match s.rd F.CLK_TB_CTL.SRC with
  | 1 => some 0
  | 2 => some 1
  | _ => none

/-- A protected frame's packet number passes the replay window (R474), and the lowest PN not yet seen after it. -/
def replayCheck (window next pn : Nat) : Bool := decide (next ≤ pn + window)

/-! ### Management datagrams (R492) -/

def dgLe (m : List Byte) (ofs n : Nat) : Nat := leNat ((m.drop ofs).take n)
def dgOp (m : List Byte) : Nat := dgLe m 3 1
def dgSeq (m : List Byte) : Nat := dgLe m 4 4
def dgCount (m : List Byte) : Nat := dgLe m 8 2
def dgAddr (m : List Byte) : Nat := dgLe m 12 4
def opRead : Nat := 1
def opWrite : Nat := 2
def opCmd : Nat := 3

/-- Bytes of data that follow the header. -/
def dgDataLen (m : List Byte) : Nat := if dgOp m = opRead then 0 else 4 * dgCount m

/-- Header and data, which a trailer signs; the data words; the trailer. -/
def dgSigned (m : List Byte) : List Byte := m.take (16 + dgDataLen m)
def dgWords (m : List Byte) : List Word := bytesToWords ((dgSigned m).drop 16)
def dgTrailer (m : List Byte) : List Byte := m.drop (16 + dgDataLen m)

/-- A datagram that is a request: MAGIC, VERSION and length as R492 has them. One whose OP is none of the three is dropped with the
others. (DEDUCED, assumption 45.) -/
def dgGood (m : List Byte) : Bool :=
  decide (16 ≤ m.length ∧ dgLe m 0 2 = 0x4D46 ∧ dgLe m 2 1 = 1 ∧ 1 ≤ dgOp m ∧ dgOp m ≤ 3 ∧ 16 + dgDataLen m ≤ m.length)

/-- A UDP datagram to the management port: kept for the supervisor, or dropped by the ACL, for its form or at a full queue (R491, R492,
R496). (DEDUCED, assumption 45.) -/
def mgmtArrive (p : Nat) (v6 : Bool) (src sport : Nat) (payload : List Byte) (s : State) : State :=
  let within := (s.port p).acl.any (fun a => a.1 == v6 && samePrefix v6 a.2.1 a.2.2 src)
  if s.rd F.NET_MGMT.ACLEN = 1 ∧ within = false then s.bump F.NET_MGMTSTAT.ACL
  else if dgGood payload = false then s
  else if 16 ≤ s.net.queue.length then s.bump F.NET_MGMTSTAT.QDROP
  else
    let r : Request := { port := p, v6 := v6, src := src, sport := sport, bytes := payload }
    let s1 := s.modNet (fun n => { n with queue := n.queue ++ [r] })
    s1.wr F.NET_MGMTSTAT.QLEN s1.net.queue.length

def State.ownAddr (s : State) (p : Nat) (v6 : Bool) (a : Nat) : Bool :=
  match s.iface p v6 with | some i => i.addr == a | none => false

/-- What a frame's body comes to on port `p`: none when the port does not accept it (R470), else the state with it taken in. (DESIGN
CHOICE, assumption 30.) -/
def acceptBody (p : Nat) (b : RxBody) (s : State) : Option State :=
  match b with
  | .pause => none
  | .other => none
  | .mka m => if s.msec p = msecMka then some (s.modPort p (fun q => { q with mkaIn := q.mkaIn ++ [m] })) else none
  | .arp m => if (s.port p).ip4.isSome then some (s.modPort p (fun q => { q with arpIn := q.arpIn ++ [m] })) else none
  | .neighbour m => if (s.port p).ip6.isSome then some (s.modPort p (fun q => { q with ndIn := q.ndIn ++ [m] })) else none
  | .echo clean dst m =>
    if clean = true ∧ s.ownAddr p m.v6 dst = true then some (s.modPort p (fun q => { q with echoIn := q.echoIn ++ [m] })) else none
  | .udp v6 clean src dst sport dport _ payload =>
    if clean = true ∧ s.rd F.NET_MGMT.EN = 1 ∧ dport = s.rd F.NET_MGMT.PORT ∧ s.ownAddr p v6 dst = true then
      some (mgmtArrive p v6 src sport payload s)
    else none
  | .ptp clean _ m =>
    if clean = true ∧ s.ptpPort = some p ∧ m.transport = s.rd F.NET_PTPCFG.TRANSPORT then
      some (s.modPort p (fun q => { q with ptpIn := q.ptpIn ++ [m] }))
    else none

/-- A UDP checksum that drops the datagram: wrong, or 0 over IPv6 (R477). (DESIGN CHOICE, assumption 30.) -/
def badSum (b : RxBody) : Bool :=
  match b with
  | .udp v6 _ _ _ _ _ sum _ => sum == 2 || (sum == 0 && v6)
  | .ptp _ sum m => decide (m.transport ≠ 2) && (sum == 2 || (sum == 0 && m.transport == 1))
  | _ => false

def isEapol (b : RxBody) : Bool := match b with | .mka _ => true | _ => false

/-- The protection rules of a frame: none when it fails them (R471, R474). -/
def unprotect (p : Nat) (f : RxFrame) (s : State) : Option State :=
  if s.msec p = msecOff ∨ isEapol f.body = true then (if f.sec.isNone then some s else none)
  else match f.sec with
    | none => none
    | some t =>
      let v := (s.port p).sec
      let next := ((v.rxPn.find? (fun r => r.1 == t.an)).map (·.2)).getD 1
      if s.secured p = true ∧ v.saks.any (fun k => k.1 == t.an) = true ∧ t.icv = true ∧
          replayCheck (s.port p).window next t.pn = true then
        some (s.modSec p (fun v => { v with rxPn := v.rxPn.filter (fun r => r.1 ≠ t.an) ++ [(t.an, max next (t.pn + 1))] }))
      else none

/-- A frame arrives. (DESIGN CHOICE, assumption 30.) -/
def frameReceive (p : Nat) (f : RxFrame) (s : State) : State :=
  if s.rd (F.NET_PCFG.EN p) = 0 ∨ s.linkUp p = false then s
  else
    let drop (s : State) : State := s.bump (F.NET_PDROP.COUNT p)
    let tagged := s.rd (F.NET_PVLAN.VLAN p) == 1
    if f.fcs = false ∨ (tagged = true ∧ f.vid ≠ some (s.rd (F.NET_PVLAN.VID p))) ∨ s.rd (F.NET_PCFG.MTU p) < f.len ∨
        f.body = .pause then drop s
    else if s.msec p = msecOff ∧ f.sec.isSome then drop s
    else match unprotect p f s with
      | none => s.bump (F.NET_PMSEC.COUNT p)
      | some s1 =>
        if badSum f.body then s1
        else match acceptBody p f.body s1 with
          | some s2 => s2.bump (F.NET_PRX.COUNT p)
          | none => drop s1

def execFrameReceive (p : Fin 2) (f : RxFrame) (s : State) : Host.Outcome State Fault Refusal := done (frameReceive p f s)

end Sys2Proof.Machine
end

