-- ==== Sys2Proof/Machine/Ptp.lean ====
section
/-!
DEFINITION. The ordinary clock of R489 and R490: foreign masters, the selection of one, and the delay request-response exchange that
feeds the servo of R46.
-/
namespace Sys2Proof.Machine

def State.modPtp (s : State) (f : Ptp → Ptp) : State := s.modNet (fun n => { n with ptp := f n.ptp })

/-- portState codes (R503). -/
def psDisabled : Nat := 3
def psListening : Nat := 4
def psUncalibrated : Nat := 8
def psSlave : Nat := 9

/-- 2^e seconds in ns. -/
def logSeconds (e : Int) : Nat := if 0 ≤ e then 1_000_000_000 * 2 ^ e.toNat else 1_000_000_000 / 2 ^ (-e).toNat

/-- A foreign master qualifies with two Announce messages. (PRESUMED, assumption 58.) -/
def Master.qualified (m : Master) : Bool := decide (2 ≤ m.count)

/-- The best qualified master: the lowest data set, then the lowest identity. -/
def bestMaster (l : List Master) : Option Master :=
  (l.filter Master.qualified).foldl (fun b m =>
    match b with
    | none => some m
    | some c => if m.rank < c.rank ∨ (m.rank = c.rank ∧ m.ident < c.ident) then some m else some c) none

/-- The selection runs again over the masters held; a change of master begins a new exchange. -/
def selectMaster (s : State) : State :=
  let v := s.net.ptp
  let b := (bestMaster v.masters).map (·.ident)
  let s1 := s.wr F.NET_PTPSTAT.MASTERS ((v.masters.filter Master.qualified).length)
  if b = v.chosen then s1
  else
    (s1.modPtp (fun v => { v with chosen := b, t1 := none, t2 := none, waiting := none, req := none, delay := none,
                                  reqAt := s.now })).wrs
      [(F.NET_PTPSTAT.PSTATE, if b.isSome then psUncalibrated else psListening), (F.NET_PTPSTAT.TWOSTEP, 0)]

/-- An Announce: a master held is refreshed, a new one joins while fewer than 8 are held. -/
def announce (m : PtpMsg) (rank : Nat) (interval : Int) (s : State) : State :=
  let l := s.net.ptp.masters
  let l' :=
    if l.any (fun q => q.ident == m.sender) then
      l.map (fun q => if q.ident = m.sender then
        { q with rank := rank, last := s.now, interval := interval,
                 count := if s.now ≤ q.last + 4 * logSeconds q.interval then q.count + 1 else 1 } else q)
    else if l.length < 8 then
      l ++ [{ ident := m.sender, rank := rank, last := s.now, count := 1, interval := interval, delayInterval := 0 }]
    else l
  selectMaster (s.modPtp (fun v => { v with masters := l' }))

/-- An offset is known once both path times and the mean delay are: it goes to the servo (R46). -/
def ptpOffset (s : State) : State :=
  let v := s.net.ptp
  match v.t1, v.t2, v.delay with
  | some t1, some t2, some d =>
    let o := t2 - t1 - d - s.rdI F.NET_PTPCFG.ASYM
    (servoUpdate o (if s.tb.first then logSeconds v.syncInt else s.now - s.tb.lastValid) s).wr F.NET_PTPSTAT.PSTATE psSlave
  | _, _, _ => s

/-- The oldest PTP message of port `p`. -/
def ptpMessage (p : Nat) (s : State) : State :=
  match (s.port p).ptpIn with
  | [] => s
  | m :: t =>
    let s1 := s.modPort p (fun q => { q with ptpIn := t })
    let v := s.net.ptp
    if s.ptpPort ≠ some p ∨ m.domain ≠ s.rd F.NET_PTPCFG.DOMAIN then s1
    else match m.kind with
      | .announce rank interval => announce m rank interval s1
      | .sync two origin corr interval =>
        if v.chosen ≠ some m.sender then s1
        else
          let s2 := (s1.wr F.NET_PTPSTAT.TWOSTEP (if two then 1 else 0)).modPtp (fun v => { v with
            t1 := if two then none else some (origin + corr), t2 := some m.at_, syncInt := interval,
            waiting := if two then some (m.seq, corr) else none })
          if two then s2 else ptpOffset s2
      | .followUp origin corr =>
        match v.waiting with
        | some (seq, c) =>
          if v.chosen = some m.sender ∧ seq = m.seq then
            ptpOffset (s1.modPtp (fun v => { v with t1 := some (origin + corr + c), waiting := none }))
          else s1
        | none => s1
      | .delayResp rx corr interval =>
        match v.req, v.t1, v.t2 with
        | some (seq, t3), some t1, some t2 =>
          if v.chosen = some m.sender ∧ seq = m.seq then
            s1.modPtp (fun v => { v with
              delay := some (((t2 - t1) + (rx - corr - t3)) / 2), req := none,
              masters := v.masters.map (fun q => if q.ident = m.sender then { q with delayInterval := interval } else q) })
          else s1
        | _, _, _ => s1
      | .other => s1

def execPtpMessage (p : Fin 2) (s : State) : Host.Outcome State Fault Refusal := done (ptpMessage p s)

/-- A Delay_Req, at the interval that the selected master permits, once a Sync has been received. Its timestamp is taken as it
leaves (R490). -/
def delayReq (s : State) : State :=
  let v := s.net.ptp
  match s.ptpPort, v.masters.find? (fun m => some m.ident == v.chosen), v.t1 with
  | some p, some m, some _ =>
    if v.reqAt ≤ s.now then
      transmit p (.delayReq v.reqSeq) (s.modPtp (fun v => { v with
        req := none, reqSeq := (v.reqSeq + 1) % 65536, reqAt := s.now + logSeconds m.delayInterval }))
    else s
  | _, _, _ => s

def execDelayReq (s : State) : Host.Outcome State Fault Refusal := done (delayReq s)

/-- Masters silent for three announce intervals are forgotten. -/
def announceTimeout (s : State) : State :=
  selectMaster (s.modPtp (fun v => { v with
    masters := v.masters.filter (fun m => decide (s.now < m.last + 3 * logSeconds m.interval)) }))

def execAnnounceTimeout (s : State) : Host.Outcome State Fault Refusal := done (announceTimeout s)

/-- PTP begins or ends with CLK_TB_CTL.SRC (R45, R503). -/
def ptpSourceChanged (s : State) : State :=
  let s1 := s.modPtp (fun v => { v with
    masters := [], chosen := none, t1 := none, t2 := none, waiting := none, req := none, delay := none })
  s1.wrs [(F.NET_PTPSTAT.PSTATE, if s.ptpPort.isSome then psListening else psDisabled), (F.NET_PTPSTAT.MASTERS, 0),
    (F.NET_PTPSTAT.TWOSTEP, 0)]

end Sys2Proof.Machine
end

