-- ==== Sys2Proof/Machine/Streams.lean ====
section
/-!
DEFINITION. Streams (R478–R488): groups, frames of the stream protocol, descriptors, availability and FAILOVER.
-/
namespace Sys2Proof.Machine

/-! ## Samples (R483) -/

/-- Round to an integer, ties to even. -/
def rndEven (q : Rat) : Nat :=
  let f := q.floor.toNat
  let r := q - f
  if r < 1 / 2 then f else if 1 / 2 < r then f + 1 else if f % 2 = 0 then f else f + 1

/-- The exponent e with 2^e ≤ q < 2^(e+1), for q > 0. -/
def ratExp (q : Rat) : Int :=
  let e : Int := (Nat.log2 q.num.natAbs : Int) - (Nat.log2 q.den : Int)
  let p : Rat := if 0 ≤ e then (2 ^ e.toNat : Nat) else 1 / ((2 ^ (-e).toNat : Nat) : Rat)
  if q < p then e - 1 else e

/-- binary32 of a rational, rounded to nearest even (R14, R483). -/
def toBinary32 (q : Rat) : Nat :=
  if q = 0 then 0
  else
    let a := if q < 0 then -q else q
    let e := max (ratExp a) (-126)
    let sc : Rat := if 0 ≤ 23 - e then ((2 ^ (23 - e).toNat : Nat) : Rat) else 1 / ((2 ^ (e - 23).toNat : Nat) : Rat)
    let m := rndEven (a * sc)
    let bits := if 2 ^ 23 ≤ m then (e + 126).toNat * 2 ^ 23 + m else m
    (if q < 0 then 2 ^ 31 else 0) + min bits 0x7F80_0000

/-- The strain rate of a DAS sample: with L_g in place n_g and π cancel (R483). -/
def strainRate (lambda xi g interval : Nat) (v : Int) : Nat :=
  let den : Nat := 2 ^ 20 * xi * g * 299_792_458 * interval
  if den = 0 then Config.strainOpen v
  else toBinary32 (((10 ^ 18 * 65536 * lambda : Nat) : Rat) * v / (den : Nat))

/-- One sample word of a record in a format. -/
def sampleBytes (d : Source485) (format : Nat) (w : Word) : List Byte :=
  match format with
  | 1 => leBytes 3 (unsgn 24 (satI 24 w.toInt))
  | 2 => leBytes 4 w.toNat
  | 3 => leBytes 4 (strainRate d.lambda d.xi d.g d.interval w.toInt)
  | 4 => leBytes 2 w.toNat
  | _ => leBytes 2 (w.toNat / 65536)

/-- Samples of a record in a sample format: the words that are samples, and their quality codes. -/
def sampleWords (format nb : Nat) (r : Record) : List Word × List Nat :=
  if format = 5 then
    let l := r.payload.take (min r.ns (nb - r.h1.toNat))
    (l, l.map (fun w => w.toNat % 256))
  else (r.payload.take r.ns, qualityCodes r.ns (r.payload.drop r.ns))

/-! ## Frames (R480, R481, R484, R485) -/

/-- The 32-byte header of a frame. -/
def fspHeader (i seq label epoch first format count flags spc qofs : Nat) : List Byte :=
  leBytes 2 0x5346 ++ leBytes 1 1 ++ leBytes 1 i ++ leBytes 4 seq ++ leBytes 6 (label / 1_000_000_000) ++
    leBytes 4 (label % 1_000_000_000) ++ leBytes 2 epoch ++ leBytes 3 first ++ leBytes 1 format ++ leBytes 3 count ++
    leBytes 1 flags ++ leBytes 2 spc ++ leBytes 2 qofs

def padTo4 (l : List Byte) : List Byte := l ++ List.replicate ((4 - l.length % 4) % 4) 0

/-- A frame without its SEQ: label, first, format, count, fragment flags, spc, qofs, body. -/
structure FrameBody where
  label : Nat
  first : Nat
  format : Nat
  count : Nat
  flags : Nat
  spc : Nat
  qofs : Nat
  body : List Byte
deriving DecidableEq, Repr

/-- Bytes of a frame's quality map: QMODE 1 FULL, 2 GROUP (R481). -/
def qualityMap (qmode : Nat) (rows : List (List Nat)) : List Byte :=
  match qmode with
  | 1 => rows.flatMap (fun r => r.map (BitVec.ofNat 8))
  | 2 => rows.flatMap (fun r => (groupCodes r.length r).map (BitVec.ofNat 8))
  | _ => []

/-- Fragment flags of frame `j` of `n`. -/
def fragFlags (j n : Nat) : Nat := (if j = 0 then 1 else 0) + (if j + 1 = n then 2 else 0)

/-- The frames of a group of a sample format. -/
def sampleFrames (d : Source485) (format qmode lim nb : Nat) (g : List Taken) : List FrameBody :=
  let rows := g.map (fun t => sampleWords format nb t.data)
  let count := match rows.head? with | some r => r.1.length | none => 0
  let first := match g.head? with | some t => t.data.h1.toNat | none => 0
  let w := formatWidth format
  let plan := groupFrames w qmode rows.length count lim
  let subs := plan.map (·.1)
  (List.range plan.length).map (fun j =>
    let (t0, spc, c0, n) := plan.getD j (0, 0, 0, 0)
    let part := (rows.drop t0).take spc
    let data := padTo4 (part.flatMap (fun r => ((r.1.drop c0).take n).flatMap (sampleBytes d format)))
    let q := qualityMap qmode (part.map (fun r => (r.2.drop c0).take n))
    let firstOf := !((subs.take j).contains t0)
    let lastOf := !((subs.drop (j + 1)).contains t0)
    { label := match g[t0]? with | some t => t.data.label | none => 0, first := first + c0, format := format, count := n,
      flags := (if firstOf then 1 else 0) + (if lastOf then 2 else 0), spc := spc,
      qofs := if q.isEmpty then 0 else 32 + data.length, body := data ++ padTo4 q })

/-- Cut bytes into pieces of at most `n`, with their offsets. -/
def pieces (n : Nat) : Nat → Nat → List Byte → List (Nat × List Byte)
  | 0, _, _ => []
  | fuel + 1, ofs, l => if l.isEmpty then [] else (ofs, l.take n) :: pieces n fuel (ofs + n) (l.drop n)

/-- The frames of one record of a byte format; digest records go as format 0x09 (R478, R484). -/
def byteFrames (format lim : Nat) (t : Taken) : List FrameBody :=
  let bytes := recordBytes t.data
  let room := max 4 ((lim - 32) / 4 * 4)
  let ps := pieces room (bytes.length + 1) 0 bytes
  let label := if t.data.kind = 5 ∨ t.data.kind = 0 then t.data.label else t.tb
  (List.range ps.length).map (fun j =>
    let (ofs, b) := ps.getD j (0, [])
    { label := label, first := ofs, format := if format = 8 ∧ t.data.kind = 7 then 9 else format, count := b.length,
      flags := fragFlags j ps.length, spc := 1, qofs := 0, body := padTo4 b })

/-- A descriptor's payload after EPOCH (R485). -/
def State.descBody (s : State) (i : Nat) : List Byte :=
  let d := s.source485 (s.rd (F.NET_SCFG.BOBBIN i))
  leBytes 1 d.code ++ leBytes 1 (s.rd (F.NET_SCFG.QMODE i)) ++ leBytes 8 d.interval ++ leBytes 8 d.delay ++ leBytes 4 d.chans ++
    leBytes 2 d.q ++ leBytes 2 d.g ++ leBytes 1 d.p ++ leBytes 3 0 ++ leBytes 4 d.start ++ leBytes 4 d.ng ++ leBytes 4 d.lambda ++
    leBytes 2 d.xi ++ leBytes 1 d.preset ++ leBytes 1 (s.rd (F.NET_SCFG2.SPF i)) ++ leBytes 4 d.ratio

/-! ## Ports of a stream (R479) -/

/-- The ports that a stream's frames go to now. -/
def State.streamPorts (s : State) (i : Nat) : List Nat :=
  match s.rd (F.NET_SCFG.PORTSEL i) with
  | 0 => [0]
  | 1 => [1]
  | 2 => [0, 1]
  | _ => [s.rd (F.NET_SSTAT.ONNET1 i)]

/-- Bytes of FSP that fit a packet on every port used. (DEDUCED, assumption 57.) -/
def State.frameLimit (s : State) (i : Nat) (v6 : Bool) : Nat :=
  ((s.streamPorts i).map (fun p => s.rd (F.NET_PCFG.MTU p))).foldl min 9000 - ipUdp v6

/-- One frame with the stream's next SEQ, to each of its ports. -/
def sendFrame (i : Nat) (d : Dest) (f : FrameBody) (s : State) : State :=
  let seq := s.rd (F.NET_SSEQ.SEQ i)
  let bytes := fspHeader i seq f.label (s.rd (F.NET_SSTAT.EPOCH i)) f.first f.format f.count f.flags f.spc f.qofs ++ f.body
  let s1 := (s.streamPorts i).foldl (fun s p =>
    transmitFor (some i) p (.udp d.v6 d.addr d.sport d.dport (s.rd (F.NET_SCFG2.DSCP i)) bytes) s) s
  s1.wr (F.NET_SSEQ.SEQ i) ((seq + 1) % 2 ^ 32)

/-- EPOCH rises when a descriptor field has changed since the last descriptor (R485). -/
def checkEpoch (i : Nat) (s : State) : State :=
  let v := s.stream i
  let d := s.descBody i
  if v.desc = d then s
  else
    let s1 := s.setStream i { v with desc := d, needDesc := true }
    if v.desc = [] then s1 else s1.wr (F.NET_SSTAT.EPOCH i) ((s.rd (F.NET_SSTAT.EPOCH i) + 1) % 65536)

/-- A descriptor frame. -/
def sendDescriptor (i : Nat) (d : Dest) (s0 : State) : State :=
  let s := checkEpoch i s0
  let body := leBytes 2 (s.rd (F.NET_SSTAT.EPOCH i)) ++ s.descBody i
  let s1 := s.setStream i { s.stream i with needDesc := false }
  sendFrame i d { label := s.tbNs, first := 0, format := 0xFF, count := 0, flags := 0, spc := 1, qofs := 0, body := body } s1

/-- Records sent in bytes, against the declared rate of a byte format over 1 s (R488). -/
def streamRate (i bytes : Nat) (d : Dest) (s : State) : State :=
  let v := s.stream i
  let fresh := decide (v.rateFrom + 1_000_000_000 ≤ s.now)
  let total := (if fresh then 0 else v.rateBytes) + bytes
  let s1 := s.setStream i { v with rateBytes := total, rateFrom := if fresh then s.now else v.rateFrom }
  if d.rate < total ∧ s.rd (F.NET_SSTAT.OVRATE i) = 0 then
    (s1.wr (F.NET_SSTAT.OVRATE i) 1).event 0x1001 .warn noUnit none 0 i 3 0
  else s1

/-- A value of a group saturates in the 24-bit form: the source set shows it (R250). -/
def showSat (b : Nat) (g : List Taken) (s : State) : State :=
  match s.bobSet b with
  | some (x, j) =>
    if g.any (fun t => (t.data.payload.take t.data.ns).any (fun w => satI 24 w.toInt != w.toInt)) then
      s.wr (F.FLT_DSSTAT.SAT x j) 1 else s
  | none => s

/-- The stream's open group goes out as frames, after a descriptor where one is due. The first carries GAP after a discontinuity.
(DEDUCED, assumption 57.) -/
def emitGroup (i : Nat) (d : Dest) (s0 : State) : State :=
  let s := checkEpoch i s0
  let v := s.stream i
  let b := s.rd (F.NET_SCFG.BOBBIN i)
  let pos := (s.readerPos b (.stream i)).getD v.last
  let g := v.group.filter (fun t => decide (pos ≤ t.idx))
  let gap := v.gap || decide (g.length < v.group.length)
  let s1 := if v.needDesc then sendDescriptor i d s else s
  let format := s.rd (F.NET_SCFG.FORMAT i)
  let lim := s.frameLimit i d.v6
  let src := s.source485 b
  let frames :=
    if formatWidth format = 0 then g.flatMap (byteFrames format lim)
    else sampleFrames src format (s.rd (F.NET_SCFG.QMODE i)) lim src.chans g
  let marked := (List.range frames.length).map (fun j =>
    let f := frames.getD j { label := 0, first := 0, format := 0, count := 0, flags := 0, spc := 0, qofs := 0, body := [] }
    if j = 0 ∧ gap = true then { f with flags := f.flags + 4 } else f)
  let s2 := foldS (sendFrame i d) marked s1
  let s3 := s2.setStream i { s2.stream i with group := [], cut := false, gap := if marked.isEmpty then gap else false }
  let s4 := if gap = true ∧ marked.isEmpty = false then s3.wr (F.NET_SSTAT.GAPSEEN i) 1 else s3
  let s5 := if formatWidth format = 0 then streamRate i (sumN (g.map (fun t => recBytes t.data))) d s4 else s4
  let s6 := if format = 1 then showSat b g s5 else s5
  s6.advanceReader b (.stream i) v.last

/-! ## Taking records (R482, R486, R487) -/

/-- Instants per group: a record of a byte format or of a DTS temperature bobbin forms its own (R482). -/
def State.groupSize (s : State) (i : Nat) : Nat :=
  let f := s.rd (F.NET_SCFG.FORMAT i)
  if formatWidth f = 0 ∨ f = 5 then 1 else s.streamSpf i

/-- A record may not join the group: records before it were removed, the source's descriptor has changed, or its channels differ. -/
def State.splits (s : State) (i : Nat) (r : Stored) : Bool :=
  let v := s.stream i
  decide (v.last < r.idx) || (decide (v.desc ≠ []) && decide (v.desc ≠ s.descBody i)) ||
    (match v.group.head? with
      | some t => decide (t.data.h1 ≠ r.data.h1 ∨ t.data.ns ≠ r.data.ns)
      | none => false)

/-- Take records until a group closes and goes out, or none is left to take. -/
def takeRecords (i : Nat) (d : Dest) : Nat → State → State
  | 0, s => s
  | n + 1, s =>
    let v := s.stream i
    match nextRecord (s.bob (s.rd (F.NET_SCFG.BOBBIN i))) v.last false with
    | none => s
    | some r =>
      if v.group.isEmpty = false ∧ s.splits i r = true then emitGroup i d s
      else
        let gap := v.gap || decide (v.last < r.idx)
        let t : Taken := { idx := r.idx, data := r.data, at_ := r.freed, tb := r.tb }
        let s1 := s.setStream i { v with group := v.group ++ [t], last := r.idx + 1, gap := gap }
        if s.groupSize i ≤ v.group.length + 1 then emitGroup i d s1 else takeRecords i d n s1

/-- An unavailable stream that discards moves past everything committed (R486). -/
def discardAll (i : Nat) (s : State) : State :=
  let b := s.rd (F.NET_SCFG.BOBBIN i)
  let v := s.stream i
  let last := (s.bob b).recs.foldl (fun a r => if r.st = .spec then a else max a (r.idx + 1)) v.last
  let gap := v.gap || decide (v.last < last) || !v.group.isEmpty
  (s.setStream i { v with group := [], cut := false, last := last, gap := gap }).advanceReader b (.stream i) last

/-- STREAM_GROUP_READY. A stream whose destination is not yet resolved waits (R476). -/
def groupReady (i : Nat) (s : State) : State :=
  match s.dest i with
  | none => s
  | some d =>
    if s.rd (F.NET_SCFG.EN i) = 0 then s
    else if s.unavailable i then (if s.rd (F.NET_SCFG.LINKPOL i) = 1 then s else discardAll i s)
    else if (s.streamPorts i).any (fun p => s.availFor i p && !s.resolved p d.v6 d.addr) then
      (s.streamPorts i).foldl (fun s p => needHop p d.v6 d.addr s) s
    else if (s.stream i).cut then emitGroup i d s
    else takeRecords i d ((s.bob (s.rd (F.NET_SCFG.BOBBIN i))).recs.length + 1) s

def execStreamGroupReady (i : Fin 256) (s : State) : Host.Outcome State Fault Refusal := done (groupReady i s)

/-- The oldest record of an open group has waited 100 ms. -/
def groupTimeout (i : Nat) (s : State) : State :=
  match s.dest i, (s.stream i).group.head? with
  | some d, some t => if s.unavailable i = false ∧ t.at_ + 100_000_000 ≤ s.now then emitGroup i d s else s
  | _, _ => s

def execGroupTimeout (i : Fin 256) (s : State) : Host.Outcome State Fault Refusal := done (groupTimeout i s)

/-- The descriptor of every 1 s. -/
def descriptorTimer (i : Nat) (s : State) : State :=
  match s.dest i with
  | none => s
  | some d =>
    let v := s.stream i
    if s.rd (F.NET_SCFG.EN i) = 1 ∧ v.descAt ≤ s.now then
      let s1 := s.setStream i { v with descAt := v.descAt + 1_000_000_000 }
      if s.unavailable i then s1 else sendDescriptor i d s1
    else s

def execDescriptorTimer (i : Fin 256) (s : State) : Host.Outcome State Fault Refusal := done (descriptorTimer i s)

/-! ## FAILOVER and enabling (R479, R488, R498) -/

def execFailoverSwitch (i : Fin 256) (s : State) : Host.Outcome State Fault Refusal :=
  let v := s.stream i
  onlyIf (s.rd (F.NET_SCFG.PORTSEL i) == 3 && s.rd (F.NET_SSTAT.ONNET1 i) == 0 && !v.n0 && decide (v.n0At + 1_000_000 ≤ s.now)) s
    (s.wr (F.NET_SSTAT.ONNET1 i) 1)

def execFailoverReturn (i : Fin 256) (s : State) : Host.Outcome State Fault Refusal :=
  let v := s.stream i
  onlyIf (s.rd (F.NET_SCFG.PORTSEL i) == 3 && s.rd (F.NET_SSTAT.ONNET1 i) == 1 && v.n0 && decide (v.n0At + 10_000_000_000 ≤ s.now))
    s (s.wr (F.NET_SSTAT.ONNET1 i) 0)

/-- A stream begins to read, with a descriptor before its first data frame and GAP on it (R485, R486): from the oldest record when
the image enables it, at runtime from the first one that follows (R412). (DEDUCED, assumption 57.) -/
def streamStart (i : Nat) (gap oldest : Bool) (s : State) : State :=
  let b := s.rd (F.NET_SCFG.BOBBIN i)
  let s1 := s.bindReader b (.stream i) oldest
  refreshAvail (s1.setStream i { s1.stream i with
    group := [], gap := gap, needDesc := true, descAt := s.now + 1_000_000_000, enabled := true, cut := false,
    rateFrom := s.now, rateBytes := 0, last := (s1.readerPos b (.stream i)).getD 0, n0 := s.availFor i 0, n0At := s.now })

/-- A stream ends: its open group goes out first. -/
def streamEnd (i : Nat) (s : State) : State :=
  let s1 := match s.dest i with
    | some d => if (s.stream i).group.isEmpty ∨ s.unavailable i = true then s else emitGroup i d s
    | none => s
  (s1.unbindReader (s.rd (F.NET_SCFG.BOBBIN i)) (.stream i)).setStream i
    { s1.stream i with group := [], cut := false, enabled := false }

/-- A write of NET_SCFG.EN of stream `i`, under R488. -/
def scfgEnWrite (i : Nat) (en : Bool) (s : State) : State :=
  if en then
    let e := s.netErr { s.liveView with extra := [i] }
    if e ≠ 0 then (s.wr F.NET_BUDGET.ERR e).answer .refused
    else
      let s1 := s.wrs [(F.NET_SCFG.EN i, 1), (F.NET_BUDGET.ERR, 0)]
      ((if (s.stream i).enabled then s1 else streamStart i true false s1).showBudgets).answer .ok
  else
    ((if (s.stream i).enabled then streamEnd i s else s).wr (F.NET_SCFG.EN i) 0).showBudgets.answer .ok

def execNetScfgEnWrite (i : Fin 256) (en : Bool) (s : State) : Host.Outcome State Fault Refusal := done (scfgEnWrite i en s)

end Sys2Proof.Machine
end

