-- ==== Sys2Proof/Machine/View.lean ====
section
/-!
DEFINITION. What a read of a register returns (R8–R11): the register file's word, with the fields that other state decides.
-/
namespace Sys2Proof.Machine

/-! ## Windows and pairs -/

/-- The key of a bus address: an indexed window takes the entry that its index register selects (R663). (DESIGN CHOICE, assumption 7.) -/
def State.keyOf (s : State) (a : Nat) : Nat :=
  match regDef? a with
  | some r =>
    match r.win with
    | some i => winKey a (s.reg i).toNat
    | none => a
  | none => a

/-- The upper word of a 64-bit pair that reads through the holding register (R11, R83, R244, R551). (DESIGN CHOICE, assumption 11.) -/
def upperOf (a : Nat) : Option Nat :=
  if a = R.SHOT_SEQ_LO 0 ∨ a = R.SHOT_SEQ_LO 1 ∨ a = R.CMT_LSEQ_LO 0 ∨ a = R.CMT_LSEQ_LO 1 ∨ a = R.SEC_DEVID_LO then some (a + 4)
  else none

/-- An upper word of such a pair. (DESIGN CHOICE, assumption 11.) -/
def isUpper (a : Nat) : Bool :=
  a == R.SHOT_SEQ_HI 0 || a == R.SHOT_SEQ_HI 1 || a == R.CMT_LSEQ_HI 0 || a == R.CMT_LSEQ_HI 1 || a == R.SEC_DEVID_HI

/-! ## Health (R574, R577–R581) -/

/-- A unit is fenced: it holds a fault of its own or runs the built-in test that follows one. -/
def State.sliceFenced (s : State) (n : Nat) : Bool :=
  s.rd (F.SLC_STAT.MODE n) == slFenced || (s.rd (F.SLC_STAT.MODE n) == slTest && s.rd (F.SLC_STAT.FAULT n) != 0)
def State.laneIsFenced (s : State) (n : Nat) : Bool := s.laneMode n == laneFenced
def State.hkFenced (s : State) : Bool := s.idleSt == ihFenced || s.idleSt == ihTest
def State.anyFenced (s : State) : Bool :=
  (List.range 15).any s.sliceFenced || (List.range 33).any s.laneIsFenced || s.hkFenced

def State.anyPathFault (s : State) : Bool := s.pathFaulted 0 || s.pathFaulted 1

/-- ALERT_N is low (R574, R593, R594). (DEDUCED, assumption 62.) -/
def State.alertLow (s : State) : Bool :=
  s.inReset || s.boot.image.isNone || s.rd F.HLTH_STAT.ALATCH == 1 || s.anyFenced || s.lostFunc.isSome ||
    s.rd F.HLTH_UNSRV.LL != 0 || (List.range 4).any (fun g => s.rd (F.SRC_GRP.SHUT g) == 1) || s.anyPathFault ||
    (s.rd F.LOOP_ALERT.ZEN == 1 && s.rd F.LOOP_ALERT.ZACT == 1) || (s.rd F.LOOP_ALERT.LPEN == 1 && s.rd F.LOOP_ALERT.LPACT == 1)

def b2n (b : Bool) : Nat := if b then 1 else 0

/-- HLTH_STAT as read (R577). -/
def State.hlthStat (s : State) : Word :=
  let w := s.reg R.HLTH_STAT
  let put (f : Fld) (b : Bool) (w : Word) : Word := wordPut f.lo f.w w (b2n b)
  put F.HLTH_STAT.ALERT s.alertLow (put F.HLTH_STAT.TBUSY s.health.test.isSome (put F.HLTH_STAT.UNSERVED (s.rd F.HLTH_UNSRV.LL != 0)
    (put F.HLTH_STAT.LOST s.lostFunc.isSome (put F.HLTH_STAT.FENCED s.anyFenced w))))

/-- HLTH_USTAT.STATE of a unit (R581). -/
def State.unitState (s : State) (u : Nat) : Nat :=
  if u ≤ 0x0E then [0, 2, 1, 6, 7, 3, 4, 5].getD (s.rd (F.SLC_STAT.MODE u)) 5
  else if 0x20 ≤ u ∧ u ≤ 0x40 then [5, 0, 1, 2, 0, 3, 4].getD (s.laneMode (u - 0x20)) 5
  else if u = 0x50 ∨ u = 0x51 then
    if s.hkActive = u - 0x50 then 0 else [2, 7, 1, 4, 3].getD s.idleSt 2
  else if u = 0x70 then (if s.anyPathFault then 4 else 0)
  else match s.health.test with
    | some t => if t.unit = u ∧ t.startAt.isSome = true then 3 else 0
    | none => 0

/-- HLTH_USTAT as read (R581). -/
def State.hlthUstat (s : State) : Word :=
  let u := s.rd F.HLTH_UIDX.UNIT
  if unitTestable u || u == 0x70 then
    w32 (min 15 (s.unitFails u).length * 2 ^ 20 + b2n (s.unitHeld u) * 2 ^ 19 + s.unitState u * 2 ^ 16 + s.unitFault u % 256)
  else 0

/-! ## Lanes (R303–R310) -/

/-- The logical lane whose configuration window `n` shows. (DEDUCED, assumption 59.) -/
def State.shownLane (s : State) (n : Nat) : Option Logical :=
  let m := s.laneMode n
  if m = laneActive ∨ m = laneShadow ∨ m = laneRestore then some (s.logical (s.laneLL n)) else none

/-- A utilisation with LSB 2^-16. Its rounding is not stated: the last bit of an inexact one is free. -/
def util16 (free : Nat) (u : Rat) : Nat :=
  let f := (u * 65536).floor.toNat
  min 65535 (if ((f : Nat) : Rat) = u * 65536 then f else f + Config.freeNat free % 2)

/-- A register of a lane window as read. -/
def State.laneWord (s : State) (n ofs : Nat) (w : Word) : Word :=
  match s.shownLane n with
  | none => if ofs = 0 then wordPut 24 5 w 0 else if ofs = 0x10 ∨ ofs = 0x14 ∨ ofs = 0xC then w
    else if ofs = 8 then wordPut 16 16 w 0 else 0
  | some l =>
    if ofs = 0 then
      wordPut 16 4 (wordPut 2 1 (wordPut 0 1 w (b2n l.used)) (b2n l.wait)) l.core.trap
    else if ofs = 4 then w32 (l.core.fl % 64 * 2 ^ 16 + l.core.pc % 4096)
    else if ofs = 8 then wordPut 16 16 w (util16 s.fresh (s.laneLoad s.liveView l))
    else if ofs = 0x18 then
      w32 ((match l.cks.getLast? with | some k => k.round % 65536 | none => 0) * 2 ^ 16 + l.cks.length)
    else if 0x20 ≤ ofs ∧ ofs < 0x60 then wordAt l.inCfg ((ofs - 0x20) / 4)
    else if 0x60 ≤ ofs ∧ ofs < 0x70 then wordAt l.outCfg ((ofs - 0x60) / 4)
    else if 0x80 ≤ ofs ∧ ofs < 0xA0 then
      let j := (ofs - 0x80) / 4
      match l.pendK.find? (·.1 == j) with
      | some p => p.2
      | none => wordAt l.core.k j
    else if ofs = 0xA0 then w32 (b2n (!l.pendK.isEmpty))
    else w

/-! ## The Ground (R436, R439) -/

/-- DRAM pages that bobbins and the recall ring hold. -/
def State.dramUsed (s : State) : Nat := s.pageUses.length

/-- GND_FREE: pages in state FREE, outside the replay region (R409). (DEDUCED, assumption 55.) -/
def State.freePages (s : State) : Nat := s.rd F.GND_TOTAL.TOTAL - 10_242 - s.dramUsed

/-- GND_BSTAT of bobbin `b`. -/
def State.bstatWord (s : State) (b : Nat) (w : Word) : Word :=
  wordPut 0 23 (wordPut 28 4 w (min 15 (s.readerCount b))) (bobPages (s.bob b))

/-! ## Filters, commit, loops, housekeeping -/

/-- Chains of a set in SETTLING (R265, R270): of a stopped fibre, as they were left. -/
def State.unset (s : State) (x j : Nat) : Nat :=
  let m := s.commit.at x
  if dsEn (m.sets.at j).cfg = true ∧ (s.rd (F.SHOT_STAT.STATE x) ≠ 0 ∨ m.chains.isEmpty = false) then
    s.rd (F.SHOT_GSTAT.NCH_ACT x) - (m.chains.filter (fun p => p.1 % 2 == j && p.2.cur.core.settled)).length
  else 0

/-- The cause of the most recent restart of a chain of a set (R259, R263, R264, R270): a BURST that some chain holds, unless an ENABLE
or a TONESET of a later slot, or a TONESET of the same, came after it. -/
def State.lastRst (s : State) (x j : Nat) : Nat :=
  let m := s.commit.at x
  let at_ := (m.sets.at j).rstAt
  let cause := s.rd (F.FLT_DSSTAT.LASTRST x j)
  let burst := ((m.chains.filter (fun p => p.1 % 2 == j)).map (fun p => p.2.cur.burst)).foldl max 0
  if burst ≠ 0 ∧ (if cause = 3 then at_ + 1 < burst else at_ < burst) then 2 else cause

/-- FLT_FIR_DATA as read (R665, R666). -/
def State.firWord (s : State) : Word :=
  let p := s.rd F.FLT_FIR_IDX.PRESET
  if p = 0 then 0 else w32 (unsgn 20 (firCoef p (s.rd F.FLT_FIR_IDX.TAP)))

/-- HK_STAT.RUN (R373). -/
def State.hkRunning (s : State) : Nat :=
  if !s.hk.inj.isEmpty then 2 else if !s.hk.reg.isEmpty then 1 else if s.hkTable then 3 else 0

/-- The word that a read of key `k` at bus address `a` returns, before its effects. -/
def State.view (s : State) (a : Nat) : Word :=
  let k := s.keyOf a
  let w := s.reg k
  if 0x80000 ≤ a ∧ a < 0xA1000 then s.laneWord ((a - 0x80000) / 0x1000) (a % 0x1000) w
  else if a = R.SRC_EMIT then
    wordPut 8 1 (wordPut 7 1 (wordPut 6 1 w (s.rd F.SYS_OPT.OPT_OK)) (b2n (s.permit .a))) (b2n (s.permit .b))
  else if a = R.HLTH_STAT then s.hlthStat
  else if a = R.HLTH_USTAT then s.hlthUstat
  else if a = R.HLTH_LANE then wordPut 24 8 w (if s.rd F.HLTH_LANE.SHADOW = 1 then min 255 s.windowLength else 0)
  else if a = R.HLTH_LFENCE0 then w32 (sumN ((List.range 32).map (fun n => b2n (s.laneIsFenced n) * 2 ^ n)))
  else if a = R.HLTH_LFENCE1 then w32 (b2n (s.laneIsFenced 32))
  else if a = R.GND_FREE then w32 s.freePages
  else if a = R.GND_BSTAT 0 then s.bstatWord (s.rd F.GND_BIDX.INDEX) w
  else if a = R.FLT_FIR_DATA then s.firWord
  else if (a = R.FLT_AUX_CFG 0 ∨ a = R.FLT_AUX_GDLY 0 ∨ a = R.FLT_AUX_STAT 0 ∨ a = R.FLT_AUX_VAL 0) ∧ 47 < s.rd F.FLT_AUX_IDX.INDEX then 0
  else if a = R.SLC_GCAL_DATA 0 ∧ 89 < s.rd F.SLC_GCAL_IDX.INDEX then 0
  else if a = R.FRP_CD_STAT then (if s.rd F.FRP_CD_CFG.EN = 0 then wordPut 0 1 w 1 else w)
  else if a = R.FRP_STAT 0 ∨ a = R.FRP_STAT 1 then
    let x := (a - R.FRP_STAT 0) / 0x80
    wordPut 1 1 (wordPut 2 1 w (b2n (s.polLost x 1))) (b2n (s.polLost x 0))
  else if a = R.HK_STAT then wordPut 0 2 w s.hkRunning
  else if a = R.CMT_STAT 0 ∨ a = R.CMT_STAT 1 then
    wordPut 7 1 w (b2n ((s.commit.at ((a - R.CMT_STAT 0) / 0x80)).chans.any (fun p => !p.2.core.wait.isEmpty)))
  else if a = R.SHOT_TRPER 0 ∨ a = R.SHOT_TRPER 1 then
    let x := (a - R.SHOT_TRPER 0) / 0x80
    let f := F.SHOT_TRPER.TR_ACT x
    if s.rd (F.SHOT_STAT.STATE x) = 0 then wordPut f.lo f.w w 0 else w
  else if a = R.SHOT_GSTAT 0 ∨ a = R.SHOT_GSTAT 1 then
    let x := (a - R.SHOT_GSTAT 0) / 0x80
    let f := F.SHOT_GSTAT.NCH_ACT x
    if s.rd (F.SHOT_STAT.STATE x) = 0 then wordPut f.lo f.w w 0 else w
  else if (List.range 2).any (fun x => (List.range 2).any (fun j => a == R.FLT_DSSTAT x j)) then
    let x := (a - R.FLT_DSSTAT 0 0) / 0x80
    let j := (a - R.FLT_DSSTAT x 0) / 0x10
    wordPut 20 4 (wordPut 0 19 w (s.unset x j)) (s.lastRst x j)
  else if (List.range 2).any (fun x => (List.range 2).any (fun j => a == R.FLT_DSGDUS x j)) then
    if s.rd (F.SHOT_STAT.STATE ((a - R.FLT_DSGDUS 0 0) / 0x80)) = 0 then 0 else w
  else if (List.range 8).any (fun n => a == R.LOOP_STAT n) then
    let n := ((List.range 8).find? (fun n => a == R.LOOP_STAT n)).getD 0
    wordPut 4 1 w (b2n (match (s.readback n).changed with | some c => decide (s.now < c + 2_000_000) | none => false))
  else w

/-! ## Reads (R8, R10, R11) -/

/-- The bits of a register's fields of one access code. -/
def RegDef.mask (r : RegDef) (p : FieldDef → Bool) : Nat := sumN ((r.fields.filter p).map (fun f => f.place (2 ^ f.w - 1)))

/-- A bus read at an address: the value and the machine after it. Bits of no field, and of write-only ones, read 0 (R8, R9). (DESIGN
CHOICE, assumption 11.) -/
def busRead (a : Nat) (s0 : State) : Word × State :=
  let s := if 0xF0000 ≤ a ∧ a < 0x100000 then s0.memSettle else s0
  if a % 4 ≠ 0 then (0, s.answer .align)
  else match regDef? a with
    | none => (0, s.answer .unmapped)
    | some r =>
      if isUpper a then (s.holding, s.answer .ok)
      else
        let v := s.view a
        let seen := r.mask (fun f => f.acc != .wo)
        let rc := r.mask (fun f => f.acc == .rc)
        let k := s.keyOf a
        let s1 := match upperOf a with
          | some h => { s with holding := s.view h }
          | none => s
        let s2 := if rc = 0 then s1 else s1.setReg k (s1.reg k &&& ~~~ w32 rc)
        (v &&& w32 seen, s2.answer .ok)

/-- A read by a command: the value goes to its requester. -/
def busReadTo (a : Nat) (s : State) : State :=
  let (v, t) := busRead a s
  { t with value := v }

end Sys2Proof.Machine
end

