-- ==== Sys2Proof/Machine/Bus.lean ====
section
/-!
DEFINITION. Writes over the control bus (R6–R10, R493, R624): the checks every register shares, the actions of the registers that
have them, and the rows of the bus itself.
-/
namespace Sys2Proof.Machine

/-- Values of the fields that a host may write lie in their ranges (R624, R664). (DEDUCED, assumption 8.) -/
def RegDef.admits (r : RegDef) (p : FieldDef → Bool) (w : Nat) : Bool :=
  r.fields.all (fun f => !p f || f.ranges.isEmpty || f.ranges.any (fun q => decide (q.1 ≤ f.pick w ∧ f.pick w ≤ q.2)))

/-- A field that a write would change although no host may write it (R493). (DEDUCED, assumption 8.) -/
def RegDef.denied (r : RegDef) (old w : Nat) : Bool :=
  !r.fields.any (·.host) || r.fields.any (fun f => !f.host && (match f.acc with
    | .rw => f.pick w != f.pick old
    | .wo | .w1s => f.pick w != 0
    | .ro | .w1c | .rc => false))

/-- The word that a plain write leaves: RW fields take the value, W1C fields clear where it is 1, others stay (R8). -/
def RegDef.written (r : RegDef) (old w : Nat) : Nat :=
  r.fields.foldl (fun acc f =>
    acc + f.place (match f.acc with
      | .rw | .wo => f.pick w
      | .w1c => (f.pick old) &&& (2 ^ f.w - 1 - f.pick w)
      | .ro | .w1s | .rc => f.pick old)) 0

/-- Actions that a write asks for, in bit order; one that does not complete ends the write. (DESIGN CHOICE, assumption 9.) -/
def acts : List (Bool × (State → State)) → State → State
  | [], s => s
  | (go, f) :: t, s =>
    if go then
      let s1 := f s
      if s1.status = .ok then acts t s1 else s1
    else acts t s

/-- A plain write of register `r` at key `k`. (DEDUCED, assumption 8.) -/
def plainWrite (r : RegDef) (k : Nat) (w : Word) (s : State) : State :=
  if r.admits (fun f => f.host && f.acc == .rw) w.toNat then (s.setReg k (w32 (r.written (s.reg k).toNat w.toNat))).answer .ok
  else s.answer .refused

/-- The fibre of a register with one copy per fibre, at stride 0x80. -/
def fibreOf (a : Nat) : Fibre := if a / 0x80 % 2 = 1 then .b else .a

def bitSet (w : Word) (n : Nat) : Bool := wordField n 1 w == 1

/-- An emission-affecting write (R105). -/
def State.emissionWrite (s : State) (a : Nat) (w : Word) : Bool :=
  (List.range 8).any (fun n => a == R.SRC_SET n || a == R.SRC_FADE n) ||
  (a == R.SRC_SYNC && (bitSet w 0 || bitSet w 1 || wordField 4 2 w != s.rd F.SRC_SYNC.RNDSEL)) ||
  (a == R.SRC_EMIT && bitSet w 3) || (a == R.SRC_GRP_CMD && wordField 0 4 w != 0) || (a == R.HLTH_TCMD && bitSet w 31)

/-- A write to SRC_SYNC with GO = ARMRND = 0 (R116). While a batch is pending it is BUSY. (DESIGN CHOICE, assumption 88.) -/
def rndselWrite (w : Word) (s : State) : State :=
  if s.rd F.SRC_SYNC.PEND = 1 then s.answer .busy
  else if wordField 4 2 w = 3 then s.answer .refused
  else (s.wr F.SRC_SYNC.RNDSEL (wordField 4 2 w)).answer .ok

/-- The action of a SHOT, SRC, SLC, FRP, FLT or DTS register, if it has one of its own. (DESIGN CHOICE, assumption 9.) -/
def actDatapath (r : RegDef) (a : Nat) (w : Word) (s : State) : Option (State → State) :=
  let x := fibreOf (a - r.base)
  let plain := plainWrite r (s.keyOf a) w
  if r.base = R.SHOT_STAGE 0 then some (fun s => acts [(bitSet w 0, stageGo x)] (s.answer .ok))
  else if (stagedRegs x.idx).contains a then
    some (if s.rd (F.SHOT_STAGE.PEND x.idx) = 1 then fun s => s.answer .busy else plain)
  else if r.base = R.SRC_SET 0 then some (srcSetWrite ((a - r.base) / 0x20) w)
  else if r.base = R.SRC_FADE 0 then some (srcFadeWrite ((a - r.base) / 0x20) w)
  else if r.base = R.SRC_SYNC then
    some (if bitSet w 0 || bitSet w 1 then
        fun s => acts [(bitSet w 0, syncGo (wordField 4 2 w)), (bitSet w 1, syncArmrnd (wordField 4 2 w))] (s.answer .ok)
      else rndselWrite w)
  else if r.base = R.SRC_EMIT then some (fun s => acts [(bitSet w 3, srcRearm)] (plain s))
  else if r.base = R.SRC_GRP_CMD then some (groupRearm (wordField 0 4 w))
  else if r.base = R.SLC_PROF 0 0 then some (profWrite x.idx ((a - r.base) % 0x80 / 4) w)
  else if r.base = R.SLC_PSTAGE 0 then some (fun s => acts [(bitSet w 0, pstageGo x.idx)] (s.answer .ok))
  else if r.base = R.SLC_CAL_CMD then
    some (fun s => acts [(bitSet w 0, calStart (wordField 4 4 w) (bitSet w 8) (bitSet w 9)), (bitSet w 1, calAbort)]
      (if bitSet w 0 then s.answer .ok else plain s))
  else if r.base = R.FRP_CFG 0 then some (frpCfgWrite x w)
  else if r.base = R.FLT_DSCFG 0 0 then some (dscfgWrite x ((a - r.base) % 0x80 / 0x10) w)
  else if r.base = R.FLT_AUX_CFG 0 then some (auxCfgWrite (s.rd F.FLT_AUX_IDX.INDEX) w)
  else if r.base = R.DTS_COEF 0 then some (coefWrite x false w)
  else if r.base = R.DTS_LNC 0 then some (coefWrite x true w)
  else none

/-- The action of any other register, if it has one of its own. (DESIGN CHOICE, assumption 9.) -/
def actSystem (auth : Option Nat) (r : RegDef) (a : Nat) (w : Word) (s : State) : Option (State → State) :=
  let plain := plainWrite r (s.keyOf a) w
  if r.base = R.CLK_TB_CMD then
    some (fun s => acts [(bitSet w 0, tbCapture), (bitSet w 1, tbStep), (bitSet w 2, tbSet)] (s.answer .ok))
  else if r.base = R.CLK_TB_RATE ∨ r.base = R.CLK_TB_STEP_NS then
    some (if s.tbDisciplined then fun s => s.answer .refused else plain)
  else if r.base = R.LANE_K 0 0 then some (laneKWrite ((a - r.base) / 0x1000) ((a - r.base) % 0x1000 / 4) w)
  else if r.base = R.HK_SWTRIG then some (fun s => acts [(bitSet w 0, swTrig 16), (bitSet w 1, swTrig 17)] (s.answer .ok))
  else if r.base = R.HK_CAL then some (if bitSet w 0 then hkCalStart (bitSet w 1) else plain)
  else if r.base = R.HK_TEST then some (if bitSet w 15 then hkTestGo (wordField 0 6 w) else plain)
  else if r.base = R.SEN_EXC 0 then some (excWrite ((a - r.base) / 0x20) w)
  else if r.base = R.LOOP_CUR1 0 then some (loopFixWrite ((a - r.base) / 0x20) w)
  else if r.base = R.LOOP_ACK then some (fun s => acts [(bitSet w 0, loopAckOne), (bitSet w 1, loopAckAll)] (s.answer .ok))
  else if r.base = R.LOOP_STAT 0 then some (fun s => showAlert (plain s))
  else if r.base = R.GND_RCMD then
    some (fun s => acts [(bitSet w 0, fun s => (recallTrig 0x400 s).answer .ok), (bitSet w 1, fun s => (recallRelease s).answer .ok),
      (bitSet w 2, recallExport)] (s.answer .ok))
  else if r.base = R.MEMC_FREQ then some (if bitSet w 2 then memcFreqGo (wordField 0 2 w) else plain)
  else if r.base = R.NET_SCFG 0 then some (scfgEnWrite (s.rd F.NET_SIDX.INDEX) (bitSet w 31))
  else if r.base = R.DFL_CFG 0 then some (dflEnWrite ((a - r.base) / 0x20) (bitSet w 31))
  else if r.base = R.SEC_FPCMD then
    some (if bitSet w 8 then fuseCommand (wordField 4 3 w) (wordField 0 2 w) auth
      else if s.life ≠ lifeBlank ∧ auth = none then fun s => s.answer .auth else plain)
  else if r.base = R.SEC_FPDATA 0 then some (fuseData ((a - r.base) / 4) w auth)
  else if r.base = R.HLTH_TCMD then some (if bitSet w 31 then testGo (wordField 0 8 w) (bitSet w 8) else plain)
  else none

/-- A host's write (R493). `auth` is the owner key slot of the authority that comes with it, if any. -/
def busWrite (auth : Option Nat) (a : Nat) (w : Word) (s : State) : State :=
  if a % 4 ≠ 0 then s.answer .align
  else match regDef? a with
    | none => s.answer .unmapped
    | some r =>
      if r.denied (s.reg (s.keyOf a)).toNat w.toNat then s.answer .denied
      else if s.emissionWrite a w = true ∧ auth = none then s.answer .auth
      else match actDatapath r a w s with
        | some f => f s
        | none => match actSystem auth r a w s with
          | some f => f s
          | none => plainWrite r (s.keyOf a) w s

/-- REGISTER_WRITE (R8): a host's write, with the key slot of the authority that comes with it. -/
def execRegisterWrite (a : Nat) (w : Word) (auth : Option (Fin 4)) (s : State) : Host.Outcome State Fault Refusal :=
  onlyIf s.busUp s (busWrite (auth.map (·.val)) a w s)

/-- RC_READ (R8): a host's read; an RC field returns its value and becomes 0. -/
def execRcRead (a : Nat) (s : State) : Host.Outcome State Fault Refusal := onlyIf s.busUp s (busReadTo a s)

/-- HOLDING_READ (R11): a host's read of the lower or the upper word of a 64-bit quantity. -/
def execHoldingRead (a : Nat) (s : State) : Host.Outcome State Fault Refusal := onlyIf s.busUp s (busReadTo a s)

end Sys2Proof.Machine
end

