-- ==== Sys2Proof/Machine/Image.lean ====
section
/-!
DEFINITION. The Pricking configuration image as bytes (R613–R616): header, records, authentication (R538), the decompressor's
objects (R517, R518), and what each record writes (R617). The layouts of the NETIF, STREAM, MSECKEY, SERVO and LANE payloads that
R616 names but does not place are DESIGN CHOICE.
-/
namespace Sys2Proof.Machine

/-! ## Header and records (R613, R614) -/

/-- A header of R613; byte fields as words of the image. -/
structure Header where
  length : Nat
  gen : Nat
  svn : Nat
  flags : Nat
  slot : Nat
  nrec : Nat
  owner : List Byte
  eph : List Byte
  iv : List Byte
deriving DecidableEq, Repr

/-- A stored record: its header and its payload bytes as stored. -/
structure Stored614 where
  typ : Nat
  rflags : Nat
  ulen : Nat
  index : Nat
  head : List Byte
  body : List Byte
deriving DecidableEq, Repr

def wordsAt (ws : List Word) (n k : Nat) : List Word := (ws.drop n).take k

/-- The header of an image; none when a check that R613 makes of the header alone fails. (DEDUCED, assumption 34.) -/
def headerOf (table : Bool) (ws : List Word) : Option Header :=
  let w (n : Nat) : Nat := (wordAt ws n).toNat
  let flags := w 4 / 2 ^ 8 % 256
  let h : Header := { length := w 2, gen := w 3, svn := w 4 % 256, flags := flags, slot := w 4 / 2 ^ 16 % 256, nrec := w 5,
                      owner := wordsToBytes (wordsAt ws 8 24), eph := wordsToBytes (wordsAt ws 32 24),
                      iv := wordsToBytes (wordsAt ws 56 3) }
  if w 0 = 0x4B49_5250 ∧ w 1 = 256 * 65536 + 1 ∧ h.length ≤ 33_554_432 ∧ h.length % 4 = 0 ∧ 352 ≤ h.length ∧ h.svn ≤ 64 ∧
      flags / 16 = 0 ∧ w 4 / 2 ^ 24 = 0 ∧ (wordsAt ws 59 5).all (· == 0) = true ∧ nthBit flags 3 = table then some h
  else none

/-- The stored records of words, by count: none when they do not fit. What follows them is returned too. (DEDUCED, assumption 34.) -/
def recordsOf : Nat → List Word → Option (List Stored614 × List Word)
  | 0, ws => some ([], ws)
  | n + 1, ws =>
    match ws with
    | w0 :: w1 :: w2 :: w3 :: rest =>
      let len := w1.toNat
      let k := ceilDiv len 4
      if rest.length < k ∨ wordField 18 14 w0 ≠ 0 then none
      else
        let r : Stored614 := { typ := wordField 0 16 w0, rflags := wordField 16 8 w0, ulen := w2.toNat, index := w3.toNat,
                               head := wordsToBytes [w0, w1, w2, w3], body := (wordsToBytes (rest.take k)).take len }
        (recordsOf n (rest.drop k)).map (fun p => (r :: p.1, p.2))
    | _ => none

/-- A well-formed image: its header and stored records (R613, R615). (DEDUCED, assumption 34.) -/
def parseImage (table : Bool) (ws : List Word) : Option (Header × List Stored614) :=
  match headerOf table ws with
  | none => none
  | some h =>
    if ws.length < h.length / 4 then none
    else match recordsOf h.nrec (wordsAt ws 64 (h.length / 4 - 64)) with
      | none => none
      | some (rs, rest) =>
        if rest.length = 24 ∧ (nthBit h.flags 1 || rs.all (fun r => !nthBit r.rflags 1)) = true then some (h, rs) else none

/-! ## The decompressor (R517, R518) -/

/-- One object: its bytes, or none. `ecc` says that its buffers had an uncorrectable error. (DESIGN CHOICE, assumption 35.) -/
def unpackObject (ulen : Nat) (data : List Byte) (ecc : Bool) (s : State) : State × Option (List Byte) :=
  let fail (code ofs : Nat) : State × Option (List Byte) :=
    ((((s.wr F.DFL_DSTAT.RESULT code).wr F.DFL_DOFS.OFS ofs).bump F.DFL_DCNT.COUNT).event 0x1101 .warn noUnit none 0 code ofs 0,
      none)
  if ecc then
    -- the offset at which the error was found is not stated
    fail 6 (Config.freeNat s.fresh % (ulen + 1))
  else match decompress ulen data with
    | .ok b => (s.wr F.DFL_DSTAT.RESULT 1, some b)
    | .error (code, ofs) => fail code ofs

/-- DECOMPRESS_OBJECT (R517): the object that the supervisor requests. -/
def execDecompressObject (ulen : Nat) (data : List Byte) (ecc : Bool) (s : State) : Host.Outcome State Fault Refusal :=
  done (unpackObject ulen data ecc s).1

/-! ## Authentication (R538, R539) -/

/-- The IV of record k: the header's, its last 4 bytes XORed with k as a big-endian value. -/
def recordIv (iv : List Byte) (k : Nat) : BitVec 96 :=
  BitVec.ofNat 96 (beNat (iv.take 8 ++ beBytes 4 (Nat.xor (beNat (iv.drop 8)) k)))

/-- The record key of an image, if the device has it. -/
def State.recordKey (s : State) (h : Header) : Option (BitVec 256) :=
  if nthBit h.flags 2 then
    if s.rd F.FUSE_SEC.FLEET = 1 then some (BitVec.ofNat 256 (beNat (wordsToBytes s.secu.fleetKey))) else none
  else some (Config.deviceKey (BitVec.ofNat 768 (beNat h.eph)))

/-- A record's payload once decrypted. -/
def decrypted (key : Option (BitVec 256)) (iv : List Byte) (r : Stored614) : Option (List Byte) :=
  if nthBit r.rflags 1 then key.bind (fun k => Config.gcmOpen k (recordIv iv r.index) r.head r.body) else some r.body

def allSome {α : Type} : List (Option α) → Option (List α)
  | [] => some []
  | none :: _ => none
  | some a :: t => (allSome t).map (a :: ·)

/-- Records decompressed in order; the first that fails ends it. `ecc` counts the objects before the one whose buffers fail. -/
def unpackAll : List (Stored614 × List Byte) → Option Nat → State → State × Option (List ImgRec)
  | [], _, s => (s, some [])
  | (r, b) :: t, ecc, s =>
    let one (b : List Byte) : ImgRec := { typ := r.typ, index := r.index, words := bytesToWords b }
    if nthBit r.rflags 0 then
      match unpackObject r.ulen b (ecc == some 0) s with
      | (s1, none) => (s1, none)
      | (s1, some b') => let (s2, l) := unpackAll t (ecc.map (· - 1)) s1; (s2, l.map (one b' :: ·))
    else let (s2, l) := unpackAll t ecc s; (s2, l.map (one b :: ·))

/-- What the checks of R538 come to: the code of the step that failed, or the decoded image. -/
inductive Authed where
  | failed (code : Nat)
  | passed (i : Image)
deriving DecidableEq, Repr

/-- Steps 1 to 8 of R538 on the words of an object; `slot` is what RUN will name. -/
def authenticate (table : Bool) (slot : Nat) (ecc : Option Nat) (ws : List Word) (s : State) : State × Authed :=
  if s.life ≠ lifeOwned ∧ s.life ≠ lifeLocked then (s, .failed 9)
  else match parseImage table ws with
    | none => (s, .failed 2)
    | some (h, rs) =>
      let signed := wordsToBytes (ws.take (h.length / 4 - 24))
      let sig := wordsToBytes (wordsAt ws (h.length / 4 - 24) 24)
      if h.slot ≥ 4 ∨ s.slotHolds h.slot h.owner = false then (s, .failed 3)
      else if s.slotRevoked h.slot then (s, .failed 4)
      else if h.svn < s.arb then (s, .failed 5)
      else if verifySig h.owner signed sig = false then (s, .failed 6)
      else match allSome (rs.map (decrypted (s.recordKey h) h.iv)) with
        | none => (s, .failed 7)
        | some bodies =>
          match unpackAll (rs.zip bodies) ecc s with
          | (s1, none) => (s1, .failed 8)
          | (s1, some recs) =>
            if rs.any (fun r => r.typ == 6 && !nthBit r.rflags 1) then (s1, .failed 10)
            else (s1, .passed { slot := slot, gen := h.gen, svn := h.svn, flags := h.flags, ownerSlot := h.slot,
                                hash := hash384 signed, recs := recs })

/-! ## What records write (R616, R617) -/

/-- Why an image is refused: APPLYERR and the INDEX of the record (R628), with what a refusal shows in GND_STAT.ERR, NET_BUDGET.ERR
and the compressors' ERR (R435, R439, R505, R520). -/
structure Refused617 where
  err : Nat
  index : Nat
  gnd : Nat := 0
  net : Nat := 0
  comps : List Nat := []
deriving DecidableEq, Repr

def aeType : Nat := 1
def aeField : Nat := 2
def aeRule : Nat := 3
def aeLanes : Nat := 4

/-- A register that the image may set: it has an RW field and its chapter gives it to the image (R302, R548, R575, R602). -/
def imageRegister (a : Nat) : Option RegDef :=
  match regDef? a with
  | none => none
  | some r =>
    let b := a / 0x10000
    if r.fields.any (·.acc == .rw) = true ∧ (b ≠ 0 ∨ a = R.SYS_BOOTCFG) ∧ b ≠ 0x12 ∧ b ≠ 0x14 ∧ (b ≠ 0x13 ∨ a = R.HLTH_CFG) ∧
      (a < 0x80000 ∨ 0xA1000 ≤ a) then some r else none

/-- Bits of a word that no RW field holds, or that differ there from the field's reset value (R617). -/
def strayBits (r : RegDef) (w : Nat) : Bool :=
  r.fields.any (fun f => f.acc != .rw && f.pick w != f.reset) || w &&& (2 ^ 32 - 1 - r.mask (fun _ => true)) != 0

/-- The word a register takes from the image: its RW fields. -/
def imageWord (r : RegDef) (old w : Nat) : Word :=
  w32 (r.fields.foldl (fun acc f => acc + f.place (if f.acc == .rw then f.pick w else f.pick old)) 0)

/-- One register write of the image: the machine after it, or APPLYERR. Staged registers take the value in both planes; a setpoint
or fade word goes to its shadow with STAGED = 1 (R62, R148, R598). -/
def imgWrite (a : Nat) (w : Word) (s : State) : Except Nat State :=
  match imageRegister a with
  | none => .error aeField
  | some r =>
    if a % 4 ≠ 0 ∨ strayBits r w.toNat = true then .error aeField
    else if r.admits (fun f => f.acc == .rw) w.toNat = false then .error aeRule
    else
      let k := s.keyOf a
      let v := imageWord r (s.reg k).toNat w.toNat
      let s1 := s.setReg k v
      let x := (fibreOf (a - r.base)).idx
      .ok (if (stagedRegs x).contains a || r.base == R.SLC_PROF 0 0 then s1.setReg (liveKey a) v
        else if r.base = R.SRC_SET 0 ∨ r.base = R.SRC_FADE 0 then s1.wr (F.SRC_STAT.STAGED ((a - r.base) / 0x20)) 1
        else s1)

/-- Address and value pairs. -/
def imgPairs : List Word → State → Except Nat State
  | [], s => .ok s
  | [_], _ => .error aeField
  | a :: v :: t, s => match imgWrite a.toNat v s with
    | .error e => .error e
    | .ok s1 => imgPairs t s1

/-- The writes of an ITAB payload as address and value pairs, index by index; none when its lengths do not agree. -/
def itabPairs (ws : List Word) : Option (List Word) :=
  match ws with
  | idx :: first :: n :: k :: rest =>
    let regs := rest.take k.toNat
    let vals := rest.drop k.toNat
    if 1 ≤ k.toNat ∧ k.toNat ≤ 4 ∧ regs.length = k.toNat ∧ vals.length = n.toNat * k.toNat then
      some ((List.range n.toNat).flatMap (fun i =>
        [idx, w32 (first.toNat + i)] ++ (List.range k.toNat).flatMap (fun j => [wordAt regs j, wordAt vals (i * k.toNat + j)])))
    else none
  | _ => none

/-- Length-prefixed sections, by count; none when they do not fit exactly. -/
def sections : Nat → List Word → Option (List (List Word))
  | 0, ws => if ws.isEmpty then some [] else none
  | n + 1, ws => match ws with
    | [] => none
    | l :: t => if t.length < l.toNat then none else (sections n (t.drop l.toNat)).map (t.take l.toNat :: ·)

/-- A word's bits under a mask of (place, width) fields: reserved bits read 0 (R9). -/
def keepFields (fs : List (Nat × Nat)) (w : Word) : Word := w32 (sumN (fs.map (fun f => wordField f.1 f.2 w * 2 ^ f.1)))

/-- Fields of the four words of an input port, and of an output port's (R308, R309). -/
def inFields (i : Nat) : List (Nat × Nat) :=
  match i % 4 with
  | 0 => [(31, 1), (24, 5), (16, 7)]
  | 1 => [(0, 19)]
  | 2 => [(0, 19)]
  | _ => [(0, 32)]

def outFields : List (Nat × Nat) := [(31, 1), (0, 7)]

/-- A LANE payload: the logical lane's number and what the image gives it. Section 7 holds a rate for each of IN0 to IN3. -/
def laneOf (ws : List Word) : Option (Nat × Logical) :=
  match ws with
  | [] => none
  | w :: t =>
    match sections 8 t with
    | some [prog, x, y, c, ins, outs, rates, k] =>
      if ins.length = 16 ∧ outs.length = 8 ∧ rates.length ≤ 4 ∧ k.length = 8 then
        some (wordField 0 5 w, { emptyLogical with
          prog := prog, xInit := x, yInit := y, cInit := c, inCfg := (List.range 16).map (fun i => keepFields (inFields i) (wordAt ins i)),
          outCfg := (outs.take 4).map (keepFields outFields),
          outRates := (outs.drop 4).map (·.toNat), inRates := (List.range 4).map (fun i => (wordAt rates i).toNat), kInit := k })
      else none
    | _ => none

/-- A 128-bit value of four words, low word first. -/
def wide (ws : List Word) (n : Nat) : Nat := leNat (wordsToBytes (wordsAt ws n 4))

/-- A 36-word NETIF entry: port with presence bits 8 (IPv4) and 9 (IPv6), MAC, IPv4 address, prefix and gateway, the same of IPv6,
replay window, and four ACL prefixes of five words (bit 31 present, bit 30 IPv6, length, address). (DESIGN CHOICE, assumption 33.) -/
def netif (ws : List Word) (s : State) : State :=
  let w (n : Nat) : Nat := (wordAt ws n).toNat
  let p := w 0 % 2
  let acl := (List.range 4).filterMap (fun i =>
    let h := wordAt ws (16 + 5 * i)
    if bitSet h 31 then some (bitSet h 30, wide ws (17 + 5 * i), wordField 0 8 h) else none)
  let ip4 : Option Iface := if bitSet (wordAt ws 0) 8 then some { addr := w 3, pfx := w 4, gw := w 5 } else none
  let ip6 : Option Iface := if bitSet (wordAt ws 0) 9 then some { addr := wide ws 6, pfx := w 10, gw := wide ws 11 } else none
  s.modPort p (fun q => { q with mac := w 1 + w 2 % 65536 * 2 ^ 32, ip4 := ip4, ip6 := ip6, window := w 15, acl := acl })

/-- An 8-word STREAM entry: id, IPv6 flag, address, destination port with the source port above it, declared rate. (DESIGN CHOICE,
assumption 33.) -/
def streamOf (ws : List Word) (s : State) : State :=
  let w (n : Nat) : Nat := (wordAt ws n).toNat
  let d : Dest := { v6 := bitSet (wordAt ws 1) 0, addr := wide ws 2, dport := w 6 % 65536, sport := w 6 / 65536, rate := w 7 }
  s.modNet (fun n => { n with dests := mapInsert (w 0 % 256) d (mapErase (w 0 % 256) n.dests) })

/-- A MSECKEY payload: port in bit 0, kind in bit 1 (0 CAK, 1 SAK), CKN length in bits 15:8, priority in bits 23:16; then CAK and
CKN of 8 words each, or SAK of 8 words and SSCI. (DESIGN CHOICE, assumption 33.) -/
def mseckey (ws : List Word) (s : State) : State :=
  let h := wordAt ws 0
  let key := wordsAt ws 1 8
  if bitSet h 1 then
    s.modSec (wordField 0 1 h) (fun v => { v with saks := [(0, beNat (wordsToBytes key))], ssci := (wordAt ws 9).toNat, txPn := 1,
                                                  rxPn := [(0, 1)] })
  else s.modSec (wordField 0 1 h) (fun v => { v with cak := key, ckn := wordsAt ws 9 (min 8 (ceilDiv (wordField 8 8 h) 4)),
                                                     priority := wordField 16 8 h })

/-- Apply fixed-size entries. -/
def entries (size : Nat) (f : List Word → State → State) : Nat → List Word → State → Except Nat State
  | 0, _, s => .ok s
  | n + 1, ws, s =>
    if ws.isEmpty then .ok s
    else if ws.length < size then .error aeField
    else entries size f n (ws.drop size) (f (ws.take size) s)

/-- One record; `lanes` names the logical lanes already loaded, `blocks` keeps the registers it may touch. -/
def applyRec (keep : Nat → Bool) (r : ImgRec) (s : State) : Except Nat State :=
  let ok (a : Nat) (v : Word) : List Word := if keep a then [w32 a, v] else []
  let pairsOf (l : List Word) : List Word :=
    (List.range (l.length / 2)).flatMap (fun i => ok (wordAt l (2 * i)).toNat (wordAt l (2 * i + 1)))
  match r.typ with
  | 1 => if r.words.length % 2 = 1 then .error aeField else imgPairs (pairsOf r.words) s
  | 2 => match itabPairs r.words with
    | none => .error aeField
    | some l => imgPairs (pairsOf l) s
  | 3 =>
    if keep 0x80000 = false then .ok s
    else match laneOf r.words with
      | none => .error aeField
      | some (ll, l) =>
        let o := s.logical ll
        .ok (s.setLogical ll { o with
          prog := l.prog, xInit := l.xInit, yInit := l.yInit, cInit := l.cInit, inCfg := l.inCfg, outCfg := l.outCfg,
          outRates := l.outRates, inRates := l.inRates, kInit := l.kInit, core := { o.core with k := l.kInit }, pendK := [] })
  | 4 => if keep 0x100000 then entries 36 netif r.words.length r.words s else .ok s
  | 5 => if keep 0x100000 then entries 8 streamOf r.words.length r.words s else .ok s
  | 6 =>
    if keep 0x100000 = false then .ok s
    else if r.words.length < 10 then .error aeField else .ok (mseckey r.words s)
  | 7 =>
    if keep 0x10000 = false then .ok s
    else if r.words.length < 4 then .error aeField
    else
      let w (n : Nat) : Nat := (wordAt r.words n).toNat
      .ok (s.modTb (fun q => { q with limits := { stepNs := w 0, slewPpm := w 1, lockCount := w 2, holdoverMs := w 3 } }))
  | t => if t / 2 ^ 15 = 1 then .ok s else .error aeType

/-- All records in order; `seen` holds the logical lanes that LANE records have named. -/
def applyRecs (keep : Nat → Bool) : List ImgRec → List Nat → State → Except Refused617 State
  | [], _, s => .ok s
  | r :: t, seen, s =>
    let ll := wordField 0 5 (wordAt r.words 0)
    if r.typ = 3 ∧ seen.contains ll = true then .error { err := aeLanes, index := r.index }
    else match applyRec keep r s with
      | .error e => .error { err := e, index := r.index }
      | .ok s1 => applyRecs keep t (if r.typ = 3 then ll :: seen else seen) s1

end Sys2Proof.Machine
end

