-- ==== Sys2Proof/Machine/Program.lean ====
section
/-!
DEFINITION. The checks of a lane program when the image is applied (R298): encodings, loops, pointers, ports and sizes.
-/
namespace Sys2Proof.Machine

/-! ## Valid encodings (R290, R291) -/

/-- The fields an instruction uses besides its opcode, as low bit and width; none for a word that does not encode. -/
def usedFields (w : Word) : Option (List (Nat × Nat)) :=
  let f (lo n : Nat) : Nat := wordField lo n w
  match f 26 6 with
  | 0x00 => some []
  | 0x01 | 0x02 | 0x03 => some [(25, 1), (19, 3), (17, 2), (9, 3), (7, 2)]
  | 0x04 | 0x05 => some [(19, 3), (17, 2), (14, 3), (12, 2)]
  | 0x06 | 0x07 | 0x08 =>
    some ([(25, 1), (24, 1), (22, 2), (19, 3), (17, 2)] ++ if f 24 1 = 0 then [(14, 3), (12, 2)] else [(9, 3), (7, 2)])
  | 0x09 => some [(25, 1), (22, 2), (19, 3), (17, 2)]
  | 0x0A => some [(0, 4)]
  | 0x0B | 0x0C | 0x11 => some [(24, 2), (22, 2)]
  | 0x0D => some [(24, 2), (16, 6)]
  | 0x0E => some [(22, 2), (16, 6), (15, 1), (12, 3), (10, 2)]
  | 0x0F => some [(22, 2), (16, 6), (7, 3)]
  | 0x10 => some [(24, 2), (16, 6), (7, 3)]
  | 0x12 | 0x13 | 0x14 | 0x15 | 0x16 => some [(23, 3), (20, 3), (18, 2)]
  | 0x17 => some [(23, 3), (0, 20)]
  | 0x18 => some [(23, 3), (0, 16)]
  | 0x19 | 0x25 => some [(23, 3), (20, 3)]
  | 0x1A => if sregOk (f 16 6) = true ∧ (f 25 1 = 1 ∨ sregWritable (f 16 6) = true) then some [(25, 1), (22, 3), (16, 6)] else none
  | 0x1B | 0x1C => some [(22, 4), (0, 14)]
  | 0x1D | 0x1E | 0x1F | 0x20 | 0x21 | 0x26 | 0x27 => some [(23, 3), (20, 3), (17, 3)]
  | 0x22 | 0x23 => some ([(23, 3), (20, 3), (16, 1)] ++ if f 16 1 = 0 then [(17, 3)] else [(10, 6)])
  | 0x24 => some [(20, 3), (17, 3)]
  | 0x28 => some [(23, 3), (20, 3), (0, 20)]
  | 0x29 => some [(20, 3), (0, 20)]
  | 0x2A => if f 22 4 ≤ 0xB then some [(22, 4), (0, 12)] else none
  | 0x2B => some [(0, 12)]
  | 0x2C => some []
  | 0x2D => some ([(25, 1), (0, 12)] ++ if f 25 1 = 0 then [(12, 13)] else [(22, 3)])
  | 0x2E | 0x2F => some ([(24, 2), (23, 1)] ++ if f 23 1 = 0 then [(14, 3)] else [(22, 1), (19, 3), (17, 2)])
  | 0x30 => some [(24, 2), (16, 1)]
  | 0x31 => some [(24, 2), (14, 3)]
  | _ => none

/-- A word encodes an instruction: every bit outside its opcode and its used fields is 0. -/
def encodes (w : Word) : Bool :=
  match usedFields w with
  | none => false
  | some l => w.toNat == sumN (((26, 6) :: l).map (fun f => wordField f.1 f.2 w * 2 ^ f.1))

/-! ## The other checks -/

def opOf (w : Word) : Nat := wordField 26 6 w

/-- The static rules of a LOOP at address `a` (R294). -/
def loopOk (prog : List Word) (a : Nat) : Bool :=
  let w := wordAt prog a
  let last := wordField 0 12 w
  opOf w != 0x2D || (decide (a + 1 ≤ last) && opOf (wordAt prog last) != 0x2D &&
    ((prog.drop (a + 1)).take (last - a)).all (fun i => opOf i != 0x2B && opOf i != 0x2C))

/-- The two pointers an instruction names with their modify codes, if it names two. -/
def twoPointers (w : Word) : Option ((Nat × Nat) × (Nat × Nat)) :=
  let f (lo n : Nat) : Nat := wordField lo n w
  let a := (f 19 3, f 17 2)
  match opOf w with
  | 0x01 | 0x02 | 0x03 => some (a, (f 9 3, f 7 2))
  | 0x04 | 0x05 => some (a, (f 14 3, f 12 2))
  | 0x06 | 0x07 | 0x08 => some (a, if f 24 1 = 0 then (f 14 3, f 12 2) else (f 9 3, f 7 2))
  | _ => none

/-- One pointer named twice is modified by neither field. -/
def pointersOk (w : Word) : Bool :=
  match twoPointers w with
  | none => true
  | some (a, b) => a.1 != b.1 || (a.2 == 0 && b.2 == 0)

/-- A port named by an instruction is bound. -/
def portsOk (l : Logical) (w : Word) : Bool :=
  let p := wordField 24 2 w
  match opOf w with
  | 0x2E | 0x30 => (l.inBob p).isSome
  | 0x2F | 0x31 => (l.outBob p).isSome
  | _ => true

/-- Every check of R298 but the utilisation. -/
def laneProgramOk (l : Logical) : Bool :=
  decide (l.prog.length ≤ 4096 ∧ l.xInit.length ≤ 8192 ∧ l.yInit.length ≤ 8192 ∧ l.cInit.length ≤ 4096) &&
    l.prog.all (fun w => encodes w && pointersOk w && portsOk l w) && (List.range l.prog.length).all (loopOk l.prog)

end Sys2Proof.Machine
end

