-- ==== Sys2Proof/Machine/Rules.lean ====
section
/-!
DEFINITION. The rules under which a whole configuration is refused when an image is applied (R617), each judged on the machine that
the image's records would give: `State.badX` is true when the rule of its docstring is broken.
-/
namespace Sys2Proof.Machine

def allPairs {α : Type} : List α → List (α × α)
  | [] => []
  | a :: t => t.map (fun b => (a, b)) ++ allPairs t

/-- Neighbours in a list keep a relation. -/
def chainOk {α : Type} (p : α → α → Bool) : List α → Bool
  | [] => true
  | [_] => true
  | a :: b :: t => p a b && chainOk p (b :: t)

/-! ## Sources, profiles and filters -/

/-- IDLE above SMAX (R109), or a temperature table in use that does not rise strictly (R121). -/
def State.badSources (s : State) : Bool :=
  (List.range 8).any (fun n => decide (s.rd (F.SRC_LIMIT.SMAX n) < s.rd (F.SRC_LIMIT.IDLE n)) ||
    (s.rd (F.SRC_CFG.SNEN n) == 1 && !chainOk (fun a b => decide (a.1 < b.1)) (s.thermTable n)))

/-- An invalid profile (R146); gain codes are checked fields (R664). -/
def State.badProfile (s : State) : Bool :=
  [0, 1].any (fun x => let c := profileCode (s.profile true x); c != 0 && c != 3)

/-- A ratio that its preset does not allow (R253). -/
def State.badFilters (s : State) : Bool :=
  [0, 1].any (fun x => [0, 1].any (fun j => !cfgOk (s.reg (R.FLT_DSCFG x j)))) ||
  (List.range 48).any (fun k => !cfgOk (s.reg (R.FLT_AUX_CFG k)))

/-! ## Housekeeping and sensors (R364, R366) -/

/-- Sampling instants, in HK clocks, of a sequence of inputs with their SMPX. -/
def seqTimes : Nat → List (Nat × Nat) → List (Nat × Nat)
  | _, [] => []
  | t, (inp, x) :: r => (inp, t + x) :: seqTimes (t + x + 1) r

/-- Conversions of one of H00–H07 come closer than 20 HK clocks, `wrap` being the length of a pass that repeats at once. -/
def tooClose (l : List (Nat × Nat)) (wrap : Option Nat) : Bool :=
  let hs := l.filter (fun p => decide (p.1 < 8))
  (allPairs hs).any (fun p => p.1.1 == p.2.1 && decide (p.2.2 < p.1.2 + 20)) ||
  (match wrap with
   | none => false
   | some n => hs.any (fun a => hs.any (fun b => a.1 == b.1 && decide (b.2 ≤ a.2) && decide (b.2 + n < a.2 + 20))))

def State.regSeq (s : State) : List (Nat × Nat) :=
  (List.range (s.rd F.HK_RCFG.LEN)).map (fun k => (s.rd (F.HK_RSEQ.INPUT k), s.rd (F.HK_RSEQ.SMPX k)))
def State.injSeq (s : State) : List (Nat × Nat) :=
  (List.range (s.rd F.HK_ICFG.LEN)).map (fun k => (s.rd (F.HK_ISEQ.INPUT k), s.rd (F.HK_ISEQ.SMPX k)))

/-- First conversion of each table entry, in HK clocks. -/
def State.tableTimes (s : State) : Nat → List Nat → List (Nat × Nat)
  | _, [] => []
  | t, e :: r => (s.rd (F.HK_TBL_DATA.INPUT e), t) :: s.tableTimes (t + s.tableRep e + s.rd (F.HK_TBL_DATA.DELAY e)) r

/-- R364: spacing in the regular sequence with the wrap of CONT passes, in the table when it is in use, and an input of H00–H07 in
both sequences. (DEDUCED, assumption 36.) -/
def State.badSpacing (s : State) : Bool :=
  let reg := s.regSeq
  tooClose (seqTimes 0 reg) (if s.rd F.HK_RCFG.SRC = 0 then some (s.passClocks true) else none) ||
  reg.any (fun p => decide (p.1 < 8) && s.injSeq.any (fun q => q.1 == p.1)) ||
  (s.rd F.HK_CTL.MODE == 1 &&
    ((List.range s.tableLen).any (fun e => decide (s.rd (F.HK_TBL_DATA.INPUT e) < 8) && s.tableRep e != 1) ||
      tooClose (s.tableTimes 0 (List.range s.tableLen)) (some s.tableClocks)))

/-- 3-wire without its check (R366). -/
def State.badSensors (s : State) : Bool :=
  (List.range 8).any (fun n => s.rd (F.SEN_CFG.EN n) == 1 && s.rd (F.SEN_CFG.WIRE n) == 1 && s.rd (F.SEN_CFG.CHKEN n) == 0)

/-! ## Zones and loops (R388, R391, R393, R394) -/

def State.badClass (s : State) (k : Nat) : Bool :=
  let won := s.rd (F.LOOP_CTH0.W_ON k)
  let aon := s.rd (F.LOOP_CTH1.A_ON k)
  !decide (s.rd (F.LOOP_CTH0.W_OFF k) < won ∧ won ≤ aon ∧ s.rd (F.LOOP_CTH1.A_OFF k) < aon ∧ 1 ≤ s.rd (F.LOOP_CTIM.ON_CNT k) ∧
    1 ≤ s.rd (F.LOOP_CTIM.OFF_CNT k))

/-- The zone map of R391. -/
def State.badZoneMap (s : State) : Bool :=
  let on := s.zonesOn
  let run (x : Fibre) : List Nat := on.filter (fun z => s.zoneFibre z == x)
  let apart (a b : Nat) : Bool := decide (s.rd (F.LOOP_ZCFG0.FIRST a) + s.rd (F.LOOP_ZCFG1.COUNT a) ≤ s.rd (F.LOOP_ZCFG0.FIRST b))
  fibres.any (fun x => !chainOk apart (run x)) || (run .a).any (fun a => (run .b).any (fun b => decide (b < a)))

def inLoopRange (v : Nat) : Bool := decide (1008 ≤ v ∧ v ≤ 57133)

/-- An input is converted by the sequences or table in use. -/
def State.converts (s : State) (h : Nat) : Bool :=
  s.injSeq.any (fun p => p.1 == h) ||
    (if s.rd F.HK_CTL.MODE = 0 then s.regSeq.any (fun p => p.1 == h)
     else (List.range s.tableLen).any (fun e => s.rd (F.HK_TBL_DATA.INPUT e) == h))

/-- A loop against R393 and R394. -/
def State.badLoop (s : State) (n : Nat) : Bool :=
  let mode := s.rd (F.LOOP_CFG.MODE n)
  s.rd (F.LOOP_CFG.EN n) == 1 &&
    ((mode == 2 && !(inLoopRange (s.rd (F.LOOP_CUR0.I_N n)) && inLoopRange (s.rd (F.LOOP_CUR0.I_W n)) &&
        inLoopRange (s.rd (F.LOOP_CUR1.I_A n)))) ||
     (mode == 3 && decide (s.rd (F.LOOP_RNG.HI n) ≤ s.rd (F.LOOP_RNG.LO n))) ||
     (decide (2 ≤ mode) && (s.loopZones n).isEmpty) ||
     (s.rd (F.LOOP_CFG.RBEN n) == 1 && !s.converts (24 + n)))

def State.badAlarms (s : State) : Bool :=
  (List.range 16).any s.badClass || s.badZoneMap || (List.range 8).any s.badLoop

/-! ## Lanes (R285, R298, R300, R322) -/

/-- Fibres whose DTS settings apply: A alone under DUAL. -/
def State.dtsGroups (s : State) : List Nat := [0, 1].filter (fun g => s.rd (F.DTS_CFG.EN g) == 1 && s.dtsReg g == g)

/-- A logical lane that the solution takes is not empty, or is taken twice (R322). -/
def State.badSolution (s : State) : Bool :=
  let lls := s.dtsGroups.map (fun g => s.rd (F.DTS_CFG.LL g))
  lls.any (fun ll => !(s.logical ll).prog.isEmpty) || (allPairs lls).any (fun p => p.1 == p.2)

/-- Load the temperature solutions with the ports and budgets of R322. -/
def loadSolutions (s : State) : State :=
  s.dtsGroups.foldl (fun (s : State) g =>
    let ll := s.rd (F.DTS_CFG.LL g)
    let n := min (s.nbActive g) 16384
    let port (b : Nat) : Word := w32 (2 ^ 31 + b * 2 ^ 16)
    let in1 : Word := if s.dtsDual then port (s.rd (F.DTS_BOB.RAW 1)) else 0
    let cyc := if s.dtsDual then 600 + 36 * n else 600 + 24 * n
    let ins := [port (s.rd (F.DTS_BOB.RAW g)), 0, 0, w32 cyc, in1, 0, 0, 0] ++ List.replicate 8 0
    s.setLogical ll { s.logical ll with
      inCfg := ins, outCfg := [w32 (2 ^ 31 + s.rd (F.DTS_BOB.OUT g)), 0, 0, 0], outRates := [0, 0, 0, 0], inRates := [0, 0, 0, 0] }) s

/-- Output bobbins of the compressors that the image configures, enabled or not (R285, R507). -/
def State.compOuts (s : State) : List Nat :=
  ([0, 1].filter (fun n => s.reg (R.DFL_CFG n) != resetKey (R.DFL_CFG n))).map (fun n => s.rd (F.DFL_CFG.OUTBOB n))

/-- Bobbins that lane input ports read. -/
def State.laneIns (s : State) : List Nat := s.lanes.ll.flatMap (fun p => (List.range 4).filterMap p.2.inBob)
def State.laneOuts (s : State) : List Nat := s.lanes.ll.flatMap (fun p => (List.range 4).filterMap p.2.outBob)

/-- The checks of R298 on every lane, and the bindings of R285. -/
def State.badLanes (s : State) : Bool :=
  s.lanes.ll.any (fun p => !laneProgramOk p.2) || s.laneIns.any (fun b => decide (125 ≤ b) || s.compOuts.contains b)

/-! ## The Ground (R411–R416) -/

/-- Bobbins that front pipeline writers fill. -/
def State.frontBobs (s : State) : List Nat :=
  [(0, 0), (0, 1), (1, 0), (1, 1)].filterMap (fun (p : Nat × Nat) => s.setBobbin p.1 p.2) ++
  (if s.rd F.GND_AUXBOB.EN = 1 then [s.rd F.GND_AUXBOB.BOB] else []) ++
  ([0, 1].filter s.dtsOn).map (fun x => s.rd (F.DTS_BOB.RAW x))

/-- The recall window's export bobbin, when the window is enabled. -/
def State.exportBob (s : State) : List Nat := if s.rd F.GND_RCFG.EN = 1 then [s.rd F.GND_RCFG.EXPBOB] else []

/-- Every producer's bobbin; B125 to B127 have theirs. -/
def State.producedBobs (s : State) : List Nat := s.frontBobs ++ s.laneOuts ++ s.compOuts ++ s.exportBob ++ [125, 126, 127]

/-- Every bound reader's bobbin, streams and compressors that are not enabled included (R412). -/
def State.readBobs (s : State) : List Nat :=
  s.laneIns ++ (s.alarmSlots.filter (·.2.1)).map (·.2.2) ++
  ([0, 1].filter (fun n => s.reg (R.DFL_CFG n) != resetKey (R.DFL_CFG n))).map (fun n => s.rd (F.DFL_CFG.INBOB n)) ++
  (s.net.dests.map (·.1)).map (fun i => s.rd (F.NET_SCFG.BOBBIN i)) ++ [126, 127]

/-- Bindings against R411. -/
def State.badBindings (s : State) : Bool :=
  (allPairs s.producedBobs).any (fun p => p.1 == p.2) ||
  (List.range 128).any (fun b => decide (8 < (s.readBobs.filter (· == b)).length)) ||
  (s.producedBobs ++ s.readBobs).any (fun b => s.rd (F.GND_BCFG.EN b) == 0)

/-- DEFER where R413 asks for DROP_OLD, or B125 to B127 set otherwise than R416 fixes them. -/
def State.badPolicy (s : State) : Bool :=
  s.frontBobs.any (fun b => s.rd (F.GND_BCFG.POLICY b) == 1) ||
  [125, 126, 127].any (fun b => s.reg (R.GND_BCFG b) != resetKey (R.GND_BCFG b))

def State.bobsOn (s : State) : List Nat := (List.range 128).filter (fun b => s.rd (F.GND_BCFG.EN b) == 1)

/-- The page totals of R414. (DEDUCED, assumption 36.) -/
def State.badQuotas (s : State) : Bool :=
  let sum (place : Nat) : Nat := sumN (((s.bobsOn.filter (fun b => decide (b < 125))).filter
    (fun b => s.rd (F.GND_BCFG.PLACE b) == place)).map (fun b => s.rd (F.GND_BCFG.QUOTA b)))
  let rp := if s.rd F.GND_RCFG.EN = 1 then s.rd F.GND_RPAGES.RPAGES else 0
  decide (s.totalPages - 10_242 < sum 0 + rp + s.totalPages / 16 ∨ 952 < sum 1)

/-- The view the image asks for: both fibres of a valid geometry under its plans, at F0. (DEDUCED, assumption 36.) -/
def State.imageView (s : State) : View :=
  let a (x : Nat) : Option Acq :=
    if s.rd (F.SHOT_FLEN.LEN x) = 0 ∨ (s.geometryCodes x).isEmpty = false then none
    else
      let p := s.plan true x
      if p.nT = 0 then none else some { nch := s.fibreCount x, nT := p.nT, tr := s.trOf x p }
  { s.liveView with acq := ⟨a 0, a 1⟩, fsp := 0, extra := [] }

/-- Pages of 14 ms at a rate in bytes/s. -/
def pages14 (r : Rat) : Nat := (r * 14 / 1000 / 4096).ceil.toNat

/-- The pages that R415 asks of a bobbin: twice its producer's largest record, and 14 ms where pages stay SPEC. -/
def State.quotaNeed (s : State) (v : View) (b : Nat) : Nat :=
  let two (bytes : Nat) : Nat := 2 * ceilDiv bytes 4096
  let das (n : Nat) : Nat := 16 + 4 * n + 4 * ceilDiv n 4
  let spec := pages14 (s.bobBytes v b)
  match s.bobSet b with
  | some (x, _) => two (das (v.nch x)) + spec
  | none =>
    if s.rd F.GND_AUXBOB.EN = 1 ∧ s.rd F.GND_AUXBOB.BOB = b then two 24 + spec
    else match ([0, 1].filter s.dtsOn).find? (fun x => s.rd (F.DTS_BOB.RAW x) == b) with
      | some x => let n := min (s.nbActive x) 16384; two (16 + 4 * (8 + 4 * n + ceilDiv n 4)) + spec
      | none =>
        if s.laneOuts.contains b then two (16 + 4 * 16_380) + spec
        else match ([0, 1].filter (fun n => s.rd (F.DFL_CFG.EN n) == 1)).find? (fun n => s.rd (F.DFL_CFG.OUTBOB n) == b) with
          | some n =>
            let k := 1024 * s.rd (F.DFL_BLK.BLKSIZE n)
            two (16 + 32 + ceil4 (k + 5 * ceilDiv k 65_535 + 6))
          | none =>
            if s.exportBob.contains b then two (das (v.nch (s.rd F.GND_RCFG.FIBRE))) else 0

/-- Quotas below R415. -/
def State.badRoom (s : State) (v : View) : Bool :=
  (s.bobsOn.filter (fun b => decide (b < 125))).any (fun b => decide (s.rd (F.GND_BCFG.QUOTA b) < s.quotaNeed v b)) ||
  (match s.recallSource with
   | none => false
   | some (x, j) => decide (s.rd F.GND_RPAGES.RPAGES < 2 * ceilDiv (recallBytes (v.nch x)) 4096 +
       pages14 (recallBytes (v.nch x) * v.setRate x j)))

/-- Write-buffer marks (R450). -/
def State.badMarks (s : State) : Bool :=
  let lo := s.rd F.MEMC_WBUF.LOWM
  let hi := s.rd F.MEMC_WBUF.HIWM
  !decide (16 ≤ lo ∧ hi ≤ 240 ∧ lo + 32 ≤ hi)

/-! ## Network and compression (R473, R478, R488, R499, R501, R507) -/

/-- A stream's format suits its bobbin. -/
def State.formatOk (s : State) (i : Nat) : Bool :=
  let b := s.rd (F.NET_SCFG.BOBBIN i)
  let f := s.rd (F.NET_SCFG.FORMAT i)
  if (s.bobSet b).isSome then f == 1 || f == 2 || f == 3
  else if s.rd F.GND_AUXBOB.EN = 1 ∧ s.rd F.GND_AUXBOB.BOB = b then f == 4
  else if (s.dtsOut b).isSome then f == 5
  else if b = 127 then f == 7
  else if s.compOuts.contains b then f == 8
  else f == 6

def State.badNet (s : State) (v : View) : Bool :=
  [0, 1].any (fun p => (s.msec p == msecStatic && s.rd (F.NET_PCFG.SUITE p) == 0) ||
    (s.rd (F.NET_PCFG.FEC p) == 1 && s.rd (F.NET_PCFG.SPEED p) == 1) ||
    (s.rd (F.NET_PVLAN.VLAN p) == 1 && !decide (1 ≤ s.rd (F.NET_PVLAN.VID p) ∧ s.rd (F.NET_PVLAN.VID p) ≤ 4094))) ||
  (s.net.dests.map (·.1)).any (fun i => !s.formatOk i) || s.netErr v != 0

/-- A compressor's output bobbin is read by an alarm source slot; its other bindings fall under R285, R411 and R478. -/
def State.badComps (s : State) : Bool := s.alarmSlots.any (fun a => a.2.1 && s.compOuts.contains a.2.2)

/-! ## The whole configuration -/

/-- Some rule refuses the configuration. -/
def State.badConfig (s : State) : Bool :=
  let v := s.imageView
  s.badSources || s.badProfile || s.badFilters || s.badSpacing || s.badSensors || s.badAlarms || s.badLanes || s.badBindings ||
    s.badPolicy || s.badQuotas || s.badRoom v || !s.groundFits v || s.laneOver v (fun _ => true) || s.badMarks || s.badNet v ||
    s.badComps

/-- The machine that an image's records give, checked whole; the record behind a rule over several is not stated and is free. (DESIGN
CHOICE, assumption 35.) -/
def configure (i : Image) (s : State) : Except Refused617 State :=
  match applyRecs (fun _ => true) i.recs [] s with
  | .error e => .error e
  | .ok s1 =>
    let s2 := loadSolutions s1
    if s1.badSolution || s2.badConfig then
      let v := s2.imageView
      .error { err := aeRule, index := Config.freeNat s.fresh % max 1 i.recs.length,
               gnd := if s2.badQuotas then 3 else s2.groundErr v, net := s2.netErr v, comps := s2.compsOver v }
    else .ok s2

end Sys2Proof.Machine
end

