-- ==== Sys2Proof/Machine/Text.lean ====
section
/-!
DEFINITION. ASCII text of the monitor (R632, R633): numbers and words printed, and words and numbers read.
-/
namespace Sys2Proof.Machine

def charByte (c : Char) : Byte := BitVec.ofNat 8 c.toNat

/-- The bytes of a text. -/
def text (t : String) : List Byte := t.toList.map charByte

/-- A hexadecimal digit, upper case. -/
def hexDigit (v : Nat) : Byte := BitVec.ofNat 8 (if v < 10 then 48 + v else 55 + v)

/-- `n` hexadecimal digits of a number, most significant first. -/
def hexOf (n v : Nat) : List Byte := (List.range n).map (fun i => hexDigit (v / 16 ^ (n - 1 - i) % 16))

/-- A register word or address as the monitor prints it: 0x and two groups of four digits. -/
def hexWord (v : Nat) : List Byte := text "0x" ++ hexOf 4 (v / 65536) ++ text "_" ++ hexOf 4 v

/-- Decimal digits by fuel, most significant first. -/
def decFuel : Nat → Nat → List Byte
  | 0, _ => []
  | n + 1, v => (if v < 10 then [] else decFuel n (v / 10)) ++ [BitVec.ofNat 8 (48 + v % 10)]

def decOf (v : Nat) : List Byte := decFuel 100 v

def decOfInt (v : Int) : List Byte := (if v < 0 then text "-" else []) ++ decOf v.natAbs

/-- Words of a line: runs of characters between spaces. -/
def wordsOf (l : List Byte) : List (List Byte) :=
  let p := l.foldr (fun (b : Byte) (p : List Byte × List (List Byte)) =>
    if b = 32 then (if p.1.isEmpty then p else ([], p.1 :: p.2)) else (b :: p.1, p.2)) ([], [])
  if p.1.isEmpty then p.2 else p.1 :: p.2

/-- Upper case. -/
def upper (l : List Byte) : List Byte := l.map (fun b => if 97 ≤ b.toNat ∧ b.toNat ≤ 122 then b - 32 else b)

/-- The value of a digit in a base up to 16, if it is one. -/
def digitOf (base : Nat) (b : Byte) : Option Nat :=
  let n := b.toNat
  let v := if 48 ≤ n ∧ n ≤ 57 then n - 48 else if 65 ≤ n ∧ n ≤ 70 then n - 55 else if 97 ≤ n ∧ n ≤ 102 then n - 87 else 16
  if v < base then some v else none

/-- A run of digits, underscores among them passed over; none without a digit or with another character. -/
def digitsOf (base : Nat) (under : Bool) (l : List Byte) : Option Nat :=
  let ds := if under then l.filter (· != 95) else l
  if ds.isEmpty then none
  else ds.foldl (fun (a : Option Nat) b => match a, digitOf base b with
    | some v, some d => some (v * base + d)
    | _, _ => none) (some 0)

/-- A number: decimal, or 0x followed by hexadecimal digits with or without underscores (R632). -/
def numberOf (l : List Byte) : Option Nat :=
  match l with
  | 48 :: 120 :: t => digitsOf 16 true t
  | 48 :: 88 :: t => digitsOf 16 true t
  | _ => digitsOf 10 false l

/-- The device prints. -/
def State.print (s : State) (l : List Byte) : State := (s.modMon (fun q => { q with out := s.mon.out ++ l }))

/-- A line ends with CR LF. -/
def State.printLine (s : State) (l : List Byte) : State := s.print (l ++ [13, 10])

/-- Words joined by single spaces. -/
def spaced : List (List Byte) → List Byte
  | [] => []
  | [a] => a
  | a :: t => a ++ [32] ++ spaced t

def State.prompt (s : State) : State := s.print (text "efras> ")

end Sys2Proof.Machine
end

