-- ==== Sys2Proof/Machine/Flash.lean ====
section
/-!
DEFINITION. The flash and its stores (R610–R612, R620–R629): the calibration store, the event log, and transfers of images and
tables.
-/
namespace Sys2Proof.Machine

/-! ## Slots (R611, R619, R620) -/

/-- The mark of a slot: FAILA or FAILB. -/
def markFld (k : Nat) : Fld := if k = 0 then F.SYS_IMG.FAILA else F.SYS_IMG.FAILB

/-- The header of a slot that passes the checks of R613. -/
def State.slotHeader (s : State) (k : Nat) : Option Header :=
  let ws := s.flash.slots.at k
  match headerOf false ws with
  | none => none
  | some h =>
    if ws.length < h.length / 4 then none
    else match recordsOf h.nrec (wordsAt ws 64 (h.length / 4 - 64)) with
      | some (_, rest) => if rest.length = 24 then some h else none
      | none => none

/-- A slot with its GENERATION, if it is a candidate of R619. -/
def State.candidate (s : State) (k : Nat) : Option Nat :=
  if s.rd (markFld k) = 1 then none else (s.slotHeader k).map (·.gen)

/-- The candidate to try first: the higher GENERATION, slot A of two equal ones. -/
def State.firstSlot (s : State) : Option Nat :=
  match s.candidate 0, s.candidate 1 with
  | none, none => none
  | some _, none => some 0
  | none, some _ => some 1
  | some a, some b => if a < b then some 1 else some 0

/-- The running operation is of kind `j`: the oldest pending one (R612); the calibration store is not written before an image runs. -/
def State.flashTurn (s : State) (j : FlashJob) : Bool :=
  (s.flash.jobs.filter (fun i => i != .cal || s.boot.image.isSome)).head? == some j

/-- The supervisor has found a flash. -/
def State.hasFlash (s : State) : Bool := s.rd F.SYS_FLASH.MODE != 0

/-! ## The calibration store (R621, R622)

A copy is a list of words: the header, 12 words for each slice (OFS, SKEW, CALTEMP, six words of MAG and DELAY as SLC_GCAL_DATA holds
them, the timebase in two words, VALID), 3 words for each converter (GAIN, OFS, VALID), and the CRC-32. The order within an entry is a
DESIGN CHOICE. -/

def calMagic : Nat := 0x4C41_4343
def calWords : Nat := 4 + 15 * 12 + 2 * 3 + 1

/-- A copy is valid. -/
def calValid (ws : List Word) : Bool :=
  decide (1 ≤ ws.length ∧ (wordAt ws 0).toNat = calMagic ∧
    (wordAt ws (ws.length - 1)).toNat = crc32 (wordsToBytes (ws.take (ws.length - 1))))

/-- Sequence number a is newer than b. -/
def calNewer (a b : Nat) : Bool :=
  let d := (a + 2 ^ 32 - b) % 2 ^ 32
  decide (1 ≤ d ∧ d ≤ 2 ^ 31 - 1)

/-- The newer valid copy. -/
def State.calCopy (s : State) : Option Nat :=
  let a := s.flash.cals.a
  let b := s.flash.cals.b
  match calValid a, calValid b with
  | false, false => none
  | true, false => some 0
  | false, true => some 1
  | true, true => some (if calNewer (wordAt b 1).toNat (wordAt a 1).toNat then 1 else 0)

/-- SYS_FLASH shows the copies. -/
def showCals (s : State) : State :=
  s.wrs [(F.SYS_FLASH.CAL0, b2n (calValid s.flash.cals.a)), (F.SYS_FLASH.CAL1, b2n (calValid s.flash.cals.b)),
    (F.SYS_FLASH.CALNEW, s.calCopy.getD 0)]

/-- The entry of a slice, from the coefficients it runs with. (DESIGN CHOICE, assumption 64.) -/
def State.sliceEntry (s : State) (n : Nat) : List Word :=
  let tb := mapGet (fun _ => (0 : Nat)) s.slices.calTb n
  [w32I (s.rdI (F.SLC_CALOFS.OFS n)), w32I (s.rdI (F.SLC_CALSKEW.SKEW n)), w32I (s.rdI (F.SLC_CALOFS.CALTEMP n))] ++
    (List.range 6).map (fun g => s.reg (R.SLC_GCAL_DATA (6 * n + g))) ++
    [w32 tb, w32 (tb / 2 ^ 32), w32 (b2n (mapGet (fun _ => (0 : Nat)) s.slices.calTimes n != 0))]

/-- The entry of a converter; one that is fenced has none. -/
def State.hkEntry (s : State) (c : Nat) : List Word :=
  let (g, o) := if c = 0 then (s.rd F.HK_COEF_A.GAIN, s.rdI F.HK_COEF_A.OFS) else (s.rd F.HK_COEF_B.GAIN, s.rdI F.HK_COEF_B.OFS)
  let fenced := s.hkActive != c && (s.idleSt == ihFenced || s.idleSt == ihTest)
  [w32 g, w32I o, w32 (b2n (!fenced))]

/-- A whole copy with a sequence number. (DESIGN CHOICE, assumption 64.) -/
def State.calImage (s : State) (seq : Nat) : List Word :=
  let body := [w32 calMagic, w32 seq, w32 (4 * calWords), w32 17] ++ (List.range 15).flatMap s.sliceEntry ++
    s.hkEntry 0 ++ s.hkEntry 1
  body ++ [w32 (crc32 (wordsToBytes body))]

/-- The copy that a write goes to: the invalid one, or the older of two valid ones. -/
def State.calTarget (s : State) : Nat := match s.calCopy with | some c => 1 - c | none => 0

/-- CAL_STORE_WRITE: the other copy is erased and written whole. -/
def calStoreWrite (s : State) : State :=
  if s.flash.calDirty = true ∧ s.hasFlash = true ∧ s.flashTurn .cal = true then
    let seq := match s.calCopy with | some c => (wordAt (s.flash.cals.at c) 1).toNat | none => 0
    showCals (s.modFlash (fun f => { f with cals := f.cals.upd s.calTarget (s.calImage (seq + 1)), calDirty := false,
                                            jobs := f.jobs.erase .cal }))
  else s

/-- A reset while the store is written leaves the newer copy intact; whether the other one was already erased is not known (R622). -/
def calInterrupted (s : State) : State :=
  if s.hasFlash = true ∧ s.flashTurn .cal = true then
    let s1 := s.spend 1
    if Config.freeNat s.fresh % 2 = 1 then s1.modFlash (fun f => { f with cals := f.cals.upd s.calTarget [] }) else s1
  else s

def execCalStoreWrite (s : State) : Host.Outcome State Fault Refusal := done (calStoreWrite s)

/-- A slice's stored coefficients, if its entry of the newer copy is VALID. -/
def State.storedSlice (s : State) (n : Nat) : Option (List Word) :=
  s.calCopy.bind (fun c =>
    let e := wordsAt (s.flash.cals.at c) (4 + 12 * n) 12
    if wordAt e 11 = 0 then none else some e)

def State.storedHk (s : State) (k : Nat) : Option (Nat × Int) :=
  s.calCopy.bind (fun c =>
    let e := wordsAt (s.flash.cals.at c) (4 + 12 * 15 + 3 * k) 3
    if wordAt e 2 = 0 then none else some ((wordAt e 0).toNat % 65536, (wordAt e 1).toInt))

/-! ## The event log (R623) -/

/-- A log entry's 64 bytes. -/
def logEntry (seq cold : Nat) (r : Record) : List Byte :=
  let b := (recordBytes r).take 48 ++ leBytes 4 seq ++ leBytes 4 cold ++ leBytes 4 0
  b ++ leBytes 4 (crc32 b)

/-- EVENT_LOG_WRITE, in its turn: the oldest waiting record takes the next place; a full log loses its oldest sector first. -/
def eventLogWrite (s : State) : State :=
  match s.flash.logQueue with
  | [] => s
  | r :: t =>
    if s.hasFlash = true ∧ s.flashTurn .log = true then
      s.modFlash (fun f =>
        let kept := if f.logPlaces ≤ f.log.length then f.log.drop 1024 else f.log
        { f with logQueue := t, log := kept ++ [logEntry f.logSeq f.coldCount r], logSeq := (f.logSeq + 1) % 2 ^ 32,
                 jobs := f.jobs.erase .log })
    else s

def execEventLogWrite (s : State) : Host.Outcome State Fault Refusal := done (eventLogWrite s)

/-! ## Transfers (R625–R629) -/

/-- The transfer ends with a result. -/
def xferEnd (res : Nat) (s : State) : State :=
  (s.modFlash (fun f => { f with transfer := none, jobs := f.jobs.filter (· ≠ .transfer) })).wrs
    [(F.SYS_XFER.OPEN, 0), (F.SYS_XFER.BUSY, 0), (F.SYS_XFER.RESULT, res)]

/-- A reset ends an open transfer; a slot target was erased at OPEN and stays invalid. -/
def xferReset (s : State) : State := if s.flash.transfer.isSome then xferEnd 7 s else s

/-- OPEN: the header sector and those that LENGTH covers are erased, one operation each. (DEDUCED, assumption 47.) -/
def xferOpen (dest len : Nat) (s : State) : State :=
  if s.flash.transfer.isSome then s.answer .busy
  else if dest = 3 ∨ (dest < 2 ∧ (dest = s.rd F.SYS_IMG.RUN ∨ 33_554_432 < len ∨ s.hasFlash = false)) ∨
      (dest = 2 ∧ 1_048_576 < len) then s.answer .refused
  else
    let ops := if dest = 2 then 0 else max 1 (ceilDiv len 65536)
    let s1 := s.modFlash (fun f => { f with
      transfer := some { dest := dest, length := len, words := [], ops := ops },
      jobs := f.jobs ++ List.replicate ops .transfer, slots := if dest = 2 then f.slots else f.slots.upd dest [] })
    (s1.wrs [(F.SYS_XFER.OPEN, 1), (F.SYS_XFER.DEST, dest), (F.SYS_XFER.BUSY, b2n (ops != 0)), (F.SYS_XFER.RESULT, 0),
      (F.SYS_XFER.NEXT, 0)]).answer .ok

/-- DATA: the words at the next offset are programmed, page by page; a repeated request has no effect. -/
def xferData (ofs : Nat) (ws : List Word) (s : State) : State :=
  match s.flash.transfer with
  | none => s.answer .refused
  | some t =>
    let n := t.words.length
    if t.ops ≠ 0 then s.answer .refused
    else if ofs = 4 * n then
      if t.length < 4 * (n + ws.length) then s.answer .refused
      else
        let pages := if t.dest = 2 ∨ ws.isEmpty = true then 0 else (4 * (n + ws.length) - 1) / 256 - ofs / 256 + 1
        ((s.modFlash (fun f => { f with
            transfer := some { t with words := t.words ++ ws, ops := pages }, jobs := f.jobs ++ List.replicate pages .transfer })).wrs
          [(F.SYS_XFER.NEXT, n + ws.length), (F.SYS_XFER.BUSY, b2n (pages != 0))]).answer .ok
    else if ofs < 4 * n ∧ ofs % 4 = 0 ∧ wordsAt t.words (ofs / 4) ws.length = ws then s.answer .ok
    else s.answer .refused

/-- ABORT. -/
def xferAbort (s : State) : State :=
  if s.flash.transfer.isNone then s.answer .refused else (xferEnd 7 s).answer .ok

/-- FLASH_OP_COMPLETE (R612): the running erase or program of the transfer ends; one that does not verify ends the transfer. -/
def flashOp (ok : Bool) (s : State) : State :=
  match s.flash.transfer with
  | none => s
  | some t =>
    if t.ops = 0 ∨ s.flashTurn .transfer = false then s
    else if ok then
      (s.modFlash (fun f => { f with transfer := some { t with ops := t.ops - 1 }, jobs := f.jobs.erase .transfer })).wr
        F.SYS_XFER.BUSY (b2n (t.ops != 1))
    else xferEnd 8 s

def execFlashOpComplete (ok : Bool) (s : State) : Host.Outcome State Fault Refusal := done (flashOp ok s)

/-- The machine that a reset would give an image to configure. -/
def State.bare (s : State) : State :=
  { State.reset with fresh := s.fresh, now := s.now, secu := s.secu,
                     regs := s.regs.filter (fun p => decide (0x140000 ≤ p.1 ∧ p.1 < 0x150000)) }

/-- Show a refusal of R617. -/
def showRefused617 (e : Refused617) (s : State) : State :=
  let s1 := s.wrs [(F.SYS_IMG.APPLYERR, e.err), (F.SYS_IMG.RECIDX, e.index)]
  let s2 := if e.gnd = 0 then s1 else s1.wr F.GND_STAT.ERR e.gnd
  let s3 := if e.net = 0 then s2 else s2.wr F.NET_BUDGET.ERR e.net
  e.comps.foldl (fun (s : State) n => s.wr (F.DFL_STAT.ERR n) 1) s3

/-- CLOSE of a slot, after the length check: its bytes stand in the slot, and what R626 finds of them is shown. -/
def closeSlot (t : Transfer) (s : State) : State :=
  let k := t.dest
  let s0 := s.modFlash (fun f => { f with slots := f.slots.upd k t.words })
  match authenticate false k none t.words s0 with
  | (s1, .failed code) => xferEnd (if code = 8 then 4 else 2) (s1.wr F.SYS_IMG.XAUTH code)
  | (s1, .passed i) =>
    let s2 := s1.wr F.SYS_IMG.XAUTH 0
    match configure i s2.bare with
    | .error e => xferEnd 3 (s2.wrs [(F.SYS_IMG.APPLYERR, e.err), (F.SYS_IMG.RECIDX, e.index)])
    | .ok _ =>
      let above := match s2.slotHeader (1 - k) with | some h => decide (h.gen < i.gen) | none => true
      if above then xferEnd 1 (s2.wr (markFld k) 0) else xferEnd 5 s2

/-- The register writes of a table, with their record indices; none where a record is not REGS or ITAB or is malformed. -/
def tableWrites : List ImgRec → Except Refused617 (List (Nat × Nat × Word))
  | [] => .ok []
  | r :: t =>
    let pairs := if r.typ = 1 then (if r.words.length % 2 = 1 then none else some r.words)
      else if r.typ = 2 then itabPairs r.words else none
    match pairs with
    | none => .error { err := if r.typ = 1 ∨ r.typ = 2 then aeField else aeType, index := r.index }
    | some l => (tableWrites t).map (fun u =>
      (List.range (l.length / 2)).map (fun i => (r.index, (wordAt l (2 * i)).toNat, wordAt l (2 * i + 1))) ++ u)

/-- A field that the write would change is not runtime-writable (R627). -/
def State.tableDenies (s : State) (p : Nat × Nat × Word) : Bool :=
  p.2.1 % 4 != 0 || (match regDef? p.2.1 with
    | none => true
    | some r => r.denied (s.reg (s.keyOf p.2.1)).toNat p.2.2.toNat)

/-- A value outside the range of a field that the write sets (R617, R624). -/
def tableStrays (p : Nat × Nat × Word) : Bool :=
  match regDef? p.2.1 with
  | none => false
  | some r => !r.admits (fun f => f.host && f.acc == .rw) p.2.2.toNat

/-- Runtime writes up to the first whose status is not OK: the record behind that one. -/
def tableApply (auth : Option Nat) : List (Nat × Nat × Word) → State → State × Option Nat
  | [], s => (s, none)
  | (i, a, w) :: t, s =>
    let s1 := busWrite auth a w s
    if s1.status = .ok then tableApply auth t s1 else (s1, some i)

/-- CLOSE of a table, after the length check (R627). -/
def closeTable (auth : Option Nat) (t : Transfer) (s : State) : State :=
  match authenticate true 3 none t.words s with
  | (s1, .failed code) => xferEnd (if code = 8 then 4 else 2) (s1.wr F.SYS_IMG.XAUTH code)
  | (s1, .passed i) =>
    let s2 := s1.wr F.SYS_IMG.XAUTH 0
    let refuse (e : Refused617) : State := xferEnd 3 (s2.wrs [(F.SYS_IMG.APPLYERR, e.err), (F.SYS_IMG.RECIDX, e.index)])
    match tableWrites i.recs with
    | .error e => refuse e
    | .ok l =>
      match l.find? s2.tableDenies with
      | some p => refuse { err := aeField, index := p.1 }
      | none =>
      match l.find? tableStrays with
      | some p => refuse { err := aeRule, index := p.1 }
      | none =>
        match tableApply auth l s2 with
        | (s3, none) => xferEnd 1 s3
        | (s3, some idx) => xferEnd 9 (s3.wr F.SYS_IMG.RECIDX idx)

/-- CLOSE (R626), with the key slot of its authority. -/
def xferClose (auth : Option Nat) (s : State) : State :=
  match s.flash.transfer with
  | none => s.answer .refused
  | some t =>
    if t.ops ≠ 0 then s.answer .refused
    else if 4 * t.words.length ≠ t.length then (xferEnd 6 s).answer .ok
    else (if t.dest = 2 then closeTable auth t s else closeSlot t s).answer .ok

end Sys2Proof.Machine
end

