-- ==== Sys2Proof/Machine/Reset.lean ====
section
/-!
DEFINITION. Reset sources, reaches and episodes (R582–R595): what an assertion does at its instant.
-/
namespace Sys2Proof.Machine

/-! ## Sources and reaches (R586–R589) -/

/-- Source codes, as the bits of SYS_CAUSE. -/
def srPor : Nat := 0
def srBor : Nat := 1
def srPin : Nat := 2
def srTherm : Nat := 3
def srWdt : Nat := 4
def srLock : Nat := 5
def srMon : Nat := 6
def srMgmt : Nat := 7
def srImg : Nat := 8

/-- Reach codes, as in SYS_REACH.LAST. -/
def rchCold : Nat := 1
def rchFabric : Nat := 2
def rchWarm : Nat := 3
def rchAcq : Nat := 4

/-- The reach in force for a source: POR is always COLD, the others as SYS_RTBL has them. -/
def State.reachOf (s : State) (src : Nat) : Nat :=
  if src = srPor then rchCold else (s.reg R.SYS_RTBL).toNat / 8 ^ (src - 1) % 8

/-- The reach that a fused code gives a source (R589). -/
def fusedReach (src code : Nat) : Nat :=
  if code = 0 then (if src = srMon ∨ src = srMgmt then rchWarm else rchFabric)
  else if code ≤ 3 then code
  else if code = 4 then (if src = srMon ∨ src = srMgmt then rchAcq else rchFabric)
  else rchCold

/-- SYS_RTBL as option loading forms it from the fuses. -/
def State.fusedTable (s : State) : Word :=
  w32 (sumN ((List.range 8).map (fun i =>
    let src := i + 1
    fusedReach src (((s.secu.reach.find? (·.1 == src)).map (·.2)).getD 0) * 8 ^ i)))

/-! ## The reset state (R587, R593) -/

/-- A register that a reset of a reach above ACQ leaves, whole or in part. A HELD recall window keeps its registers under WARM.
(DEDUCED, assumption 40.) -/
def keptReg (reach : Nat) (window : Bool) (k : Nat) : Bool :=
  k == R.SYS_CAUSE || k == R.SYS_REACH || k == R.SYS_RAIL || k == R.SYS_IMG || k == R.SYS_FLASH || k == R.SYS_RTBL ||
  k == R.SEC_STAT || decide (0x140000 ≤ k ∧ k < 0x150000) || (reach != rchCold && k == R.SYS_OPT) ||
  (reach == rchWarm && (k == R.SEC_DEVID_LO || k == R.SEC_DEVID_HI || decide (R.SEC_IDPUB 0 ≤ k ∧ k < R.SEC_IDPUB 24))) ||
  (window && (k == R.GND_RCFG || k == R.GND_RPAGES || k == R.GND_RSTAT))

/-- Clear what a kept register does not keep: of SYS_IMG the marks stay, of SYS_FLASH the drop count outside COLD, of SEC_STAT the
lifecycle and under WARM the debug flag. -/
def trimKept (reach : Nat) (s : State) : State :=
  let img := s.rd F.SYS_IMG.FAILA * 2 ^ 29 + s.rd F.SYS_IMG.FAILB * 2 ^ 28 + 3 * 2 ^ 30
  let drop := if reach = rchCold then 0 else s.rd F.SYS_FLASH.LOGDROP * 2 ^ 16
  let sec := s.life + (if reach = rchWarm then s.rd F.SEC_STAT.DBGUSED * 2 ^ 5 else 0)
  ((s.setReg R.SYS_IMG (w32 img)).setReg R.SYS_FLASH (w32 drop)).setReg R.SEC_STAT (w32 sec)

/-- A slice that its failure limit holds stays fenced through WARM; its function of the home map goes to the spare, or is lost.
(DEDUCED, assumption 40.) -/
def keepFenced (n : Nat) (s : State) : State :=
  let s1 := s.wrs [(F.SLC_STAT.MODE n, slFenced), (F.SLC_STAT.FAULT n, s.unitFault n), (F.SLC_STAT.FUNC n, 0xF)]
  if n = s.spareSlice then s1.wr F.SLC_ROLE1.SPARE 0xF
  else if s.spareSlice = 0xF ∨ s.unitHeld s.spareSlice = true then s1.wr (roleFld n) 0xF
  else s1.wrs [(roleFld n, s.spareSlice), (F.SLC_ROLE1.SPARE, 0xF)]

/-- A converter that its failure limit holds stays fenced through WARM, as the idle one. (DEDUCED, assumption 40.) -/
def keepHk (s : State) : State :=
  if s.unitHeld (hkUnit 0) then s.wrs [(F.HK_STAT.ACTIVE, 1), (F.HK_STAT.IDLEST, ihFenced)]
  else if s.unitHeld (hkUnit 1) then s.wr F.HK_STAT.IDLEST ihFenced
  else s

/-- The DRAM keeps its contents through a WARM reach: its clock and rails hold, and its ranks were trained or lie in self-refresh
(R588). -/
def State.dramHolds (s : State) : Bool :=
  (s.memc.held || !s.memc.selfRef) && nthBit (s.rd F.SYS_RAIL.GOOD) 0 && nthBit (s.rd F.SYS_RAIL.GOOD) 4 &&
    nthBit (s.rd F.SYS_RAIL.GOOD) 5

/-- The state of a COLD, FABRIC or WARM reset at its assertion: everything as after power-on but for what its reach keeps. -/
def enterReset (reach : Nat) (s0 : State) : State :=
  let s := calInterrupted (fuseInterrupted s0)
  let r := State.reset
  let warm := reach == rchWarm
  let window := warm && s.rcState == rcHeld
  let t := hkEdge s.now
  let s1 : State := { r with
    regs := s.regs.filter (fun p => keptReg reach window p.1),
    now := s.now, fresh := s.fresh, status := s.status, value := s.value, pending := s.pending,
    pins := { s.pins with ppsOut := false, ppsFall := none },
    src := { r.src with forced := s.src.forced, emitLowAt := s.src.emitLowAt },
    flash := { s.flash with transfer := none, logQueue := [], calDirty := false, jobs := [] },
    hk := { r.hk with free := t, tblStart := t, monDue := t, refFrom := s.now },
    health := if warm then { r.health with fails := s.health.fails, held := s.health.held, faults := s.health.faults } else r.health,
    ground := if window then { r.ground with rcl := { s.ground.rcl with exporting := [] } } else r.ground,
    memc := { r.memc with held := warm && s.dramHolds },
    secu := { r.secu with fleetKey := s.secu.fleetKey, fleetSpoiled := s.secu.fleetSpoiled, reach := s.secu.reach,
                          identity := warm && s.secu.identity },
    mon := { r.mon with out := s.mon.out },
    net := { r.net with sent := s.net.sent },
    boot := { s.boot with release := none, counted := false, stopped := false, loaded := none, image := none, autoDue := false } }
  let s2 := trimKept reach s1
  let s3 := if window then s2.wr F.GND_RSTAT.EXPBUSY 0 else s2
  if warm then keepHk (((List.range 15).filter s3.unitHeld).foldl (fun (s : State) n => keepFenced n s) s3) else s3

/-! ## The ACQ reach (R237, R299, R318, R516, R595) -/

/-- What an ACQ assertion does to one fibre. -/
def acqFibre (x : Fibre) (s : State) : State :=
  let xi := x.idx
  let s1 := (s.liveToShadow xi).wr (F.SHOT_STAGE.PEND xi) 0
  let s2 := (profileDrop xi s1).modSch x (fun c => { Sched.idle with
    nextSeq := c.nextSeq, round := c.round, tB := c.tB, tr := c.tr, nT := c.nT, ramanLast := c.ramanLast, gate := c.gate,
    gateCut := c.gateCut, forcedAt := c.forcedAt, pulse := c.pulse, trig := c.trig })
  let s3 := (discardUncommitted x s2).wrs [(F.SHOT_STAT.STATE xi, 0), (F.SHOT_STAT.RUNRND xi, 0), (F.SHOT_STAT.SEEDED xi, 0),
    (F.CMT_STAT.STATE xi, cmIdle), (F.FRP_STAT.ACTIVE xi, 0)]
  let s4 := { s3 with ground := { s3.ground with replayPages := s3.ground.replayPages.upd xi 0 },
                      health := { s3.health with darkFor := s3.health.darkFor.upd xi false } }
  zonesIdle x (adoptSetsIdle x (sourceStopped x (dtsStop x (showReplay x 0 s4))))

/-- What an ACQ assertion does beyond the fibres. -/
def enterAcq (s : State) : State :=
  let s1 := testStart (fibres.foldl (fun (s : State) x => acqFibre x s) (calReset s))
  let s2 := foldS (fun (p : Nat × Logical) s => laneInit false p.1 s) s1.lanes.ll s1
  let s3 := [0, 1].foldl (fun (s : State) n => if s.rd (F.DFL_CFG.EN n) = 1 then closeBlock n true s else s) s2
  let s4 := xferReset s3
  let s5 := s4.modBoot (fun b => { b with release := none })
  if s5.boot.sources.contains srMon then endSession s5 else s5

/-! ## Assertion (R587–R592) -/

/-- POR clears the records of the AON island (R587, R592, R609, R620). -/
def porClears (s : State) : State :=
  (s.setReg R.SYS_CAUSE 1).setReg R.SYS_REACH (resetKey R.SYS_REACH) |>.wrs
    [(F.SYS_RAIL.LOSS, 0), (F.SYS_IMG.FAILA, 0), (F.SYS_IMG.FAILB, 0)]

/-- A source is asserted, until `till` for a pulse: an episode begins, or the source joins the running one. `lost` says that the MEM
PLL has lost lock. (DEDUCED, assumption 38.) -/
def assertSource (src : Nat) (till : Option Nat) (lost : Bool) (s : State) : State :=
  let s1 := if src = srPor then porClears s else s.setReg R.SYS_CAUSE (s.reg R.SYS_CAUSE ||| w32 (2 ^ src))
  let b := s1.boot
  let fresh := b.episode.isNone
  let r0 := min (s1.reachOf src) (b.episode.getD rchAcq)
  let deep := r0 == rchWarm && (lost || !s1.dramHolds)
  let r := if deep then rchFabric else r0
  let s2 := s1.modBoot (fun b => { b with
    asserted := b.asserted.filter (·.1 ≠ src) ++ [(src, till)],
    sources := if fresh then [src] else b.sources.filter (· ≠ src) ++ [src],
    episode := some r, startAt := if fresh then s.now else b.startAt,
    deepened := deep || (!fresh && b.deepened) })
  if r = rchAcq then enterAcq s2 else enterReset r s2

/-- A pulse of 10 µs (R586). (DEDUCED, assumption 44.) -/
def pulseSource (src : Nat) (s : State) : State := assertSource src (some (s.now + 10_000)) false s

/-- A level source is released. -/
def releaseSource (src : Nat) (s : State) : State :=
  s.modBoot (fun b => { b with asserted := b.asserted.filter (·.1 ≠ src) })

/-- RAIL_LOST (R582, R583): rail n of SYS_RAIL, or VAON as 7, has been below its falling threshold for 1 µs. -/
def railLost (n : Nat) (s : State) : State :=
  if n = 7 then assertSource srPor none false (s.modBoot (fun b => { b with vaon := false }))
  else
    let good := s.rd F.SYS_RAIL.GOOD
    let s1 := if nthBit good n then
        s.wrs [(F.SYS_RAIL.GOOD, good - 2 ^ n), (F.SYS_RAIL.LOSS, setBit (s.rd F.SYS_RAIL.LOSS) n)]
      else s
    assertSource srBor none false s1

/-- RAILS_STABLE (R583): POR and BOR are released. -/
def railsStable (s : State) : State :=
  releaseSource srBor (releaseSource srPor ((s.modBoot (fun b => { b with vaon := true })).wr F.SYS_RAIL.GOOD 0x7F))

/-- PIN (R586): RESET_N has been low, or high, for `ns`. (DESIGN CHOICE, assumption 18.) -/
def pinEvent (low : Bool) (ns : Nat) (s : State) : State :=
  let s1 := (s.modPins (fun q => { q with resetN := !low }))
  if low then
    if ns < 100 then s1
    else if ns < 1000 ∧ Config.freeNat s.fresh % 2 = 0 then { s1 with fresh := s.fresh + 1 }
    else assertSource srPin none false { s1 with fresh := if ns < 1000 then s.fresh + 1 else s.fresh }
  else if 1000 ≤ ns then releaseSource srPin s1
  else s1

/-- THERM (R586): the die sensors read `t0`, `t1`, `t2` in 0.1 °C. -/
def thermEvent (t0 t1 t2 : Int) (s : State) : State :=
  if 1250 ≤ t0 ∨ 1250 ≤ t1 ∨ 1250 ≤ t2 then assertSource srTherm none false s
  else if t0 ≤ 1150 ∧ t1 ≤ 1150 ∧ t2 ≤ 1150 then releaseSource srTherm s
  else s

/-- LOCK (R41): the MEM PLL, or the root PLL, has lost lock. (DEDUCED, assumption 38.) -/
def lockLost (mem : Bool) (s : State) : State :=
  let f := if mem then F.CLK_STAT.MEM_LOCK else F.CLK_STAT.ROOT_LOCK
  if s.rd f = 1 ∨ s.inReset = true then
    (assertSource srLock (some (s.now + 10_000)) mem s).wr (if mem then F.CLK_STAT.MEM_LOST else F.CLK_STAT.ROOT_LOST) 1
  else s

/-- Level sources of R586. -/
def isLevel (src : Nat) : Bool := decide (src ≤ srTherm)

def execRailLost (n : Fin 8) (s : State) : Host.Outcome State Fault Refusal := done (railLost n s)
def execRailsStable (s : State) : Host.Outcome State Fault Refusal := done (railsStable s)
def execPin (low : Bool) (ns : Nat) (s : State) : Host.Outcome State Fault Refusal := done (pinEvent low ns s)
def execTherm (t0 t1 t2 : Int) (s : State) : Host.Outcome State Fault Refusal := done (thermEvent t0 t1 t2 s)
def execWdt (s : State) : Host.Outcome State Fault Refusal := done (pulseSource srWdt s)
def execLock (mem : Bool) (s : State) : Host.Outcome State Fault Refusal := done (lockLost mem s)

/-- RESET_EPISODE (R590): source `src` is asserted. -/
def execResetEpisode (src : Fin 9) (s : State) : Host.Outcome State Fault Refusal :=
  done (if isLevel src then assertSource src none false s else pulseSource src s)

end Sys2Proof.Machine
end

