-- ==== Sys2Proof/Machine/Boot.lean ====
section
/-!
DEFINITION. The release sequences and the boot sequence (R590–R601, R617–R626): option loading, ROM start, the choice and the
application of an image, lane loading, and the automatic start.
-/
namespace Sys2Proof.Machine

/-! ## Option loading (R528, R589, R596, R597) -/

/-- A reading in mV lies within 10 mV of a boundary n × 100 mV, n = 1 to 16. -/
def nearBoundary (v : Nat) : Bool := (List.range 16).any (fun i => decide ((i + 1) * 100 ≤ v + 10 ∧ v ≤ (i + 1) * 100 + 10))

/-- The band that successive readings give, with the last reading used; none is OPTERR. -/
def optBand : List Nat → Nat × Option Nat
  | [] => (0, none)
  | v :: t =>
    if 1590 < v then (v, none)
    else if nearBoundary v then (if t.isEmpty then (v, none) else optBand t)
    else (v, some (v / 100))

/-- SYS_OPT after the measurement. -/
def optWord (readings : List Nat) : Word :=
  let (v, b) := optBand readings
  let band := b.getD 0
  w32 (2 ^ 31 + b2n b.isNone * 2 ^ 30 + b2n (decide (8 ≤ band)) * 2 ^ 19 + band / 2 % 4 * 2 ^ 17 + band % 2 * 2 ^ 16 + v % 4096 * 16 + band)

/-- The option loading of a COLD release: the fuse shadow, read alike or not, and OPTSEL. (DESIGN CHOICE, assumption 37.) -/
def optionLoad (fusesOk : Bool) (readings : List Nat) (s : State) : State :=
  let s1 := (s.setReg R.SYS_RTBL s.fusedTable).setReg R.SYS_OPT (optWord readings)
  let s2 := s1.wr F.SEC_STAT.LIFE (if fusesOk then s.lifeOf else lifeFault)
  s2.modFlash (fun f => { f with coldCount := f.coldCount + 1 })

/-! ## The end of an episode (R591, R592, R604) -/

def episodeEnd (s : State) : State :=
  let r := s.boot.episode.getD rchAcq
  ((s.bump F.SYS_REACH.EPIS).wrs [(F.SYS_REACH.LAST, r), (F.SYS_REACH.DEEPENED, b2n s.boot.deepened)]).modBoot (fun b =>
    { b with asserted := [], episode := none, sources := [], release := none, deepened := false })

/-! ## Records of an image in force (R616–R618) -/

/-- A register of one of the eight blocks that an ACQ reach re-applies. -/
def acqBlock (a : Nat) : Bool := [2, 4, 5, 6, 7, 8, 9, 0xA, 0xD].contains (a / 0x10000)

/-- What a record holds outside those blocks. -/
def outsidePart (r : ImgRec) : Option (Nat × List Word) :=
  match r.typ with
  | 1 =>
    let l := (List.range (r.words.length / 2)).flatMap (fun i =>
      if acqBlock (wordAt r.words (2 * i)).toNat then [] else [wordAt r.words (2 * i), wordAt r.words (2 * i + 1)])
    if l.isEmpty then none else some (1, l)
  | 2 => if acqBlock (wordAt r.words 0).toNat then none else some (2, r.words)
  | 3 => none
  | t => some (t, r.words)

/-- Alarm source slots read the bobbins that LOOP_ZSRC names (R402). -/
def bindAlarm (k : Nat) (s : State) : State :=
  let want := s.alarmBob k
  let s1 := s.ground.bobs.foldl (fun (s : State) p =>
    if want ≠ some p.1 ∧ p.2.readers.any (fun r => r.1 == .alarmSlot k) = true then s.unbindReader p.1 (.alarmSlot k) else s) s
  match want with
  | none => s1
  | some b => if (s1.readerPos b (.alarmSlot k)).isSome then s1 else s1.bindReader b (.alarmSlot k) true

/-- The filter sets run under their registers. -/
def setsInForce (s : State) : State :=
  [(Fibre.a, 0), (Fibre.a, 1), (Fibre.b, 0), (Fibre.b, 1)].foldl (fun (s : State) (p : Fibre × Nat) =>
    (s.modCmt p.1 (fun m => { m with
      sets := m.sets.upd p.2 { m.sets.at p.2 with cfg := s.reg (R.FLT_DSCFG p.1.idx p.2), pend := none } })).showDelay p.1.idx p.2) s

/-- The auxiliary chains run under their registers. -/
def auxInForce (s : State) : State :=
  (List.range 48).foldl (fun (s : State) k =>
    let w := s.reg (R.FLT_AUX_CFG k)
    if (s.auxChain k).cfg = w then s.setAux k { s.auxChain k with pend := none } else auxConfigure k w s) s

/-- The records of the eight blocks, just written over `old`, come into force. -/
def datapathInForce (old : State) (fromImage : Bool) (s : State) : State :=
  let s1 := auxInForce (setsInForce (loadSolutions s))
  let s2 := foldS (fun (p : Nat × Logical) s =>
    laneInit (fromImage || p.2.inCfg != (old.logical p.1).inCfg) p.1 s) s1.lanes.ll s1
  let s3 := [0, 1, 2, 3].foldl (fun (s : State) k => bindAlarm k s) s2
  (showLoops s3).showBudgets

/-- The records of the eight blocks are written again (R595, R618). (DEDUCED, assumption 39.) -/
def reapply (i : Image) (s : State) : State :=
  match applyRecs acqBlock i.recs [] s with
  | .ok s1 => datapathInForce s false s1
  | .error _ => s

/-- SEC_IMGSTAT and SEC_IHASH after an image passes R538. -/
def showImage (i : Image) (s : State) : State :=
  writeWords R.SEC_IHASH (bytesToWords i.hash)
    (s.wrs [(F.SEC_IMGSTAT.RESULT, 1), (F.SEC_IMGSTAT.SLOT, i.ownerSlot), (F.SEC_IMGSTAT.ENC, b2n (nthBit i.flags 1)),
      (F.SEC_IMGSTAT.KEYSRC, b2n (nthBit i.flags 2)), (F.SEC_IMGSTAT.SVN, i.svn)])

/-- The image becomes the running one. -/
def nameRunning (i : Image) (s : State) : State :=
  let s1 := (s.modBoot (fun b => { b with image := some i, appliedAt := s.now, committed := false })).wrs
    [(F.SYS_IMG.RUN, i.slot), (F.SYS_IMG.DEFER, 0), (F.SYS_GEN.GEN, i.gen)]
  if nthBit i.flags 0 = true ∧ s.arb < i.svn then s1.wr F.SEC_STAT.ARBPEND 1 else s1

/-! ## The ACQ release (R595, R626) -/

/-- The newer slot that an ACQ release looks at: the first candidate, if it is not the running one and its GENERATION is higher. -/
def State.newerSlot (s : State) (i : Image) : Option Nat :=
  match s.firstSlot with
  | some k => if k ≠ i.slot ∧ i.gen < (s.candidate k).getD 0 then some k else none
  | none => none

/-- The image in force is applied again, or a newer one that differs in the eight blocks alone is installed. (DEDUCED, assumption 39.) -/
def acqApply (ecc : Option Nat) (i : Image) (s : State) : State :=
  match s.newerSlot i with
  | none => reapply i s
  | some k =>
    match authenticate false k ecc (s.flash.slots.at k) s with
    | (s1, .failed _) => reapply i (s1.wr (markFld k) 1)
    | (s1, .passed n) =>
      if n.recs.filterMap outsidePart ≠ i.recs.filterMap outsidePart then (reapply i s1).wr F.SYS_IMG.DEFER 1
      else match configure n s1.bare with
        | .error e => reapply i (showRefused617 e (s1.wr (markFld k) 1))
        | .ok _ => nameRunning n (showImage n (reapply n s1))

/-- The release of an ACQ episode. (DEDUCED, assumption 39.) -/
def acqRelease (ecc : Option Nat) (s : State) : State :=
  let s1 := episodeEnd s
  let s2 := (s1.modBoot (fun b => { b with bootAt := s.now, counted := false })).wr F.SYS_BOOT.BOOTMS 0
  match s.boot.image with
  | none => s2
  | some i =>
    let s3 := acqApply ecc i s2
    if 8 ≤ s.rd F.SYS_BOOT.PHASE then s3.modBoot (fun b => { b with autoDue := true }) else s3

/-! ## The release of the other reaches (R102, R588, R591, R598) -/

/-- Every source of the episode is released: levels have ended and pulses have run their 10 µs. -/
def State.allReleased (s : State) : Bool :=
  s.boot.asserted.all (fun p => match p.2 with | some t => decide (t ≤ s.now) | none => false)

/-- The release sequence begins, with its option loading when the reach is COLD. -/
def beginRelease (fusesOk : Bool) (readings : List Nat) (s : State) : State :=
  let s1 := s.modBoot (fun b => { b with asserted := [], release := some s.now, bootAt := s.now })
  let s2 := s1.modSrc (fun v => { v with emitSince := if s.pins.emitEn then some s.now else none })
  (if s.boot.episode = some rchCold then optionLoad fusesOk readings s2 else s2).wr F.SYS_BOOT.PHASE 1

/-- RESET_RELEASE: `asleep` says that the DRAM was in self-refresh 2.0 µs after a WARM assertion; the fuse copies' agreement and up
to three OPTSEL readings serve option loading, and `ecc` the decompressor. -/
def resetRelease (asleep fusesOk : Bool) (readings : List Nat) (ecc : Option Nat) (s : State) : State :=
  match s.boot.episode with
  | none => s
  | some r =>
    if s.boot.release.isSome = true ∨ s.allReleased = false then s
    else if r = rchAcq then acqRelease ecc s
    else if r = rchWarm ∧ (asleep = false ∨ s.memc.held = false) then
      beginRelease fusesOk readings
        (enterReset rchFabric (s.modBoot (fun b => { b with episode := some rchFabric, deepened := true })))
    else beginRelease fusesOk readings s

def execResetRelease (asleep fusesOk : Bool) (r0 r1 r2 : Fin 4096) (ecc : Option Nat) (s : State) :
    Host.Outcome State Fault Refusal := done (resetRelease asleep fusesOk [r0, r1, r2] ecc s)

/-! ## ROM start (R598, R601, R634) -/

def lifeName (n : Nat) : List Byte :=
  text (match n with | 0 => "BLANK" | 1 => "OWNED" | 2 => "LOCKED" | _ => "FAULT")

/-- The device ID as 16 digits. -/
def idText : List Byte := hexOf 16 (leNat deviceId)

/-- The banner and the prompt after it. -/
def banner (s : State) : State :=
  (s.printLine (spaced ([text "EFRAS", text "1", idText, lifeName s.life] ++
    (if s.rd F.SYS_OPT.MAINT = 1 then [text "MAINT"] else [])))).prompt

/-- ROM_START: the PLLs have locked; the episode ends and the ROM starts. MAINT, BLANK and FAULT stop the boot here. -/
def romStart (s : State) : State :=
  if s.boot.release.isSome then
    let s1 := (episodeEnd s).wrs [(F.CLK_STAT.REF_PRES, 1), (F.CLK_STAT.ROOT_LOCK, 1), (F.CLK_STAT.MEM_LOCK, 1),
      (F.CLK_STAT.NET_LOCK, 1), (F.SYS_BOOT.PHASE, 2)]
    let s2 := (s1.modTb (fun q => { q with run := true }))
    let stop := s.rd F.SYS_OPT.MAINT == 1 || s.life == lifeBlank || s.life == lifeFault
    banner (drbgInstantiate (s2.modBoot (fun b => { b with stopped := stop })))
  else s

def execRomStart (s : State) : Host.Outcome State Fault Refusal := done (romStart s)

/-! ## Choosing an image (R610, R619) -/

/-- Try the candidates from the first on; `n` bounds how many there are. -/
def tryImages (ecc : Option Nat) : Nat → State → State
  | 0, s => s.modBoot (fun b => { b with stopped := true })
  | n + 1, s =>
    match s.firstSlot with
    | none => s.modBoot (fun b => { b with stopped := true })
    | some k =>
      match authenticate false k ecc (s.flash.slots.at k) s with
      | (s1, .passed i) => (showImage i s1).modBoot (fun b => { b with loaded := some i })
      | (s1, .failed code) =>
        let s2 := s1.wrs [(F.SEC_IMGSTAT.RESULT, code), (markFld k, 1)]
        if code = 8 then tryImages ecc n s2 else pulseSource srImg s2

/-- IMAGE_LOAD: what SFDP gave of the flash (MODE 0 for none, DTR, log2 of its size), and the image read and authenticated. -/
def imageLoad (mode : Nat) (dtr : Bool) (size : Nat) (ecc : Option Nat) (s : State) : State :=
  if s.rd F.SYS_BOOT.PHASE = 2 ∧ s.boot.stopped = false ∧ s.boot.episode = none ∧ s.secu.identity = true then
    let s1 := s.wrs [(F.SYS_FLASH.MODE, mode), (F.SYS_FLASH.DTR, b2n (dtr && mode == 3)), (F.SYS_FLASH.SIZE, size), (F.SYS_BOOT.PHASE, 3)]
    if mode = 0 ∨ size < 27 then (s1.wr F.SYS_FLASH.MODE 0).modBoot (fun b => { b with stopped := true })
    else tryImages ecc 2 (showCals (s1.modFlash (fun f => { f with logPlaces := (2 ^ size - 0x0408_0000) / 64 })))
  else s

def execImageLoad (mode : Fin 4) (dtr : Bool) (size : Fin 32) (ecc : Option Nat) (s : State) :
    Host.Outcome State Fault Refusal := done (imageLoad mode dtr size ecc s)

/-! ## Applying it (R46, R344, R395, R418, R428, R454, R503, R513, R617) -/

/-- Streams and compressors that the image enables begin to read, and the supervisor reads B126 and B127 (R412, R416). -/
def readersInForce (s : State) : State :=
  let s1 := [0, 1].foldl (fun (s : State) n => if s.rd (F.DFL_CFG.EN n) = 1 then compStart n true s else s) s
  let s2 := (s1.net.dests.map (·.1)).foldl (fun (s : State) i => if s.rd (F.NET_SCFG.EN i) = 1 then streamStart i false true s else s) s1
  (s2.bindReader 126 .supervisor false).bindReader 127 .supervisor false

/-- The image's records, just written over `old`, come into force in every block. (DEDUCED, assumption 51.) -/
def imageInForce (i : Image) (old s : State) : State :=
  let s1 := datapathInForce old true (hkApply s)
  let s2 := (List.range 128).foldl (fun (s : State) b => s.wr (F.GND_BCLAIM.CLAIM b) 1) s1
  let s3 := ptpSourceChanged ((readersInForce s2).tbSrcChanged 0)
  let s4 := if s.rd F.GND_RCFG.EN = 1 ∧ s.rcState = rcOff then s3.wr F.GND_RSTAT.STATE rcArmed else s3
  (beginTraining .boot (nameRunning i s4)).showBudgets.wr F.SYS_BOOT.PHASE 4

/-- IMAGE_APPLY: the loaded image is written, or refused with its slot marked and the other candidate tried. -/
def imageApply (ecc : Option Nat) (s : State) : State :=
  match s.boot.loaded with
  | none => s
  | some i =>
    let s0 := s.modBoot (fun b => { b with loaded := none })
    match configure i s0 with
    | .ok s1 => imageInForce i s0 s1
    | .error e => tryImages ecc 1 ((showRefused617 e s0).wr (markFld i.slot) 1)

def execImageApply (ecc : Option Nat) (s : State) : Host.Outcome State Fault Refusal := done (imageApply ecc s)

/-! ## Calibration and lanes (R158, R298, R357, R598, R622) -/

/-- Load a slice's stored coefficients. -/
def loadSlice (n : Nat) (e : List Word) (s : State) : State :=
  let s1 := ((s.wrI (F.SLC_CALOFS.OFS n) (wordAt e 0).toInt).wrI (F.SLC_CALSKEW.SKEW n) (wordAt e 1).toInt).wrI
    (F.SLC_CALOFS.CALTEMP n) (wordAt e 2).toInt
  let s2 := (List.range 6).foldl (fun (s : State) g => s.setReg (R.SLC_GCAL_DATA (6 * n + g)) (wordAt e (3 + g))) s1
  s2.setSlices (fun v => { v with
    calTimes := mapSet (fun _ => (0 : Nat)) v.calTimes n (max 1 s.now),
    calTb := mapSet (fun _ => (0 : Nat)) v.calTb n ((wordAt e 9).toNat + (wordAt e 10).toNat * 2 ^ 32) })

/-- A slice before lane loading: its stored coefficients, or those just measured; a failed calibration fences it, and the spare takes its
function, or the one it took (R156, R158, R169, R177). One that stays fenced loads what is stored. -/
def bootSlice (n : Nat) (m : SliceCoefs) (s : State) : State :=
  let held := s.rd (F.SLC_STAT.MODE n) == slFenced
  match s.storedSlice n with
  | some e =>
    let s1 := loadSlice n e s
    if held && decide (n < 14) && s1.role n == 0xF then loseFunc n s1 else s1
  | none =>
    if held then (if n < 14 ∧ s.role n = 0xF then loseFunc n s else s)
    else if coefsOk m then s.takeCoefs n m
    else
      let s1 := (s.holdFenced n 5).event 0x0401 .fault n none 0 (if n < 14 then n else 0xF) 5 0
      match (List.range 14).find? (fun f => s.role f == n) with
      | none => if s.spareSlice = n then s1.wr F.SLC_ROLE1.SPARE 0xF else s1
      | some f => if s.spareSlice = 0xF then loseFunc f s1 else s1.wrs [(roleFld f, s.spareSlice), (F.SLC_ROLE1.SPARE, 0xF)]

/-- The slices take the places of the role map. -/
def slicesServe (s : State) : State :=
  let s1 := (List.range 14).foldl (fun (s : State) f =>
    let n := s.role f
    if n = 0xF then s
    else s.wrs [(F.SLC_STAT.FUNC n, f), (F.SLC_STAT.MODE n, slActive), (F.SLC_STAT.GAIN n, if f < 8 then 0 else s.fixedGain f)]) s
  (if s1.spareSlice = 0xF then s1 else s1.standDown s1.spareSlice slSpare).shadowNext

/-- A converter before lane loading. -/
def bootHk (c gain : Nat) (ofs : Int) (s : State) : State :=
  match s.storedHk c with
  | some (g, o) => showCoef c g o s
  | none => putCoef c gain ofs s

/-- Lane `n` enters service: W0 to W31 with their logical lanes, W32 as the spare. One that its failure limit holds stays fenced, and
the spare takes its logical lane. -/
def bootLane (n : Nat) (s : State) : State :=
  if s.unitHeld (laneUnit n) then
    let s1 := s.wrs [(F.LANE_STAT.MODE n, laneFenced), (F.LANE_STAT.FAULT n, s.unitFault (laneUnit n))]
    if n = 32 then s1.wr F.HLTH_LANE.SPARE noSpare
    else if s.unitHeld (laneUnit 32) = true ∨ (List.range n).any (fun m => s.unitHeld (laneUnit m)) = true then
      ((s1.modLogical n (fun l => { l with unserved := some s.now, lapsed := false })).wr F.HLTH_UNSRV.LL
        (s.rd F.HLTH_UNSRV.LL ||| 2 ^ n)).event 0x0805 .fault noUnit none 0 n 0 0
    else freshBeats 32 (s1.wrs [(F.LANE_STAT.MODE 32, laneActive), (F.LANE_STAT.LL 32, n), (F.HLTH_LANE.SPARE, noSpare)])
  else if n = 32 then
    if s.laneMode 32 = laneActive then s else freshBeats n (s.wrs [(F.LANE_STAT.MODE n, laneSpare), (F.HLTH_LANE.SPARE, 32)])
  else freshBeats n (s.wrs [(F.LANE_STAT.MODE n, laneActive), (F.LANE_STAT.LL n, n)])

/-- The sources step: GO for the setpoints that the image staged. -/
def bootSources (s : State) : State :=
  if (List.range 8).any (fun n => s.rd (F.SRC_STAT.STAGED n) == 1) then
    (syncGo (s.rd F.SRC_SYNC.RNDSEL) s).answer s.status
  else s

/-- LANES_LOADED: units without a stored entry have been calibrated, with the coefficients given, and the lanes are loaded. -/
def lanesLoaded (cal : List SliceCoefs) (g0 g1 : Nat) (o0 o1 : Int) (s : State) : State :=
  if s.rd F.SYS_BOOT.PHASE = 5 ∧ s.boot.episode = none then
    let none_ : SliceCoefs := { ofs := 0, skew := 0, temp := 0, mags := [], delays := [] }
    let s1 := (List.range 15).foldl (fun (s : State) n => bootSlice n (cal.getD n none_) s) s
    let s2 := bootHk 1 g1 o1 (bootHk 0 g0 o0 (slicesServe s1))
    let s3 := s2.modHk (fun h => { h with lastCal := s.now, calTemp := s.dieTemp.getD h.calTemp })
    let s4 := shadowBegin ((List.range 33).foldl (fun (s : State) n => bootLane n s) s3)
    (bootSources (s4.modBoot (fun b => { b with autoDue := true }))).wr F.SYS_BOOT.PHASE 7
  else s

def execLanesLoaded (cal : List SliceCoefs) (g0 g1 : Fin 65536) (o0 o1 : Int) (s : State) : Host.Outcome State Fault Refusal :=
  done (lanesLoaded cal g0 g1 o0 o1 s)

/-- AUTO_START (R600). -/
def autoStart (s : State) : State :=
  if s.boot.autoDue = true ∧ s.boot.episode = none then
    let s1 := s.modBoot (fun b => { b with autoDue := false })
    let s2 := if s.rd F.SYS_BOOT.PHASE = 7 then s1.wr F.SYS_BOOT.PHASE 8 else s1
    startMask (s.rd F.SYS_BOOTCFG.AUTO_A + 2 * s.rd F.SYS_BOOTCFG.AUTO_B) s2
  else s

def execAutoStart (s : State) : Host.Outcome State Fault Refusal := done (autoStart s)

end Sys2Proof.Machine
end

