-- ==== Sys2Proof/Machine/Mgmt.lean ====
section
/-!
DEFINITION. The management channel (R491–R497, R540–R543, R625): each row takes the oldest request if it is one of its own, verifies
its trailer, acts and responds.
-/
namespace Sys2Proof.Machine

/-! ## Responses (R492, R495, R496) -/

/-- The bytes of a response. -/
def responseBytes (r : Request) (st : Status) (count : Nat) (ws : List Word) : List Byte :=
  leBytes 2 0x4D46 ++ leBytes 1 1 ++ leBytes 1 (dgOp r.bytes + 128) ++ leBytes 4 (dgSeq r.bytes) ++ leBytes 2 count ++
    leBytes 1 st.code ++ leBytes 1 0 ++ leBytes 4 (dgAddr r.bytes) ++ wordsToBytes ws

/-- The record that carries a response through B126. Its KIND and labels are not stated and never leave the device. (DESIGN CHOICE,
assumption 79.) -/
def responseRecord (s : State) (ws : List Word) : Record :=
  { kind := 0, fibre := 0, pic := false, bad := false, ns := ws.length, h1 := 0, h2 := w32 s.tbNs, h3 := 0, payload := ws,
    label := s.tbNs, born := 0 }

/-- A response passes through B126, which the supervisor reads, and goes to its request's sender. The DSCP is not stated: free. (DESIGN
CHOICE, assumption 31.) -/
def respond (r : Request) (st : Status) (count : Nat) (ws : List Word) (s : State) : State :=
  let b := responseBytes r st count ws
  let s1 := if st = .auth then s.bump F.NET_MGMTSTAT.AUTHF else s
  let s2 := (s1.produce 126 (responseRecord s1 (bytesToWords b)) .queued noTags none).1
  let s3 := s2.advanceReader 126 .supervisor (s2.bob 126).next
  let s4 := s3.spend 1
  let dscp := Config.freeNat s3.fresh % 64
  (sendTo r.port r.v6 r.src (.udp r.v6 r.src (s.rd F.NET_MGMT.PORT) r.sport dscp b) (needHop r.port r.v6 r.src s4)).answer st

/-- A request fails without effect. -/
def failWith (r : Request) (st : Status) (s : State) : State := respond r st 0 [] s

/-! ## Taking a request (R496, R497, R541) -/

/-- The oldest request leaves the queue. -/
def popRequest (s : State) : State :=
  let s1 := s.modNet (fun n => { n with queue := n.queue.drop 1 })
  s1.wr F.NET_MGMTSTAT.QLEN s1.net.queue.length

/-- The oldest request, if `mine` selects it and none is in progress: its trailer, if it carries one, is verified and consumes the
challenge before `run` acts with the authorising slot; a trailer that does not verify fails the request. -/
def serveRequest (mine : List Byte → Bool) (run : Option Nat → Request → State → State) (s : State) : State :=
  match s.net.queue with
  | [] => s
  | r :: _ =>
    if mine r.bytes = false ∨ s.net.prog.isSome = true then s
    else
      let s1 := popRequest s
      let tr := dgTrailer r.bytes
      if tr.isEmpty then run none r s1
      else match s1.trailerSlot (1 :: dgSigned r.bytes) tr with
        | some k => run (some k) r (dropChallenge s1)
        | none => failWith r .auth (dropChallenge s1)

/-- A COUNT of READ or WRITE. -/
def countOk (m : List Byte) : Bool := decide (1 ≤ dgCount m ∧ dgCount m ≤ 256)

/-! ## READ and WRITE (R493) -/

/-- The register after `a`. -/
def nextAddr (a : Nat) : Nat := (a + 4) % 2 ^ 32

/-- Up to `n` registers from `a` are read, to the first that fails: the words, and the state with its status. -/
def readRegs : Nat → Nat → State → List Word × State
  | 0, _, s => ([], s)
  | n + 1, a, s =>
    let (v, s1) := busRead a s
    if s1.status = .ok then
      let (l, s2) := readRegs n (nextAddr a) s1
      (v :: l, s2)
    else ([], s1)

/-- Registers from `a` are written in ascending order, to the first that fails: how many completed, and the state with its status. -/
def writeRegs (auth : Option Nat) : List Word → Nat → State → Nat × State
  | [], _, s => (0, s)
  | w :: t, a, s =>
    let s1 := busWrite auth a w s
    if s1.status = .ok then
      let (n, s2) := writeRegs auth t (nextAddr a) s1
      (n + 1, s2)
    else (0, s1)

/-- Some register write of a WRITE is emission-affecting (R105, R497). -/
def State.emissionWrites (s : State) : List Word → Nat → Bool
  | [], _ => false
  | w :: t, a => s.emissionWrite a w || s.emissionWrites t (nextAddr a)

/-- Keep or forget a request in progress. -/
def State.setProg (s : State) (g : Option Progress) : State := s.modNet (fun n => { n with prog := g })

/-- Register accesses of one run of a request: up to `pause` of those left, or all of them. -/
def Progress.run (g : Progress) (pause : Option Nat) : Nat := min g.left (pause.getD g.left)

/-- The request's next accesses are made, and it is answered once they are all made or one has failed (R493). Between two of them the
request may pause, for a monitor command to run (R640). (DESIGN CHOICE, assumption 108.) -/
def goRead (pause : Option Nat) (g : Progress) (s : State) : State :=
  let n := g.run pause
  let (l, s1) := readRegs n g.addr (s.answer .ok)
  let words := g.words ++ l
  if s1.status = .ok ∧ n < g.left then
    s1.setProg (some { g with addr := (g.addr + 4 * n) % 2 ^ 32, left := g.left - n, words := words })
  else respond g.req s1.status words.length words (s1.setProg none)

def goWrite (pause : Option Nat) (g : Progress) (s : State) : State :=
  let n := g.run pause
  let (k, s1) := writeRegs g.auth (g.words.take n) g.addr (s.answer .ok)
  if s1.status = .ok ∧ n < g.left then
    s1.setProg (some { g with addr := (g.addr + 4 * n) % 2 ^ 32, left := g.left - n, words := g.words.drop n,
                              completed := g.completed + k })
  else respond g.req s1.status (g.completed + k) [] (s1.setProg none)

def runRead (pause : Option Nat) (auth : Option Nat) (r : Request) (s : State) : State :=
  if countOk r.bytes = false then failWith r .malformed s
  else goRead pause { req := r, auth := auth, addr := dgAddr r.bytes, left := dgCount r.bytes, words := [], completed := 0 } s

def runWrite (pause : Option Nat) (auth : Option Nat) (r : Request) (s : State) : State :=
  let ws := dgWords r.bytes
  let a := dgAddr r.bytes
  if countOk r.bytes = false then failWith r .malformed s
  else if s.emissionWrites ws a = true ∧ auth = none then failWith r .auth s
  else goWrite pause { req := r, auth := auth, addr := a, left := ws.length, words := ws, completed := 0 } s

/-- A request in progress goes on, if it has the row's OP; else the oldest request is taken. -/
def serveAccess (op : Nat) (go : Progress → State → State) (run : Option Nat → Request → State → State) (s : State) : State :=
  match s.net.prog with
  | some g => if dgOp g.req.bytes = op then go g s else s
  | none => serveRequest (fun m => dgOp m == op) run s

def execMgmtRead (pause : Option Nat) (s : State) : Host.Outcome State Fault Refusal :=
  done (serveAccess opRead (goRead pause) (runRead pause) s)

def execMgmtWrite (pause : Option Nat) (s : State) : Host.Outcome State Fault Refusal :=
  done (serveAccess opWrite (goWrite pause) (runWrite pause) s)

/-! ## Commands (R494) -/

/-- The commands that R494 and R625 define. -/
def cmdKnown (code : Nat) : Bool := decide (1 ≤ code ∧ code ≤ 7) || decide (0x10 ≤ code ∧ code ≤ 0x13)

/-- Commands that need the owner's authority (R497, R625). -/
def cmdNeedsAuth (code : Nat) : Bool := code == 3 || code == 5 || code == 6 || decide (0x10 ≤ code ∧ code ≤ 0x13)

/-- Argument words that a command needs. -/
def cmdArgs (code : Nat) : Nat :=
  if code = 3 ∨ code = 4 ∨ code = 6 ∨ code = 7 then 1 else if code = 0x10 ∨ code = 0x11 then 2 else 0

/-- A command's checks in common, then `act` with the authorising slot and the arguments, which answers its result words and a state
with its status; `after` follows the response. (DEDUCED, assumption 44; DEDUCED, assumption 78.) -/
def runCmd (act : Option Nat → List Word → State → List Word × State) (after : State → State) (auth : Option Nat) (r : Request)
    (s : State) : State :=
  let code := dgAddr r.bytes
  if 256 < dgCount r.bytes then failWith r .malformed s
  else if cmdKnown code = false then failWith r .unknown s
  else if cmdNeedsAuth code = true ∧ auth = none then failWith r .auth s
  else if dgCount r.bytes < cmdArgs code then failWith r .malformed s
  else
    let (l, s1) := act auth (dgWords r.bytes) (s.answer .ok)
    after (respond r s1.status l.length l s1)

def isCmd (code : Nat) (m : List Byte) : Bool := dgOp m == opCmd && dgAddr m == code

/-- A row of one command. -/
def serveCmd (code : Nat) (act : Option Nat → List Word → State → List Word × State) (after : State → State) (s : State) : State :=
  serveRequest (isCmd code) (runCmd act after) s

/-- An action without a result. -/
def plainAct (f : List Word → State → State) (_ : Option Nat) (ws : List Word) (s : State) : List Word × State := ([], f ws s)

/-- NOP, and the codes that no command has, which fail with UNKNOWN. -/
def execCmdNop (s : State) : Host.Outcome State Fault Refusal :=
  done (serveRequest (fun m => isCmd 1 m || (dgOp m == opCmd && !cmdKnown (dgAddr m))) (runCmd (plainAct (fun _ s => s)) id) s)

/-- CHALLENGE (R540, R532). -/
def challengeAct (_ : Option Nat) (_ : List Word) (s : State) : List Word × State :=
  match newChallenge s with
  | (some n, s1) => (bytesToWords (n ++ deviceId), s1)
  | (none, s1) => ([], s1.answer .refused)

def execChallenge (s : State) : Host.Outcome State Fault Refusal := done (serveCmd 2 challengeAct id s)

/-- START of the fibres that its argument names (R38, R79). -/
def execStart (s : State) : Host.Outcome State Fault Refusal :=
  done (serveCmd 3 (plainAct (fun ws s => (startMask ((wordAt ws 0).toNat % 4) s).answer .ok)) id s)

/-- STOP of the fibres that its argument names (R79). -/
def execStop (s : State) : Host.Outcome State Fault Refusal :=
  done (serveCmd 4 (plainAct (fun ws s => (stopMask ((wordAt ws 0).toNat % 4) s).answer .ok)) id s)

/-- RESET: the response leaves, then reset source MGMT is raised. -/
def execCmdReset (s : State) : Host.Outcome State Fault Refusal :=
  done (serveRequest (isCmd 5) (fun auth r s =>
    let ok := auth.isSome && decide (dgCount r.bytes ≤ 256)
    runCmd (plainAct (fun _ s => s)) (if ok then pulseSource srMgmt else id) auth r s) s)

/-! ## UNIT_RESET (R180, R235, R359, R494, R564) -/

/-- UNIT reset of a slice (R180): an active one runs as a calibration episode and is reset at its first swap, or at once where no fibre's
rounds delay it; any other acts at once and is tested, and a calibration that needs it is abandoned. -/
def sliceUnitReset (n : Nat) (s : State) : State :=
  let mode := s.rd (F.SLC_STAT.MODE n)
  if mode = slFenced ∨ mode = slTest then ((s.sliceCleared n).sliceTest n).answer .ok
  else if s.rd (F.SLC_STAT.FUNC n) ≠ 0xF then
    if s.slices.cal.isNone = true ∧ s.spareReady = false then s.calRefuse .busy 2
    else
      let cmd := s.reg R.SLC_CAL_CMD
      let t := (calStart n false false s).setReg R.SLC_CAL_CMD cmd
      match t.slices.cal with
      | some c =>
        if t.status ≠ .ok then t
        else if c.kind = CalKind.direct then t.sliceCleared n
        else t.setSlices (fun v => { v with cal := some { c with unitReset := true } })
      | none => t
  else if (match s.slices.cal with | some c => c.slice == n && decide (c.kind = CalKind.episode) | none => false) then s.answer .busy
  else
    let s0 := match s.slices.cal with
      | some c => if c.slice = n ∨ (c.kind = CalKind.episode ∧ s.spareSlice = n) then s.calEnd 8 else s
      | none => s
    let s1 := (s0.sliceCleared n).sliceTest n
    (if s.spareSlice = n then (s1.wr F.SLC_ROLE1.SPARE 0xF).fillSpare else s1).answer .ok

/-- UNIT reset of a lane: it leaves service for its built-in test. -/
def laneUnitReset (n : Nat) (s : State) : State :=
  if s.laneMode n = laneFenced ∨ s.laneMode n = laneTest then
    (s.modLanes (fun v => { v with tests := v.tests.filter (·.1 ≠ n) ++ [(n, s.now)] })).answer .ok
  else (fenceLane n 0 s).answer .ok

/-- A UNIT reset of a unit code of R494; any other code, and any unit before an image is applied, is refused. (DEDUCED, assumption 46.) -/
def unitReset (u : Nat) (s : State) : State :=
  if s.boot.image.isNone then s.answer .refused
  else if u ≤ 0x0E then sliceUnitReset u s
  else if 0x20 ≤ u ∧ u ≤ 0x40 then laneUnitReset (u - 0x20) s
  else if u = 0x50 ∨ u = 0x51 then hkUnitReset (u - 0x50) s
  else s.answer .refused

def execUnitReset (s : State) : Host.Outcome State Fault Refusal :=
  done (serveCmd 6 (plainAct (fun ws s => unitReset (wordAt ws 0).toNat s)) id s)

/-! ## ATTEST (R543) -/

/-- The report of bytes 0 to 127. (DEDUCED, assumption 48.) -/
def State.report (s : State) (nonce : List Byte) : List Byte :=
  let (slot, svn, enc, ih) := match s.boot.image with
    | some i => (i.ownerSlot, i.svn, b2n (nthBit i.flags 1), i.hash)
    | none => (0, 0, 0, List.replicate 48 0)
  let w1 := s.life + slot * 2 ^ 2 + s.rd F.FUSE_SEC.VALID * 2 ^ 4 + s.rd F.FUSE_SEC.REVOKED * 2 ^ 8 + s.rd F.FUSE_SEC.JTAG_LOCK * 2 ^ 12 +
    s.rd F.SEC_STAT.DBGUSED * 2 ^ 13 + s.rd F.FUSE_SEC.FLEET * 2 ^ 14 + s.rd F.SEC_STAT.DRBGERR * 2 ^ 15
  let w2 := s.arb % 128 + svn % 128 * 2 ^ 8 + enc * 2 ^ 15
  leBytes 4 1 ++ leBytes 4 w1 ++ leBytes 4 w2 ++ leBytes 4 (s.reg R.SYS_CAUSE).toNat ++ deviceId ++ leBytes 8 s.tbNs ++ ih ++ nonce

def attestAct (_ : Option Nat) (ws : List Word) (s : State) : List Word × State :=
  if wordAt ws 0 = 0 ∧ ws.length = 13 then
    let m := s.report (wordsToBytes (ws.drop 1))
    (bytesToWords (m ++ signIdentity m), s.answer .ok)
  else if wordAt ws 0 = 1 ∧ ws.length = 1 then (bytesToWords identityQ, s.answer .ok)
  else ([], s.answer .malformed)

def execAttest (s : State) : Host.Outcome State Fault Refusal := done (serveCmd 7 attestAct id s)

/-! ## Image transfer (R625, R626) -/

def execXferOpen (s : State) : Host.Outcome State Fault Refusal :=
  done (serveCmd 0x10 (plainAct (fun ws s => xferOpen ((wordAt ws 0).toNat % 4) (wordAt ws 1).toNat s)) id s)

def execXferData (s : State) : Host.Outcome State Fault Refusal :=
  done (serveCmd 0x11 (plainAct (fun ws s => xferData (wordAt ws 0).toNat (ws.drop 1) s)) id s)

def execXferClose (s : State) : Host.Outcome State Fault Refusal :=
  done (serveCmd 0x12 (fun auth _ s => ([], xferClose auth s)) id s)

def execXferAbort (s : State) : Host.Outcome State Fault Refusal :=
  done (serveCmd 0x13 (plainAct (fun _ s => xferAbort s)) id s)

end Sys2Proof.Machine
end

