-- ==== Sys2Proof/Machine/Monitor.lean ====
section
/-!
DEFINITION. The Efras monitor (R631–R640): characters and lines, parsing, and the commands. The texts that the spec does not fix are
DESIGN CHOICES.
-/
namespace Sys2Proof.Machine

/-! ## Characters (R631, R632) -/

def lineMax : Nat := 1024

/-- A command waits for its line to be parsed, waits to run, or runs as a trace. -/
def State.monBusy (s : State) : Bool := s.mon.entered.isSome || s.mon.cmd.isSome || s.mon.trace.isSome

/-- The line ends: an empty one is ignored. -/
def endLine (s : State) : State :=
  s.modMon (fun m =>
    { m with line := [], bad := false, entered := if m.line.isEmpty = true ∧ m.bad = false then none else some (m.line, m.bad) })

/-- A character that the monitor takes: CR, LF or CR LF ends the line, a backspace removes its last character, any other joins it. -/
def takeChar (c : Byte) (framing : Bool) (s : State) : State :=
  let afterCr := s.mon.cr
  let s0 := s.modMon (fun m => { m with cr := !framing && c == 13 })
  if framing then s0.modMon (fun m => { m with bad := true })
  else if c = 10 ∧ afterCr = true then s0.print [c]
  else if c = 13 ∨ c = 10 then endLine (s0.print [c])
  else if c = 8 ∨ c = 0x7F then (s0.print [c]).modMon (fun m => { m with line := m.line.dropLast })
  else if s.mon.line.length < lineMax then (s0.print [c]).modMon (fun m => { m with line := m.line ++ [c] })
  else (s0.print [c]).modMon (fun m => { m with bad := true })

/-- Buffered characters are taken until one of them completes a line. -/
def drainBuffer : List (Byte × Bool) → State → State
  | [], s => s.modMon (fun m => { m with buffer := [] })
  | p :: t, s =>
    let s1 := takeChar p.1 p.2 s
    if s1.monBusy then s1.modMon (fun m => { m with buffer := t }) else drainBuffer t s1

/-- MON_CHARACTER: taken at once, or buffered while a command runs, up to 1,024. (DEDUCED, assumption 42.) -/
def monCharacter (c : Byte) (framing : Bool) (s : State) : State :=
  if s.monBusy then
    (if s.mon.buffer.length < lineMax then s.modMon (fun m => { m with buffer := m.buffer ++ [(c, framing)] }) else s)
  else takeChar c framing s

def execMonCharacter (c : Byte) (framing : Bool) (s : State) : Host.Outcome State Fault Refusal :=
  onlyIf (!s.inReset) s (monCharacter c framing s)

/-! ## Status lines (R633) -/

def statusName : Status → String
  | .ok => "OK" | .unmapped => "UNMAPPED" | .align => "ALIGN" | .refused => "REFUSED" | .busy => "BUSY"
  | .denied => "DENIED" | .auth => "AUTH" | .unknown => "UNKNOWN" | .malformed => "MALFORMED"

/-- The command ends: its status line and the prompt, after which waiting characters are taken. -/
def finish (st : Status) (s : State) : State :=
  let s1 := s.modMon (fun m => { m with cmd := none, trace := none })
  let t := match st with
    | .ok => text "OK"
    | _ => text "ERR " ++ text (statusName st)
  let s2 := ((s1.printLine t).prompt).answer st
  (drainBuffer s2.mon.buffer s2).answer st

/-- Data lines, then the status line. -/
def finishLines (ls : List (List Byte)) (st : Status) (s : State) : State :=
  finish st (ls.foldl (fun (s : State) l => s.printLine l) s)

/-! ## Parsing (R632, R633, R635, R638, R639) -/

/-- Function names of R137; P14 as 15. -/
def functionNames : List (String × Nat) :=
  [("XI_A", 0), ("XQ_A", 1), ("YI_A", 2), ("YQ_A", 3), ("XI_B", 4), ("XQ_B", 5), ("YI_B", 6), ("YQ_B", 7), ("AS_A", 8), ("ST_A", 9),
   ("AS_B", 10), ("ST_B", 11), ("REF_I", 12), ("REF_Q", 13), ("P14", 15)]

/-- The value of a keyword. -/
def keyword {α : Type} (l : List (String × α)) (w : List Byte) : Option α := (l.find? (fun p => text p.1 == w)).map (·.2)

/-- A number in a range. -/
def numIn (lo hi : Nat) (w : List Byte) : Option Nat := (numberOf w).filter (fun v => decide (lo ≤ v ∧ v ≤ hi))

/-- A number of 32 bits. -/
def num32 (w : List Byte) : Option Nat := numIn 0 0xFFFF_FFFF w

/-- A word of exactly 8 hexadecimal digits. -/
def hex8 (w : List Byte) : Option Word := if w.length = 8 then (digitsOf 16 false w).map w32 else none

/-- All of a list, or none. -/
def allOf {α β : Type} (f : α → Option β) : List α → Option (List β)
  | [] => some []
  | a :: t => (f a).bind (fun b => (allOf f t).map (b :: ·))

/-- Bytes of hexadecimal words in any grouping of 1 to 8 digits, first digit most significant. -/
def hexBytes (ws : List (List Byte)) : Option (List Byte) :=
  if ws.all (fun w => decide (1 ≤ w.length ∧ w.length ≤ 8)) then
    (allOf (digitOf 16) ws.flatten).bind (fun ds =>
      if ds.length % 2 = 1 then none
      else some ((List.range (ds.length / 2)).map (fun i => BitVec.ofNat 8 (ds.getD (2 * i) 0 * 16 + ds.getD (2 * i + 1) 0))))
  else none

def parsePeek : List (List Byte) → Option MonCmd
  | [a] => (num32 a).map (fun v => .peek v 1 [])
  | [a, n] => (num32 a).bind (fun v => (numIn 1 64 n).map (fun k => .peek v k []))
  | _ => none

def parseCount (max : Nat) (f : Nat → MonCmd) : List (List Byte) → Option MonCmd
  | [] => some (f 16)
  | [n] => (numIn 1 max n).map f
  | _ => none

/-- CAL: a slice with its keywords, or a converter, which KEEP does not concern. -/
def parseCal : List (List Byte) → Option MonCmd
  | u :: ks => (num32 u).bind (fun v =>
      let slice := decide (v ≤ 0x0E)
      let hk := v == 0x50 || v == 0x51
      if ks = [] ∧ (slice || hk) = true then some (.cal v false false)
      else if ks = [text "KEEP"] ∧ slice = true then some (.cal v true false)
      else if ks = [text "INTRUSIVE"] ∧ (slice || hk) = true then some (.cal v false true)
      else if ks = [text "KEEP", text "INTRUSIVE"] ∧ slice = true then some (.cal v true true)
      else none)
  | [] => none

def parseTest : List (List Byte) → Option MonCmd
  | [u] => (numIn 0 255 u).map (fun v => .test v false)
  | [u, k] => if k = text "INTRUSIVE" then (numIn 0 255 u).map (fun v => .test v true) else none
  | _ => none

def slotName : List (String × Nat) := [("A", 0), ("B", 1)]

def parseSlot : List (List Byte) → Option MonCmd
  | [] => some .slot
  | w :: t =>
    if w = text "OPEN" then
      match t with
      | [d, l] => (keyword (slotName ++ [("TABLE", 2)]) d).bind (fun k => (num32 l).map (fun n => .slotOpen k n))
      | _ => none
    else if w = text "DATA" then
      match t with
      | o :: ws => (num32 o).bind (fun v => if 1 ≤ ws.length ∧ ws.length ≤ 64 then (allOf hex8 ws).map (fun l => .slotData v l) else none)
      | [] => none
    else if w = text "CLOSE" then (if t = [] then some .slotClose else none)
    else if w = text "ABORT" then (if t = [] then some .slotAbort else none)
    else if w = text "CLEAR" then
      match t with
      | [d] => (keyword slotName d).map (fun k => .slotClear k)
      | _ => none
    else none

def parseTrace : List (List Byte) → Option MonCmd
  | [f, x, a, n] => (keyword functionNames f).bind (fun k => (keyword slotName x).bind (fun xi =>
      (num32 a).bind (fun st => (numIn 1 4096 n).map (fun c => .trace k xi st c))))
  | _ => none

/-- Names of the commands with the syntax that HELP prints. -/
def commandTable : List (String × String) :=
  [("HELP", "HELP [command]"), ("ID", "ID"), ("STAT", "STAT"), ("HEALTH", "HEALTH [n]"), ("AUTH", "AUTH [trailer]"),
   ("PEEK", "PEEK address [count]"), ("LOG", "LOG [n]"), ("TRACE", "TRACE function fibre start count"), ("POKE", "POKE address value"),
   ("CAL", "CAL unit [KEEP] [INTRUSIVE]"), ("TEST", "TEST unit [INTRUSIVE]"), ("SLOT", "SLOT [subcommand]"),
   ("RESET", "RESET [UNIT code]")]

/-- The command of a line's words; none when its arguments are wrong. `name` is one of the table. -/
def parseArgs (name : List Byte) (ws : List (List Byte)) : Option MonCmd :=
  if name = text "HELP" then
    match ws with
    | [] => some (.help none)
    | [c] => if (keyword commandTable c).isSome then some (.help (some c)) else none
    | _ => none
  else if name = text "ID" then (if ws = [] then some .id else none)
  else if name = text "STAT" then (if ws = [] then some .stat else none)
  else if name = text "HEALTH" then parseCount 256 .health ws
  else if name = text "AUTH" then (if ws = [] then some .challenge else (hexBytes ws).map .auth)
  else if name = text "PEEK" then parsePeek ws
  else if name = text "LOG" then parseCount 1024 .log ws
  else if name = text "TRACE" then parseTrace ws
  else if name = text "POKE" then
    match ws with
    | [a, v] => (num32 a).bind (fun k => (num32 v).map (fun w => .poke k (w32 w)))
    | _ => none
  else if name = text "CAL" then parseCal ws
  else if name = text "TEST" then parseTest ws
  else if name = text "SLOT" then parseSlot ws
  else if name = text "RESET" then
    match ws with
    | [] => some .reset
    | [k, u] => if k = text "UNIT" then (num32 u).map .resetUnit else none
    | _ => none
  else none

/-- Commands that FAULT leaves (R528, R635). -/
def inFault (name : List Byte) : Bool := name == text "ID" || name == text "STAT" || name == text "HEALTH"

/-- MON_LINE: the line that waits is parsed. A failed line is MALFORMED, an unknown name UNKNOWN; in FAULT all but three commands are
REFUSED, before their arguments are looked at. -/
def monLine (s : State) : State :=
  match s.mon.entered with
  | none => s
  | some (line, bad) =>
    let s1 := s.modMon (fun m => { m with entered := none })
    if bad then finish .malformed s1
    else match wordsOf (upper line) with
      | [] => drainBuffer s1.mon.buffer s1
      | name :: ws =>
        if (keyword commandTable name).isNone then finish .unknown s1
        else if s.life = lifeFault ∧ inFault name = false then finish .refused s1
        else match parseArgs name ws with
          | none => finish .malformed s1
          | some c =>
            -- a command keeps the session (R542)
            let s2 := s1.modSecu (fun v => { v with session := v.session.map (fun p => (p.1, s.now)) })
            s2.modMon (fun m => { m with cmd := some c })

def execMonLine (s : State) : Host.Outcome State Fault Refusal := done (monLine s)

/-! ## Access (R527, R635, R637) -/

/-- The authority of a monitor command: the session's slot, or in BLANK none of the four. -/
def State.monAuth (s : State) : Option Nat := if s.life = lifeBlank then some (s.sessionSlot.getD 4) else s.sessionSlot

/-- A command that needs a session. -/
def withSession (f : State → State) (s : State) : State := if s.monAuth = none then finish .auth s else f s

/-- An operation that answers a status ends its command with that status. -/
def finishOp (f : State → State) (s : State) : State :=
  let s1 := f s
  finish s1.status s1

/-! ## Commands open to all (R635) -/

def wordLine (l : List Word) : List Byte := spaced (l.map (fun w => hexOf 8 w.toNat))
def nameLine (name : String) (v : Nat) : List Byte := text name ++ text " " ++ decOf v

/-- HELP: the names, or the syntax of one. -/
def execHelp (s : State) : Host.Outcome State Fault Refusal :=
  match s.mon.cmd with
  | some (.help none) => done (finishLines (commandTable.map (fun p => text p.1)) .ok s)
  | some (.help (some n)) => done (finishLines ((keyword commandTable n).toList.map text) .ok s)
  | _ => done s

/-- ID. (DESIGN CHOICE, assumption 41.) -/
def idLines (s : State) : List (List Byte) :=
  let img := s.boot.image
  [idText, wordLine ((bytesToWords identityQ).take 24), lifeName s.life,
   text "SLOT " ++ (match s.rd F.SYS_IMG.RUN with | 0 => text "A" | 1 => text "B" | _ => text "NONE"),
   nameLine "GENERATION" ((img.map (·.gen)).getD 0), nameLine "SVN" ((img.map (·.svn)).getD 0), nameLine "COUNTER" s.arb,
   nameLine "OPTSEL" (s.rd F.SYS_OPT.BAND)]

def execId (s : State) : Host.Outcome State Fault Refusal :=
  if s.mon.cmd = some .id then done (finishLines (idLines s) .ok s) else done s

/-- STAT. -/
def statLines (s : State) : List (List Byte) :=
  [nameLine "PHASE" (s.rd F.SYS_BOOT.PHASE)] ++
  (List.range 2).map (fun x => spaced [if x = 0 then text "A" else text "B", hexWord (s.view (R.SHOT_STAT x)).toNat,
    hexWord (s.view (R.CMT_STAT x)).toNat, nameLine "LOCK" (s.rd F.FRP_CD_STAT.LOCK)]) ++
  [nameLine "TIMEBASE" (s.rd F.CLK_TB_STAT.STATE), nameLine "LINK0" (s.rd (F.NET_PSTAT.LINK 0)),
   nameLine "LINK1" (s.rd (F.NET_PSTAT.LINK 1)), nameLine "READY" (s.rd F.GND_STAT.READY), nameLine "LIVE" (s.rd F.MEMC_STAT.LIVE)]

def execStat (s : State) : Host.Outcome State Fault Refusal :=
  if s.mon.cmd = some .stat then done (finishLines (statLines s) .ok s) else done s

/-- Codes of the fenced units (R558). -/
def State.fencedUnits (s : State) : List Nat :=
  (List.range 15).filter s.sliceFenced ++ ((List.range 33).filter s.laneIsFenced).map (· + 0x20) ++
    (if s.hkFenced then [hkUnit (1 - s.hkActive)] else [])

/-- HEALTH: HLTH_STAT, the fenced units, then the newest records, newest first. -/
def healthLines (n : Nat) (s : State) : List (List Byte) :=
  [hexWord s.hlthStat.toNat, spaced (s.fencedUnits.map (fun u => text "0x" ++ hexOf 2 u))] ++
    ((s.health.recent.reverse.take n).map (fun r => wordLine r.payload))

def execHealth (s : State) : Host.Outcome State Fault Refusal :=
  match s.mon.cmd with
  | some (.health n) => done (finishLines (healthLines n s) .ok s)
  | _ => done s

/-- AUTH without a trailer (R636): a challenge, as 12 words and the device ID. -/
def monChallenge (s : State) : State :=
  match newChallenge s with
  | (some n, s1) => finishLines [wordLine (bytesToWords n), idText] .ok s1
  | (none, s1) => finish .refused s1

def execAuthChallenge (s : State) : Host.Outcome State Fault Refusal :=
  if s.mon.cmd = some .challenge then done (monChallenge s) else done s

/-- AUTH with a trailer (R542, R636). -/
def monAuthenticate (trailer : List Byte) (s : State) : State :=
  let s1 := dropChallenge s
  match s.trailerSlot [2] trailer with
  | some k => finishLines [nameLine "SLOT" k] .ok (openSession k (s1.bump F.SEC_AUTH.MONOK))
  | none => finish .auth (s1.bump F.SEC_AUTH.MONF)

def execAuth (s : State) : Host.Outcome State Fault Refusal :=
  match s.mon.cmd with
  | some (.auth t) => done (monAuthenticate t s)
  | _ => done s

/-- PEEK (R637): the words read, to the first register that fails. It may pause between two registers, for a management request to run
(R640). (DESIGN CHOICE, assumption 108.) -/
def monPeek (pause : Option Nat) (a n : Nat) (got : List Word) (s : State) : State :=
  let left := n - got.length
  let k := min left (pause.getD left)
  let (l, s1) := readRegs k ((a + 4 * got.length) % 2 ^ 32) (s.answer .ok)
  let all := got ++ l
  if s1.status = .ok ∧ k < left then s1.modMon (fun m => { m with cmd := some (.peek a n all) })
  else
    finishLines ((List.range all.length).map (fun i => hexWord ((a + 4 * i) % 2 ^ 32) ++ text " " ++ hexWord (wordAt all i).toNat))
      s1.status s1

def execPeek (pause : Option Nat) (s : State) : Host.Outcome State Fault Refusal :=
  match s.mon.cmd with
  | some (.peek a n got) => done (monPeek pause a n got s)
  | _ => done s

/-- LOG (R623): the newest entries, newest first. -/
def execLog (s : State) : Host.Outcome State Fault Refusal :=
  match s.mon.cmd with
  | some (.log n) => done (finishLines ((s.flash.log.reverse.take n).map (fun e => wordLine (bytesToWords e))) .ok s)
  | _ => done s

/-! ## TRACE (R639) -/

/-- TRACE arms a capture. P14 is sampled by the spare once it has left its rotation, at once when no window runs. (DEDUCED, assumption
43.) -/
def monTrace (f x a n : Nat) (s : State) : State :=
  let y : Fibre := if x = 0 then .a else .b
  if s.acquiring y = false then finish .refused s
  else if s.lpts y + s.rd (F.SHOT_GUARD.GUARD x) < a + n then finish .malformed s
  else if f = 15 ∧ s.spareReady = false then finish .busy s
  else
    let out := s.rd (F.SLC_STAT.MODE s.spareSlice) == slSpare
    let t : Trace := { func := f, fibre := x, start := a, count := n, at_ := s.now, from_ := s.now, held := f != 15 || out }
    s.modMon (fun m => { m with cmd := none, trace := some t })

def execTrace (s : State) : Host.Outcome State Fault Refusal :=
  match s.mon.cmd with
  | some (.trace f x a n) => done (monTrace f x a n s)
  | _ => done s

/-- The shot that a capture takes: the first launched on its fibre since it was armed. -/
def State.tracedShot (s : State) (t : Trace) : Option Slot :=
  if t.held then (s.commit.at t.fibre).slots.find? (fun sl => sl.kind != .dark && decide (t.from_ ≤ sl.tL)) else none

/-- One sample of a trace. -/
def sampleText (p : Int × Bool) : List Byte := decOfInt p.1 ++ (if p.2 then text "O" else [])

/-- Groups of 16, by fuel. -/
def sixteens {α : Type} : Nat → List α → List (List α)
  | 0, _ => []
  | k + 1, l => if l.isEmpty then [] else l.take 16 :: sixteens k (l.drop 16)

/-- TRACE_CAPTURE: the slice delivers the last sample: `ws` are CODE and OVR of the samples. -/
def traceCapture (ws : List (Int × Bool)) (s : State) : State :=
  match s.mon.trace with
  | none => s
  | some t =>
    match s.tracedShot t with
    | none => s
    | some sl =>
      if ws.length = t.count ∧ sl.tL + s.rd (F.SHOT_LRP.DELAY t.fibre) + t.start + t.count ≤ s.now + 1 then
        finishLines ((sixteens ws.length ws).map (fun g => spaced (g.map sampleText))) .ok s
      else s

def execTraceCapture (ws : List (Int × Bool)) (s : State) : Host.Outcome State Fault Refusal := done (traceCapture ws s)

/-- TRACE_TIMEOUT: no shot within 10 s. -/
def traceTimeout (s : State) : State :=
  match s.mon.trace with
  | none => s
  | some t => if t.at_ + 10_000_000_000 ≤ s.now ∧ (s.tracedShot t).isNone = true then finish .refused s else s

def execTraceTimeout (s : State) : Host.Outcome State Fault Refusal := done (traceTimeout s)

/-! ## Commands that need a session (R635, R637) -/

def execPoke (s : State) : Host.Outcome State Fault Refusal :=
  match s.mon.cmd with
  | some (.poke a w) => done (withSession (fun s => finishOp (busWrite s.monAuth a w) s) s)
  | _ => done s

/-- CAL: the START of a slice's or of a converter's calibration (R166, R357). -/
def monCal (u : Nat) (keep intr : Bool) (s : State) : State := if u ≤ 0x0E then calStart u keep intr s else hkCalStart intr s

def execCal (s : State) : Host.Outcome State Fault Refusal :=
  match s.mon.cmd with
  | some (.cal u k i) => done (withSession (finishOp (monCal u k i)) s)
  | _ => done s

def execTest (s : State) : Host.Outcome State Fault Refusal :=
  match s.mon.cmd with
  | some (.test u i) => done (withSession (finishOp (testGo u i)) s)
  | _ => done s

/-- RESET: source MON once the status line has been sent. (DEDUCED, assumption 44.) -/
def execMonReset (s : State) : Host.Outcome State Fault Refusal :=
  if s.mon.cmd = some .reset then
    done (if s.monAuth = none then finish .auth s else pulseSource srMon (finish .ok s))
  else done s

def execMonResetUnit (s : State) : Host.Outcome State Fault Refusal :=
  match s.mon.cmd with
  | some (.resetUnit u) => done (withSession (finishOp (unitReset u)) s)
  | _ => done s

/-! ## SLOT (R638) -/

/-- One slot: header valid or not, GENERATION, SVN, LENGTH, the mark. -/
def slotLine (k : Nat) (s : State) : List Byte :=
  let name := if k = 0 then text "A" else text "B"
  let mark := nameLine (if k = 0 then "FAILA" else "FAILB") (s.rd (markFld k))
  match s.slotHeader k with
  | some h => spaced [name, text "VALID", nameLine "GENERATION" h.gen, nameLine "SVN" h.svn, nameLine "LENGTH" h.length, mark]
  | none => spaced [name, text "INVALID", mark]

def slotLines (s : State) : List (List Byte) :=
  [slotLine 0 s, slotLine 1 s, text "SYS_IMG " ++ hexWord (s.view R.SYS_IMG).toNat, text "SYS_XFER " ++ hexWord (s.view R.SYS_XFER).toNat]

def execSlot (s : State) : Host.Outcome State Fault Refusal :=
  if s.mon.cmd = some .slot then done (finishLines (slotLines s) .ok s) else done s

def execSlotOpen (s : State) : Host.Outcome State Fault Refusal :=
  match s.mon.cmd with
  | some (.slotOpen d l) => done (withSession (finishOp (xferOpen d l)) s)
  | _ => done s

def execSlotData (s : State) : Host.Outcome State Fault Refusal :=
  match s.mon.cmd with
  | some (.slotData o ws) => done (withSession (finishOp (xferData o ws)) s)
  | _ => done s

def execSlotClose (s : State) : Host.Outcome State Fault Refusal :=
  if s.mon.cmd = some .slotClose then done (withSession (fun s => finishOp (xferClose s.monAuth) s) s) else done s

def execSlotAbort (s : State) : Host.Outcome State Fault Refusal :=
  if s.mon.cmd = some .slotAbort then done (withSession (finishOp xferAbort) s) else done s

/-- SLOT CLEAR: the slot's AON mark is cleared. -/
def execSlotClear (s : State) : Host.Outcome State Fault Refusal :=
  match s.mon.cmd with
  | some (.slotClear k) => done (withSession (finishOp (fun s => (s.wr (markFld k) 0).answer .ok)) s)
  | _ => done s

end Sys2Proof.Machine
end

