-- ==== Sys2Proof/Machine/Dispatch.lean ====
section
/-!
DEFINITION. The meaning of every command: one arm per constructor, each one call of its meaning.
-/
namespace Sys2Proof.Machine

def exec (i : Instr) (s : State) : Host.Outcome State Fault Refusal :=
  match i with
  | .registerWrite a w auth => Sys2Proof.Machine.execRegisterWrite a w auth s
  | .rcRead a => Sys2Proof.Machine.execRcRead a s
  | .holdingRead a => Sys2Proof.Machine.execHoldingRead a s
  | .clkTbSet => Sys2Proof.Machine.execClkTbSet s
  | .clkTbStep => Sys2Proof.Machine.execClkTbStep s
  | .capture => Sys2Proof.Machine.execCapture s
  | .servoHoldover => Sys2Proof.Machine.execServoHoldover s
  | .ppsInEdge rising sub => Sys2Proof.Machine.execPpsInEdge rising sub s
  | .ppsOutRise => Sys2Proof.Machine.execPpsOutRise s
  | .ppsOutFall => Sys2Proof.Machine.execPpsOutFall s
  | .netPllLockLost => Sys2Proof.Machine.execNetPllLockLost s
  | .start => Sys2Proof.Machine.execStart s
  | .stop => Sys2Proof.Machine.execStop s
  | .roundBoundary x refs dark sq count => Sys2Proof.Machine.execRoundBoundary x refs dark sq count s
  | .slotPermitEval x => Sys2Proof.Machine.execSlotPermitEval x s
  | .launch x => Sys2Proof.Machine.execLaunch x s
  | .ramanTrigger x => Sys2Proof.Machine.execRamanTrigger x s
  | .gainStep x => Sys2Proof.Machine.execGainStep x s
  | .shotStageGo x => Sys2Proof.Machine.execShotStageGo x s
  | .stageCheckComplete x => Sys2Proof.Machine.execStageCheckComplete x s
  | .planAdopt x sq count => Sys2Proof.Machine.execPlanAdopt x sq count s
  | .emitEnLow ns => Sys2Proof.Machine.execEmitEnLow ns s
  | .emitFilterExpire => Sys2Proof.Machine.execEmitFilterExpire s
  | .srcRearm => Sys2Proof.Machine.execSrcRearm s
  | .srcSetWrite n w => Sys2Proof.Machine.execSrcSetWrite n w s
  | .srcFadeWrite n w => Sys2Proof.Machine.execSrcFadeWrite n w s
  | .syncGo rndsel => Sys2Proof.Machine.execSyncGo rndsel s
  | .syncArmrnd rndsel => Sys2Proof.Machine.execSyncArmrnd rndsel s
  | .syncTick => Sys2Proof.Machine.execSyncTick s
  | .regulatorUpdate => Sys2Proof.Machine.execRegulatorUpdate s
  | .seedLoss n => Sys2Proof.Machine.execSeedLoss n s
  | .overcur n sense => Sys2Proof.Machine.execOvercur n sense s
  | .short n sense => Sys2Proof.Machine.execShort n sense s
  | .open n drive sense => Sys2Proof.Machine.execOpen n drive sense s
  | .groupRearm mask => Sys2Proof.Machine.execGroupRearm mask s
  | .launchEnergyEval x refs first shots => Sys2Proof.Machine.execLaunchEnergyEval x refs first shots s
  | .ramanRoundEval x => Sys2Proof.Machine.execRamanRoundEval x s
  | .shotRecordComplete x refs first ws => Sys2Proof.Machine.execShotRecordComplete x refs first ws s
  | .slcProfWrite x k w => Sys2Proof.Machine.execSlcProfWrite x k w s
  | .slcPstageGo x => Sys2Proof.Machine.execSlcPstageGo x s
  | .profileCheckComplete x => Sys2Proof.Machine.execProfileCheckComplete x s
  | .ovrlong n => Sys2Proof.Machine.execOvrlong n s
  | .sliceCalStart n keep intr => Sys2Proof.Machine.execSliceCalStart n keep intr s
  | .sliceCalAbort => Sys2Proof.Machine.execSliceCalAbort s
  | .sliceCalComplete m => Sys2Proof.Machine.execSliceCalComplete m s
  | .autocalRequest n temp => Sys2Proof.Machine.execAutocalRequest n temp s
  | .sliceFault n kind ago => Sys2Proof.Machine.execSliceFault n kind ago s
  | .cordonnetLockLost refs => Sys2Proof.Machine.execCordonnetLockLost refs s
  | .cordonnetLockRegained refs => Sys2Proof.Machine.execCordonnetLockRegained refs s
  | .channelSampleEmit x c refs first ws => Sys2Proof.Machine.execChannelSampleEmit x c refs first ws s
  | .ramanTraceComplete x ws => Sys2Proof.Machine.execRamanTraceComplete x ws s
  | .verdict x => Sys2Proof.Machine.execVerdict x s
  | .replayComplete x => Sys2Proof.Machine.execReplayComplete x s
  | .drainComplete x => Sys2Proof.Machine.execDrainComplete x s
  | .laneRelease ll => Sys2Proof.Machine.execLaneRelease ll s
  | .fltDscfgWrite x j w => Sys2Proof.Machine.execFltDscfgWrite x j w s
  | .fltAuxCfgWrite k w => Sys2Proof.Machine.execFltAuxCfgWrite k w s
  | .frpCfgWrite x w => Sys2Proof.Machine.execFrpCfgWrite x w s
  | .nop n => Sys2Proof.Machine.execNop n s
  | .bmac n f => Sys2Proof.Machine.execBmac n f s
  | .bmsu n f => Sys2Proof.Machine.execBmsu n f s
  | .bmpy n f => Sys2Proof.Machine.execBmpy n f s
  | .cmac n f => Sys2Proof.Machine.execCmac n f s
  | .cmpy n f => Sys2Proof.Machine.execCmpy n f s
  | .smac n f => Sys2Proof.Machine.execSmac n f s
  | .smsu n f => Sys2Proof.Machine.execSmsu n f s
  | .smpy n f => Sys2Proof.Machine.execSmpy n f s
  | .sqac n f => Sys2Proof.Machine.execSqac n f s
  | .clra n f => Sys2Proof.Machine.execClra n f s
  | .adda n f => Sys2Proof.Machine.execAdda n f s
  | .suba n f => Sys2Proof.Machine.execSuba n f s
  | .sha n f => Sys2Proof.Machine.execSha n f s
  | .sta n f => Sys2Proof.Machine.execSta n f s
  | .mva n f => Sys2Proof.Machine.execMva n f s
  | .lda n f => Sys2Proof.Machine.execLda n f s
  | .maxa n f => Sys2Proof.Machine.execMaxa n f s
  | .ldx n f => Sys2Proof.Machine.execLdx n f s
  | .ldy n f => Sys2Proof.Machine.execLdy n f s
  | .ldc n f => Sys2Proof.Machine.execLdc n f s
  | .stx n f => Sys2Proof.Machine.execStx n f s
  | .sty n f => Sys2Proof.Machine.execSty n f s
  | .ldi n f => Sys2Proof.Machine.execLdi n f s
  | .ldhi n f => Sys2Proof.Machine.execLdhi n f s
  | .mov n f => Sys2Proof.Machine.execMov n f s
  | .movs n f => Sys2Proof.Machine.execMovs n f s
  | .setp n f => Sys2Proof.Machine.execSetp n f s
  | .addp n f => Sys2Proof.Machine.execAddp n f s
  | .add n f => Sys2Proof.Machine.execAdd n f s
  | .sub n f => Sys2Proof.Machine.execSub n f s
  | .and n f => Sys2Proof.Machine.execAnd n f s
  | .or n f => Sys2Proof.Machine.execOr n f s
  | .xor n f => Sys2Proof.Machine.execXor n f s
  | .ash n f => Sys2Proof.Machine.execAsh n f s
  | .lsh n f => Sys2Proof.Machine.execLsh n f s
  | .cmp n f => Sys2Proof.Machine.execCmp n f s
  | .abs n f => Sys2Proof.Machine.execAbs n f s
  | .min n f => Sys2Proof.Machine.execMin n f s
  | .max n f => Sys2Proof.Machine.execMax n f s
  | .addi n f => Sys2Proof.Machine.execAddi n f s
  | .cmpi n f => Sys2Proof.Machine.execCmpi n f s
  | .br n f => Sys2Proof.Machine.execBr n f s
  | .call n f => Sys2Proof.Machine.execCall n f s
  | .ret n f => Sys2Proof.Machine.execRet n f s
  | .loop n f => Sys2Proof.Machine.execLoop n f s
  | .srd n f => Sys2Proof.Machine.execSrd n f s
  | .swr n f => Sys2Proof.Machine.execSwr n f s
  | .shdr n f => Sys2Proof.Machine.execShdr n f s
  | .send n f => Sys2Proof.Machine.execSend n f s
  | .laneKWrite n j w => Sys2Proof.Machine.execLaneKWrite n j w s
  | .periodTimeout x => Sys2Proof.Machine.execPeriodTimeout x s
  | .periodRecordWrite x => Sys2Proof.Machine.execPeriodRecordWrite x s
  | .dtsCoefWrite x lnc w => Sys2Proof.Machine.execDtsCoefWrite x lnc w s
  | .hkTrigger => Sys2Proof.Machine.execHkTrigger s
  | .hkTimerExpire => Sys2Proof.Machine.execHkTimerExpire s
  | .rgo => Sys2Proof.Machine.execRgo s
  | .igo => Sys2Proof.Machine.execIgo s
  | .monitorConversionDue => Sys2Proof.Machine.execMonitorConversionDue s
  | .conversionResult d => Sys2Proof.Machine.execConversionResult d s
  | .refSettled inRange => Sys2Proof.Machine.execRefSettled inRange s
  | .hkConverterFault c => Sys2Proof.Machine.execHkConverterFault c s
  | .hkCalStart intr => Sys2Proof.Machine.execHkCalStart intr s
  | .hkCalComplete pass gain ofs => Sys2Proof.Machine.execHkCalComplete pass gain ofs s
  | .hkSwap => Sys2Proof.Machine.execHkSwap s
  | .hkTestGo k => Sys2Proof.Machine.execHkTestGo k s
  | .hkTestAuto => Sys2Proof.Machine.execHkTestAuto s
  | .senExcWrite n w => Sys2Proof.Machine.execSenExcWrite n w s
  | .sensorCheckStart n => Sys2Proof.Machine.execSensorCheckStart n s
  | .sensorCheckEnd n => Sys2Proof.Machine.execSensorCheckEnd n s
  | .zoneReport k => Sys2Proof.Machine.execZoneReport k s
  | .zoneTimeout z => Sys2Proof.Machine.execZoneTimeout z s
  | .loopAckOne => Sys2Proof.Machine.execLoopAckOne s
  | .loopAckAll => Sys2Proof.Machine.execLoopAckAll s
  | .loopFixWrite n w => Sys2Proof.Machine.execLoopFixWrite n w s
  | .bobbinWrite b claim unit kind h1 h2 h3 ns x payload => Sys2Proof.Machine.execBobbinWrite b claim unit kind h1 h2 h3 ns x payload s
  | .ageLimit w => Sys2Proof.Machine.execAgeLimit w s
  | .recallTrig => Sys2Proof.Machine.execRecallTrig s
  | .recallRelease => Sys2Proof.Machine.execRecallRelease s
  | .recallExport => Sys2Proof.Machine.execRecallExport s
  | .refreshDue port rank bank => Sys2Proof.Machine.execRefreshDue port rank bank s
  | .mr4Read a0 a1 b0 b1 => Sys2Proof.Machine.execMr4Read a0 a1 b0 b1 s
  | .trackingEvent p ns temp => Sys2Proof.Machine.execTrackingEvent p ns temp s
  | .memcFreqGo t => Sys2Proof.Machine.execMemcFreqGo t s
  | .setPointChange => Sys2Proof.Machine.execSetPointChange s
  | .writeDrain p => Sys2Proof.Machine.execWriteDrain p s
  | .scrubRead found => Sys2Proof.Machine.execScrubRead found s
  | .linkUp p held fec => Sys2Proof.Machine.execLinkUp p held fec s
  | .linkDown p => Sys2Proof.Machine.execLinkDown p s
  | .frameReceive p f => Sys2Proof.Machine.execFrameReceive p f s
  | .mkaFrame p => Sys2Proof.Machine.execMkaFrame p s
  | .mkaHello p => Sys2Proof.Machine.execMkaHello p s
  | .sakRekey p => Sys2Proof.Machine.execSakRekey p s
  | .pnExhausted p => Sys2Proof.Machine.execPnExhausted p s
  | .arpFrame p => Sys2Proof.Machine.execArpFrame p s
  | .neighbourFrame p => Sys2Proof.Machine.execNeighbourFrame p s
  | .echoRequest p => Sys2Proof.Machine.execEchoRequest p s
  | .nextHopRefresh p => Sys2Proof.Machine.execNextHopRefresh p s
  | .resolveTimeout p => Sys2Proof.Machine.execResolveTimeout p s
  | .ptpMessage p => Sys2Proof.Machine.execPtpMessage p s
  | .delayReq => Sys2Proof.Machine.execDelayReq s
  | .announceTimeout => Sys2Proof.Machine.execAnnounceTimeout s
  | .streamGroupReady k => Sys2Proof.Machine.execStreamGroupReady k s
  | .groupTimeout k => Sys2Proof.Machine.execGroupTimeout k s
  | .descriptorTimer k => Sys2Proof.Machine.execDescriptorTimer k s
  | .failoverSwitch k => Sys2Proof.Machine.execFailoverSwitch k s
  | .failoverReturn k => Sys2Proof.Machine.execFailoverReturn k s
  | .netScfgEnWrite k en => Sys2Proof.Machine.execNetScfgEnWrite k en s
  | .mgmtRead pause => Sys2Proof.Machine.execMgmtRead pause s
  | .mgmtWrite pause => Sys2Proof.Machine.execMgmtWrite pause s
  | .cmdNop => Sys2Proof.Machine.execCmdNop s
  | .challenge => Sys2Proof.Machine.execChallenge s
  | .cmdReset => Sys2Proof.Machine.execCmdReset s
  | .unitReset => Sys2Proof.Machine.execUnitReset s
  | .attest => Sys2Proof.Machine.execAttest s
  | .xferOpen => Sys2Proof.Machine.execXferOpen s
  | .xferData => Sys2Proof.Machine.execXferData s
  | .xferClose => Sys2Proof.Machine.execXferClose s
  | .xferAbort => Sys2Proof.Machine.execXferAbort s
  | .compressRecord n => Sys2Proof.Machine.execCompressRecord n s
  | .blockTimeout n => Sys2Proof.Machine.execBlockTimeout n s
  | .compressedRecordWrite n => Sys2Proof.Machine.execCompressedRecordWrite n s
  | .compressorEccError n => Sys2Proof.Machine.execCompressorEccError n s
  | .dflEnWrite n en => Sys2Proof.Machine.execDflEnWrite n en s
  | .decompressObject ulen data ecc => Sys2Proof.Machine.execDecompressObject ulen data ecc s
  | .drbgReseed => Sys2Proof.Machine.execDrbgReseed s
  | .drbgHealthFail => Sys2Proof.Machine.execDrbgHealthFail s
  | .drbgRetry ok => Sys2Proof.Machine.execDrbgRetry ok s
  | .progkey slot => Sys2Proof.Machine.execProgkey slot s
  | .revoke slot => Sys2Proof.Machine.execRevoke slot s
  | .advance => Sys2Proof.Machine.execAdvance s
  | .fleetkey => Sys2Proof.Machine.execFleetkey s
  | .lockjtag => Sys2Proof.Machine.execLockjtag s
  | .fuseOpComplete ok => Sys2Proof.Machine.execFuseOpComplete ok s
  | .arbAutoAdvance => Sys2Proof.Machine.execArbAutoAdvance s
  | .challengeExpire => Sys2Proof.Machine.execChallengeExpire s
  | .sessionTimeout => Sys2Proof.Machine.execSessionTimeout s
  | .digestLinkClose n => Sys2Proof.Machine.execDigestLinkClose n s
  | .digestRecordWrite n => Sys2Proof.Machine.execDigestRecordWrite n s
  | .jtagInstruction ins src code => Sys2Proof.Machine.execJtagInstruction ins src code s
  | .heartbeatDeadline n p got others => Sys2Proof.Machine.execHeartbeatDeadline n p got others s
  | .pathRestore p => Sys2Proof.Machine.execPathRestore p s
  | .laneFault n e => Sys2Proof.Machine.execLaneFault n e s
  | .takeoverRestoreComplete => Sys2Proof.Machine.execTakeoverRestoreComplete s
  | .unservedTimeout ll => Sys2Proof.Machine.execUnservedTimeout ll s
  | .shadowWindowClose mismatch => Sys2Proof.Machine.execShadowWindowClose mismatch s
  | .frontResidueMismatch x late c t0 t1 => Sys2Proof.Machine.execFrontResidueMismatch x late c t0 t1 s
  | .hlthTestGo u intr => Sys2Proof.Machine.execHlthTestGo u intr s
  | .intrusiveTestEnd pass => Sys2Proof.Machine.execIntrusiveTestEnd pass s
  | .unitTestComplete u pass m gain ofs => Sys2Proof.Machine.execUnitTestComplete u pass m gain ofs s
  | .railLost n => Sys2Proof.Machine.execRailLost n s
  | .railsStable => Sys2Proof.Machine.execRailsStable s
  | .pin low ns => Sys2Proof.Machine.execPin low ns s
  | .therm t0 t1 t2 => Sys2Proof.Machine.execTherm t0 t1 t2 s
  | .wdt => Sys2Proof.Machine.execWdt s
  | .lock mem => Sys2Proof.Machine.execLock mem s
  | .resetEpisode src => Sys2Proof.Machine.execResetEpisode src s
  | .resetRelease asleep fusesOk r0 r1 r2 ecc => Sys2Proof.Machine.execResetRelease asleep fusesOk r0 r1 r2 ecc s
  | .romStart => Sys2Proof.Machine.execRomStart s
  | .imageLoad mode dtr size ecc => Sys2Proof.Machine.execImageLoad mode dtr size ecc s
  | .imageApply ecc => Sys2Proof.Machine.execImageApply ecc s
  | .bootTrainingComplete ok0 ok1 ok2 devices => Sys2Proof.Machine.execBootTrainingComplete ok0 ok1 ok2 devices s
  | .pageTableBuilt => Sys2Proof.Machine.execPageTableBuilt s
  | .lanesLoaded cal g0 g1 o0 o1 => Sys2Proof.Machine.execLanesLoaded cal g0 g1 o0 o1 s
  | .autoStart => Sys2Proof.Machine.execAutoStart s
  | .flashOpComplete ok => Sys2Proof.Machine.execFlashOpComplete ok s
  | .calStoreWrite => Sys2Proof.Machine.execCalStoreWrite s
  | .eventLogWrite => Sys2Proof.Machine.execEventLogWrite s
  | .monLine => Sys2Proof.Machine.execMonLine s
  | .help => Sys2Proof.Machine.execHelp s
  | .id => Sys2Proof.Machine.execId s
  | .stat => Sys2Proof.Machine.execStat s
  | .health => Sys2Proof.Machine.execHealth s
  | .authChallenge => Sys2Proof.Machine.execAuthChallenge s
  | .auth => Sys2Proof.Machine.execAuth s
  | .peek pause => Sys2Proof.Machine.execPeek pause s
  | .poke => Sys2Proof.Machine.execPoke s
  | .log => Sys2Proof.Machine.execLog s
  | .trace => Sys2Proof.Machine.execTrace s
  | .traceCapture ws => Sys2Proof.Machine.execTraceCapture ws s
  | .cal => Sys2Proof.Machine.execCal s
  | .test => Sys2Proof.Machine.execTest s
  | .slot => Sys2Proof.Machine.execSlot s
  | .slotOpen => Sys2Proof.Machine.execSlotOpen s
  | .slotData => Sys2Proof.Machine.execSlotData s
  | .slotClose => Sys2Proof.Machine.execSlotClose s
  | .slotAbort => Sys2Proof.Machine.execSlotAbort s
  | .slotClear => Sys2Proof.Machine.execSlotClear s
  | .monReset => Sys2Proof.Machine.execMonReset s
  | .monResetUnit => Sys2Proof.Machine.execMonResetUnit s
  | .emitEnHigh => Sys2Proof.Machine.execEmitEnHigh s
  | .mkaLifeTimeout p => Sys2Proof.Machine.execMkaLifeTimeout p s
  | .hkAutocalRequest => Sys2Proof.Machine.execHkAutocalRequest s
  | .onDemandTrainingComplete ok => Sys2Proof.Machine.execOnDemandTrainingComplete ok s
  | .identityKeyDerived => Sys2Proof.Machine.execIdentityKeyDerived s
  | .laneCheckpointTimer ll => Sys2Proof.Machine.execLaneCheckpointTimer ll s
  | .traceTimeout => Sys2Proof.Machine.execTraceTimeout s
  | .monCharacter c framing => Sys2Proof.Machine.execMonCharacter c framing s

end Sys2Proof.Machine
end

