-- ==== Sys2Proof/Machine/Tick.lean ====
section
/-!
DEFINITION. What happens at every TIME clock whatever is commanded: the timebase counts (R43), a recall export writes its next record
(R430), the Ground's arbiter and the memory controller serve what waits (R420, R448), the ports send (R487), and at a
millisecond's end the lanes' busy fractions are taken (R306).
-/
namespace Sys2Proof.Machine

/-- LANE clocks of a millisecond. -/
def laneMs : Nat := 800_000

/-- UCUR and UPEAK of a lane take the busy fraction of the millisecond just ended. -/
def utilLane (n : Nat) (s : State) : State :=
  let u := match s.shownLane n with
    | some l => util16 s.fresh ((l.busy : Rat) / (laneMs : Rat))
    | none => 0
  (s.spend 1).wrs [(F.LANE_UTIL.UCUR n, u), (F.LANE_UPEAK.UPEAK n, max u (s.rd (F.LANE_UPEAK.UPEAK n)))]

/-- A millisecond ends. -/
def utilMs (s : State) : State :=
  let s1 := (List.range 33).foldl (fun (s : State) n => utilLane n s) s
  s1.modLanes (fun v => { v with ll := v.ll.map (fun p => (p.1, { p.2 with busy := 0 })) })

/-- Dark slots whose start the TIME clock just past has reached take their timestamps (R51, R229): they were evaluated before it. -/
def stampDark (s : State) : State :=
  fibres.foldl (fun (s : State) x => s.modCmt x (fun m => { m with slots := m.slots.map (fun sl =>
    if sl.kind = .dark ∧ s.now < sl.tL + 4 ∧ sl.tL ≤ s.now then { sl with ts := s.stampAt sl.tL } else sl) })) s

/-- One TIME clock, 4 ns. (DESIGN CHOICE, assumption 2.) -/
def tick (s : State) : State :=
  let s1 := lineClock 1 (lineClock 0 (groundClock (exportStep (stampDark s.tbTick))))
  if s1.now % 1_000_000 = 0 then utilMs s1 else s1

end Sys2Proof.Machine
end

