-- ==== Sys2Proof/Machine/Step.lean ====
section
/-!
DEFINITION. One step: the command at the front of the queue, or one TIME clock when the queue is empty.
-/
namespace Sys2Proof.Machine

/-- The machine without the front of its queue. (DESIGN CHOICE, assumption 1.) -/
def State.rest (s : State) : State := { s with pending := s.pending.drop 1 }

/-- The machine with a command at the front of its queue. (DESIGN CHOICE, assumption 1.) -/
def State.ask (s : State) (c : Instr) : State := { s with pending := c :: s.pending }

/-- One step. (DESIGN CHOICE, assumptions 1 and 2; DEDUCED, assumption 77.) -/
def step (s : State) : Host.Outcome State Fault Refusal :=
  match s.pending with
  | [] => .next (tick s)
  | c :: _ => exec c s.rest

/-- The command that a word spells, put at the front of the queue; no word spells one. -/
def State.withFetchWord (s : State) (nbits w : Nat) : State :=
  match decodeTableWord nbits w with
  | some c => s.ask c
  | none => s

end Sys2Proof.Machine
end

