-- ==== Sys2Proof/WellFormed.lean ====
section
/-!
DEFINITION. Well-formed commands: every operand has a value that the encoding, the bus or the event it stands for can carry. `exec` gives
every command a meaning; a statement about encodings or about the environment's values assumes well-formed operands.
-/
namespace Sys2Proof

/-! ## Lane instruction formats (R290): each field fits its bits -/

def fits (w v : Nat) : Bool := decide (v < 2 ^ w)
def fitsI (w : Nat) (v : Int) : Bool := decide (-(2 ^ (w - 1) : Int) ≤ v ∧ v < (2 ^ (w - 1) : Int))

def FmtM.wf (f : FmtM) : Bool :=
  fits 1 f.src && fits 1 f.sb && fits 2 f.acd && fits 3 f.pa && fits 2 f.ma && fits 3 f.pb && fits 2 f.mb && fits 3 f.cp && fits 2 f.mc

def FmtA.wf (f : FmtA) : Bool :=
  fits 2 f.acd && fits 2 f.acs && fitsI 6 f.sh && fits 1 f.mem && fits 3 f.pt && fits 2 f.mod && fits 3 f.d && fits 4 f.mask

def FmtL.wf (f : FmtL) : Bool := fits 3 f.d && fits 3 f.pt && fits 2 f.mod
def FmtR.wf (f : FmtR) : Bool := fits 3 f.dd && fits 3 f.da && fits 3 f.db && fits 1 f.i && fitsI 6 f.shi

/-- An immediate is the 20-bit number of ADDI, CMPI and LDI, or 16 bits of LDHI. -/
def FmtI.wf (f : FmtI) : Bool := fits 3 f.dd && fits 3 f.da && fitsI 20 f.imm
def FmtI.wfHigh (f : FmtI) : Bool := fits 3 f.dd && fits 3 f.da && decide (0 ≤ f.imm ∧ f.imm < 65536)
def FmtP.wf (f : FmtP) : Bool := fits 4 f.reg && fitsI 14 f.imm

def FmtS.wf (f : FmtS) : Bool := fits 1 f.dir && fits 3 f.d && fits 6 f.sreg
def FmtB.wf (f : FmtB) : Bool := fits 4 f.cond && fits 12 f.tgt
/-- The count is an immediate or a register; the field that is not used is 0. -/
def FmtLP.wf (f : FmtLP) : Bool :=
  fits 1 f.cs && fits 13 f.cnt && fits 3 f.da && fits 12 f.last && decide (if f.cs = 0 then f.da = 0 else f.cnt = 0)
def FmtT.wf (f : FmtT) : Bool := fits 2 f.port && fits 1 f.memop && fits 1 f.mem && fits 3 f.pt && fits 2 f.mod && fits 3 f.d

/-! ## What the environment measures -/

def SliceCoefs.wf (c : SliceCoefs) : Bool := decide (c.mags.length = 6 ∧ c.delays.length = 6)
def RefSample.wf (r : RefSample) : Bool := fitsI 14 r.i && fitsI 14 r.q
def SliceWord.wf (w : SliceWord) : Bool := fitsI 14 w.code && decide (w.gain ≤ 5)
def FrontWord.wf (w : FrontWord) : Bool := w.xi.wf && w.xq.wf && w.yi.wf && w.yq.wf
def RamanWord.wf (w : RamanWord) : Bool := fitsI 14 w.as_ && fitsI 14 w.st
def ConvData.wf (d : ConvData) : Bool := fitsI 16 d.code && fitsI 16 d.idle

/-! ## What arrives on a network port -/

def addrWf (v6 : Bool) (a : Nat) : Bool := fits (if v6 then 128 else 32) a
def MkaMsg.wf (m : MkaMsg) : Bool :=
  fits 8 m.priority && fits 64 m.sci && (match m.sak with | some (an, k) => fits 2 an && fits 256 k | none => true)
def AddrMsg.wf (v6 : Bool) (m : AddrMsg) : Bool := addrWf v6 m.sender && fits 48 m.mac && addrWf v6 m.target
def PtpMsg.wf (m : PtpMsg) : Bool := decide (m.transport < 3) && fits 8 m.domain && fits 16 m.seq

def RxBody.wf : RxBody → Bool
  | .pause => true
  | .mka m => m.wf
  | .arp m => m.wf false
  | .neighbour m => m.wf true
  | .echo _ dst m => addrWf m.v6 dst && addrWf m.v6 m.src
  | .udp v6 _ src dst sport dport sum _ => addrWf v6 src && addrWf v6 dst && fits 16 sport && fits 16 dport && decide (sum < 3)
  | .ptp _ sum m => decide (sum < 3) && m.wf
  | .other => true

def RxFrame.wf (f : RxFrame) : Bool :=
  f.body.wf && (match f.vid with | some v => fits 12 v | none => true) &&
    (match f.sec with | some t => fits 2 t.an && fits 64 t.pn | none => true)

/-! ## Commands -/

/-- A command's operands are values it can carry. -/
def Instr.wf : Instr → Bool
  | .registerWrite v0 _ _ => fits 32 v0
  | .rcRead v0 => fits 32 v0
  | .holdingRead v0 => fits 32 v0
  | .clkTbSet => true
  | .clkTbStep => true
  | .capture => true
  | .servoHoldover => true
  | .ppsInEdge _ v1 => decide (v1 < 4)
  | .ppsOutRise => true
  | .ppsOutFall => true
  | .netPllLockLost => true
  | .start => true
  | .stop => true
  | .roundBoundary _ v1 v2 _ _ => v1.all (·.wf) && v2.all (·.wf)
  | .slotPermitEval _ => true
  | .launch _ => true
  | .ramanTrigger _ => true
  | .gainStep _ => true
  | .shotStageGo _ => true
  | .stageCheckComplete _ => true
  | .planAdopt _ _ _ => true
  | .emitEnLow _ => true
  | .emitFilterExpire => true
  | .srcRearm => true
  | .srcSetWrite _ _ => true
  | .srcFadeWrite _ _ => true
  | .syncGo _ => true
  | .syncArmrnd _ => true
  | .syncTick => true
  | .regulatorUpdate => true
  | .seedLoss _ => true
  | .overcur _ v1 => fits 16 v1
  | .short _ v1 => fits 16 v1
  | .open _ v1 v2 => fits 16 v1 && fits 16 v2
  | .groupRearm _ => true
  | .launchEnergyEval _ v1 _ v3 => v1.all (·.wf) && v3.all (fun l => l.all (·.wf))
  | .ramanRoundEval _ => true
  | .shotRecordComplete _ v1 _ v3 => v1.all (·.wf) && v3.all (·.wf)
  | .slcProfWrite _ _ _ => true
  | .slcPstageGo _ => true
  | .profileCheckComplete _ => true
  | .ovrlong _ => true
  | .sliceCalStart _ _ _ => true
  | .sliceCalAbort => true
  | .sliceCalComplete v0 => v0.wf
  | .autocalRequest _ _ => true
  | .sliceFault _ v1 _ => decide (1 ≤ v1 ∧ v1 ≤ 3)
  | .cordonnetLockLost v0 => v0.all (·.wf)
  | .cordonnetLockRegained v0 => v0.all (·.wf)
  | .channelSampleEmit _ v1 v2 _ v4 => fits 17 v1 && v2.all (·.wf) && v4.all (·.wf)
  | .ramanTraceComplete _ v1 => v1.all (·.wf)
  | .verdict _ => true
  | .replayComplete _ => true
  | .drainComplete _ => true
  | .laneRelease _ => true
  | .fltDscfgWrite _ _ _ => true
  | .fltAuxCfgWrite _ _ => true
  | .frpCfgWrite _ _ => true
  | .nop _ => true
  | .bmac _ v1 => v1.wf
  | .bmsu _ v1 => v1.wf
  | .bmpy _ v1 => v1.wf
  | .cmac _ v1 => v1.wf
  | .cmpy _ v1 => v1.wf
  | .smac _ v1 => v1.wf
  | .smsu _ v1 => v1.wf
  | .smpy _ v1 => v1.wf
  | .sqac _ v1 => v1.wf
  | .clra _ v1 => v1.wf
  | .adda _ v1 => v1.wf
  | .suba _ v1 => v1.wf
  | .sha _ v1 => v1.wf
  | .sta _ v1 => v1.wf
  | .mva _ v1 => v1.wf
  | .lda _ v1 => v1.wf
  | .maxa _ v1 => v1.wf
  | .ldx _ v1 => v1.wf
  | .ldy _ v1 => v1.wf
  | .ldc _ v1 => v1.wf
  | .stx _ v1 => v1.wf
  | .sty _ v1 => v1.wf
  | .ldi _ v1 => v1.wf
  | .ldhi _ v1 => v1.wfHigh
  | .mov _ v1 => v1.wf
  | .movs _ v1 => v1.wf
  | .setp _ v1 => v1.wf
  | .addp _ v1 => v1.wf
  | .add _ v1 => v1.wf
  | .sub _ v1 => v1.wf
  | .and _ v1 => v1.wf
  | .or _ v1 => v1.wf
  | .xor _ v1 => v1.wf
  | .ash _ v1 => v1.wf
  | .lsh _ v1 => v1.wf
  | .cmp _ v1 => v1.wf
  | .abs _ v1 => v1.wf
  | .min _ v1 => v1.wf
  | .max _ v1 => v1.wf
  | .addi _ v1 => v1.wf
  | .cmpi _ v1 => v1.wf
  | .br _ v1 => v1.wf
  | .call _ v1 => v1.wf
  | .ret _ v1 => v1.wf
  | .loop _ v1 => v1.wf
  | .srd _ v1 => v1.wf
  | .swr _ v1 => v1.wf
  | .shdr _ v1 => v1.wf
  | .send _ v1 => v1.wf
  | .laneKWrite _ _ _ => true
  | .periodTimeout _ => true
  | .periodRecordWrite _ => true
  | .dtsCoefWrite _ _ _ => true
  | .hkTrigger => true
  | .hkTimerExpire => true
  | .rgo => true
  | .igo => true
  | .monitorConversionDue => true
  | .conversionResult v0 => v0.wf
  | .refSettled _ => true
  | .hkConverterFault _ => true
  | .hkCalStart _ => true
  | .hkCalComplete _ _ _ => true
  | .hkSwap => true
  | .hkTestGo _ => true
  | .hkTestAuto => true
  | .senExcWrite _ _ => true
  | .sensorCheckStart _ => true
  | .sensorCheckEnd _ => true
  | .zoneReport _ => true
  | .zoneTimeout _ => true
  | .loopAckOne => true
  | .loopAckAll => true
  | .loopFixWrite _ _ => true
  | .bobbinWrite _ _ _ v3 _ _ _ _ _ _ => fits 4 v3
  | .ageLimit _ => true
  | .recallTrig => true
  | .recallRelease => true
  | .recallExport => true
  | .refreshDue _ _ _ => true
  | .mr4Read _ _ _ _ => true
  | .trackingEvent _ _ _ => true
  | .memcFreqGo _ => true
  | .setPointChange => true
  | .writeDrain _ => true
  | .scrubRead _ => true
  | .linkUp _ _ _ => true
  | .linkDown _ => true
  | .frameReceive _ v1 => v1.wf
  | .mkaFrame _ => true
  | .mkaHello _ => true
  | .sakRekey _ => true
  | .pnExhausted _ => true
  | .arpFrame _ => true
  | .neighbourFrame _ => true
  | .echoRequest _ => true
  | .nextHopRefresh _ => true
  | .resolveTimeout _ => true
  | .ptpMessage _ => true
  | .delayReq => true
  | .announceTimeout => true
  | .streamGroupReady _ => true
  | .groupTimeout _ => true
  | .descriptorTimer _ => true
  | .failoverSwitch _ => true
  | .failoverReturn _ => true
  | .netScfgEnWrite _ _ => true
  | .mgmtRead _ => true
  | .mgmtWrite _ => true
  | .cmdNop => true
  | .challenge => true
  | .cmdReset => true
  | .unitReset => true
  | .attest => true
  | .xferOpen => true
  | .xferData => true
  | .xferClose => true
  | .xferAbort => true
  | .compressRecord _ => true
  | .blockTimeout _ => true
  | .compressedRecordWrite _ => true
  | .compressorEccError _ => true
  | .dflEnWrite _ _ => true
  | .decompressObject _ _ _ => true
  | .drbgReseed => true
  | .drbgHealthFail => true
  | .drbgRetry _ => true
  | .progkey _ => true
  | .revoke _ => true
  | .advance => true
  | .fleetkey => true
  | .lockjtag => true
  | .fuseOpComplete _ => true
  | .arbAutoAdvance => true
  | .challengeExpire => true
  | .sessionTimeout => true
  | .digestLinkClose _ => true
  | .digestRecordWrite _ => true
  | .jtagInstruction _ _ _ => true
  | .heartbeatDeadline _ _ _ _ => true
  | .pathRestore _ => true
  | .laneFault _ _ => true
  | .takeoverRestoreComplete => true
  | .unservedTimeout _ => true
  | .shadowWindowClose _ => true
  | .frontResidueMismatch _ _ _ _ _ => true
  | .hlthTestGo _ _ => true
  | .intrusiveTestEnd _ => true
  | .unitTestComplete _ _ v2 _ _ => v2.wf
  | .railLost _ => true
  | .railsStable => true
  | .pin _ _ => true
  | .therm _ _ _ => true
  | .wdt => true
  | .lock _ => true
  | .resetEpisode _ => true
  | .resetRelease _ _ _ _ _ _ => true
  | .romStart => true
  | .imageLoad _ _ _ _ => true
  | .imageApply _ => true
  | .bootTrainingComplete _ _ _ _ => true
  | .pageTableBuilt => true
  | .lanesLoaded v0 _ _ _ _ => v0.all (·.wf)
  | .autoStart => true
  | .flashOpComplete _ => true
  | .calStoreWrite => true
  | .eventLogWrite => true
  | .monLine => true
  | .help => true
  | .id => true
  | .stat => true
  | .health => true
  | .authChallenge => true
  | .auth => true
  | .peek _ => true
  | .poke => true
  | .log => true
  | .trace => true
  | .traceCapture v0 => v0.all (fun p => fitsI 14 p.1)
  | .cal => true
  | .test => true
  | .slot => true
  | .slotOpen => true
  | .slotData => true
  | .slotClose => true
  | .slotAbort => true
  | .slotClear => true
  | .monReset => true
  | .monResetUnit => true
  | .emitEnHigh => true
  | .mkaLifeTimeout _ => true
  | .hkAutocalRequest => true
  | .onDemandTrainingComplete _ => true
  | .identityKeyDerived => true
  | .laneCheckpointTimer _ => true
  | .traceTimeout => true
  | .monCharacter _ _ => true

end Sys2Proof
end

