-- ==== Sys2Proof/Machine/LaneWords.lean ====
section
/-!
DEFINITION. Lane instruction words (R290, R291): the word of each lane command, and the command that a word spells.
-/
namespace Sys2Proof.Machine

/-- The lane on which a lane instruction issues and its word; none for every other command. -/
def laneWord : Instr → Option (Fin 33 × Word)
  | .nop n => some (n, opWord 0 0)
  | .bmac n f => some (n, encM 0x01 f)
  | .bmsu n f => some (n, encM 0x02 f)
  | .bmpy n f => some (n, encM 0x03 f)
  | .cmac n f => some (n, encM 0x04 f)
  | .cmpy n f => some (n, encM 0x05 f)
  | .smac n f => some (n, encM 0x06 f)
  | .smsu n f => some (n, encM 0x07 f)
  | .smpy n f => some (n, encM 0x08 f)
  | .sqac n f => some (n, encM 0x09 f)
  | .clra n f => some (n, encA 0x0A f)
  | .adda n f => some (n, encA 0x0B f)
  | .suba n f => some (n, encA 0x0C f)
  | .sha n f => some (n, encA 0x0D f)
  | .sta n f => some (n, encA 0x0E f)
  | .mva n f => some (n, encA 0x0F f)
  | .lda n f => some (n, encA 0x10 f)
  | .maxa n f => some (n, encA 0x11 f)
  | .ldx n f => some (n, encL 0x12 f)
  | .ldy n f => some (n, encL 0x13 f)
  | .ldc n f => some (n, encL 0x14 f)
  | .stx n f => some (n, encL 0x15 f)
  | .sty n f => some (n, encL 0x16 f)
  | .ldi n f => some (n, encI 0x17 f)
  | .ldhi n f => some (n, encI 0x18 f)
  | .mov n f => some (n, encR 0x19 f)
  | .movs n f => some (n, encS 0x1A f)
  | .setp n f => some (n, encP 0x1B f)
  | .addp n f => some (n, encP 0x1C f)
  | .add n f => some (n, encR 0x1D f)
  | .sub n f => some (n, encR 0x1E f)
  | .and n f => some (n, encR 0x1F f)
  | .or n f => some (n, encR 0x20 f)
  | .xor n f => some (n, encR 0x21 f)
  | .ash n f => some (n, encR 0x22 f)
  | .lsh n f => some (n, encR 0x23 f)
  | .cmp n f => some (n, encR 0x24 f)
  | .abs n f => some (n, encR 0x25 f)
  | .min n f => some (n, encR 0x26 f)
  | .max n f => some (n, encR 0x27 f)
  | .addi n f => some (n, encI 0x28 f)
  | .cmpi n f => some (n, encI 0x29 f)
  | .br n f => some (n, encB 0x2A f)
  | .call n f => some (n, encB 0x2B f)
  | .ret n f => some (n, encB 0x2C f)
  | .loop n f => some (n, encLP 0x2D f)
  | .srd n f => some (n, encT 0x2E f)
  | .swr n f => some (n, encT 0x2F f)
  | .shdr n f => some (n, encT 0x30 f)
  | .send n f => some (n, encT 0x31 f)
  | _ => none

/-! ## Fields of a word (R290) -/

def decM (w : Word) : FmtM :=
  { src := wordField 25 1 w, sb := wordField 24 1 w, acd := wordField 22 2 w, pa := wordField 19 3 w, ma := wordField 17 2 w,
    pb := wordField 14 3 w, mb := wordField 12 2 w, cp := wordField 9 3 w, mc := wordField 7 2 w }
def decA (w : Word) : FmtA :=
  { acd := wordField 24 2 w, acs := wordField 22 2 w, sh := sgn 6 (wordField 16 6 w), mem := wordField 15 1 w, pt := wordField 12 3 w,
    mod := wordField 10 2 w, d := wordField 7 3 w, mask := wordField 0 4 w }
def decL (w : Word) : FmtL := { d := wordField 23 3 w, pt := wordField 20 3 w, mod := wordField 18 2 w }
def decR (w : Word) : FmtR :=
  { dd := wordField 23 3 w, da := wordField 20 3 w, db := wordField 17 3 w, i := wordField 16 1 w, shi := sgn 6 (wordField 10 6 w) }
def decI (w : Word) : FmtI := { dd := wordField 23 3 w, da := wordField 20 3 w, imm := sgn 20 (wordField 0 20 w) }
def decP (w : Word) : FmtP := { reg := wordField 22 4 w, imm := sgn 14 (wordField 0 14 w) }
def decS (w : Word) : FmtS := { dir := wordField 25 1 w, d := wordField 22 3 w, sreg := wordField 16 6 w }
def decB (w : Word) : FmtB := { cond := wordField 22 4 w, tgt := wordField 0 12 w }
def decLP (w : Word) : FmtLP :=
  let cs := wordField 25 1 w
  { cs := cs, cnt := if cs = 0 then wordField 12 13 w else 0, da := if cs = 0 then 0 else wordField 22 3 w, last := wordField 0 12 w }
def decT (w : Word) : FmtT :=
  { port := wordField 24 2 w, memop := wordField 23 1 w, mem := wordField 22 1 w, pt := wordField 19 3 w, mod := wordField 17 2 w,
    d := wordField 14 3 w }

/-- The command that a word spells on lane `n`; none for a word that does not encode an instruction. (DEDUCED, assumption 68.) -/
def laneDecode (n : Fin 33) (w : Word) : Option Instr :=
  if encodes w = false then none
  else match opOf w with
    | 0x00 => some (.nop n)
    | 0x01 => some (.bmac n (decM w))
    | 0x02 => some (.bmsu n (decM w))
    | 0x03 => some (.bmpy n (decM w))
    | 0x04 => some (.cmac n (decM w))
    | 0x05 => some (.cmpy n (decM w))
    | 0x06 => some (.smac n (decM w))
    | 0x07 => some (.smsu n (decM w))
    | 0x08 => some (.smpy n (decM w))
    | 0x09 => some (.sqac n (decM w))
    | 0x0A => some (.clra n (decA w))
    | 0x0B => some (.adda n (decA w))
    | 0x0C => some (.suba n (decA w))
    | 0x0D => some (.sha n (decA w))
    | 0x0E => some (.sta n (decA w))
    | 0x0F => some (.mva n (decA w))
    | 0x10 => some (.lda n (decA w))
    | 0x11 => some (.maxa n (decA w))
    | 0x12 => some (.ldx n (decL w))
    | 0x13 => some (.ldy n (decL w))
    | 0x14 => some (.ldc n (decL w))
    | 0x15 => some (.stx n (decL w))
    | 0x16 => some (.sty n (decL w))
    | 0x17 => some (.ldi n (decI w))
    | 0x18 => some (.ldhi n (decI w))
    | 0x19 => some (.mov n (decR w))
    | 0x1A => some (.movs n (decS w))
    | 0x1B => some (.setp n (decP w))
    | 0x1C => some (.addp n (decP w))
    | 0x1D => some (.add n (decR w))
    | 0x1E => some (.sub n (decR w))
    | 0x1F => some (.and n (decR w))
    | 0x20 => some (.or n (decR w))
    | 0x21 => some (.xor n (decR w))
    | 0x22 => some (.ash n (decR w))
    | 0x23 => some (.lsh n (decR w))
    | 0x24 => some (.cmp n (decR w))
    | 0x25 => some (.abs n (decR w))
    | 0x26 => some (.min n (decR w))
    | 0x27 => some (.max n (decR w))
    | 0x28 => some (.addi n (decI w))
    | 0x29 => some (.cmpi n (decI w))
    | 0x2A => some (.br n (decB w))
    | 0x2B => some (.call n (decB w))
    | 0x2C => some (.ret n (decB w))
    | 0x2D => some (.loop n (decLP w))
    | 0x2E => some (.srd n (decT w))
    | 0x2F => some (.swr n (decT w))
    | 0x30 => some (.shdr n (decT w))
    | 0x31 => some (.send n (decT w))
    | _ => none

end Sys2Proof.Machine
end

