-- ==== Sys2Proof/Safety.lean ====
section
/-!
DEFINITION. The terms of claims: what a command runs to, what it leaves unchanged, and the invariant that every step keeps.
-/
namespace Sys2Proof.Machine

/-- A command runs from a state to another. -/
def runs (c : Instr) (s t : State) : Prop := exec c s = .next t

/-! ## What stays as it was -/

/-- The parts of the state. -/
inductive Part where
  | regs | holding | now | fresh | status | value | tb | sched | commit | aux | src | slices | cord | dts | flash
  | lanes | ground | health | hk | sensors | alarm | memc | comps | secu | boot | mon | net | pins | pending
deriving DecidableEq, Repr

/-- A part is the same in two states. -/
def Part.same : Part → State → State → Prop
  | .regs, s, t => t.regs = s.regs
  | .holding, s, t => t.holding = s.holding
  | .now, s, t => t.now = s.now
  | .fresh, s, t => t.fresh = s.fresh
  | .status, s, t => t.status = s.status
  | .value, s, t => t.value = s.value
  | .tb, s, t => t.tb = s.tb
  | .sched, s, t => t.sched = s.sched
  | .commit, s, t => t.commit = s.commit
  | .aux, s, t => t.aux = s.aux
  | .src, s, t => t.src = s.src
  | .slices, s, t => t.slices = s.slices
  | .cord, s, t => t.cord = s.cord
  | .dts, s, t => t.dts = s.dts
  | .flash, s, t => t.flash = s.flash
  | .lanes, s, t => t.lanes = s.lanes
  | .ground, s, t => t.ground = s.ground
  | .health, s, t => t.health = s.health
  | .hk, s, t => t.hk = s.hk
  | .sensors, s, t => t.sensors = s.sensors
  | .alarm, s, t => t.alarm = s.alarm
  | .memc, s, t => t.memc = s.memc
  | .comps, s, t => t.comps = s.comps
  | .secu, s, t => t.secu = s.secu
  | .boot, s, t => t.boot = s.boot
  | .mon, s, t => t.mon = s.mon
  | .net, s, t => t.net = s.net
  | .pins, s, t => t.pins = s.pins
  | .pending, s, t => t.pending = s.pending

/-- Nothing but the parts named has changed. -/
def keeps (ps : List Part) (s t : State) : Prop := ∀ p, p ∉ ps → p.same s t

/-- No register but those named has changed. -/
def keepsRegs (ks : List Nat) (s t : State) : Prop := ∀ k, k ∉ ks → t.reg k = s.reg k

/-- A saturating counter has counted one. -/
def counted (f : Fld) (s t : State) : Prop := t.rd f = satN f.w (s.rd f + 1)

/-- The parts and the registers that a health event may change (R572, R413, R623). -/
def eventParts : List Part := [.regs, .ground, .health, .flash]
def eventRegs : List Nat := [R.HLTH_EVSEQ, R.HLTH_EVCNT, R.HLTH_STAT, R.SYS_FLASH, R.GND_BDROP 127]

/-! ## Lane instructions -/

/-- The logical lane that physical lane `n` serves, and its core. -/
def State.laneOf (s : State) (n : Nat) : Logical := s.logical (s.laneLL n)
def State.laneCore (s : State) (n : Nat) : LaneCore := (s.laneOf n).core

/-- A core holds eight data registers, four accumulators of 56 bits with a residue each, eight 13-bit pointers, eight 14-bit offsets, two
modulus registers and six flags (R279, R281, R283, R284, R295). -/
def LaneCore.shaped (c : LaneCore) : Prop :=
  c.d.length = 8 ∧ c.ac.length = 4 ∧ c.res.length = 4 ∧ c.pt.length = 8 ∧ c.off.length = 8 ∧ c.md.length = 2 ∧
    (∀ v ∈ c.ac, -(2 ^ 55) ≤ v ∧ v < 2 ^ 55) ∧ (∀ p ∈ c.pt, p < 8192) ∧ (∀ o ∈ c.off, o < 16384) ∧ c.fl < 64

/-- Every accumulator carries the residue of its value (R295); and a core whose accumulators do. -/
def LaneCore.sound (c : LaneCore) : Prop := c.res = c.ac.map res7 ∧ c.err = false
def LaneCore.resound (c : LaneCore) : LaneCore := { c with res := c.ac.map res7 }

/-- The next address of an instruction that falls through lies in the program; past its end stands the trap PCEND (R297). -/
def State.goesOn (s : State) (n : Nat) : Prop :=
  (afterLoops (s.laneCore n).pc (s.laneCore n).loops).1 < (s.laneOf n).prog.length

/-- The PC and the loops of a core that falls through from `c` (R292, R294), the rest as `u` has it. -/
def LaneCore.onward (u c : LaneCore) : LaneCore :=
  { u with pc := (afterLoops c.pc c.loops).1, loops := (afterLoops c.pc c.loops).2.2 }

/-- On a core: `fl` after an assignment through sat56 or sat32 that clipped or did not (R284). -/
def stickySat (fl : Nat) (clipped : Bool) : Nat := if clipped then flPut fl flSAT true else fl

/-- From `s` to `t`, the logical lane of physical lane `n` has the core `c`, its clock counts have moved, it has retired an instruction now
and does not wait; every other part of the machine, every other logical lane, and its program, coefficients, bindings and
checkpoints are as before. -/
def laneOnly (n : Nat) (s t : State) (c : LaneCore) : Prop :=
  keeps [.lanes] s t ∧ { t.lanes with ll := s.lanes.ll } = s.lanes ∧ (∀ ll, ll ≠ s.laneLL n → t.logical ll = s.logical ll) ∧
    t.laneOf n = { s.laneOf n with core := c, wait := false, retired := s.now, clk := (t.laneOf n).clk, busy := (t.laneOf n).busy,
                                   loaded := (t.laneOf n).loaded, macced := (t.laneOf n).macced }

/-- A health event raised at `s` stands in the event history of `t` with its record (R572). -/
def raised (s t : State) (code : Nat) (sev : Severity) (unit : Nat) (fib : Option Fibre) (seq v5 v6 v7 : Nat) : Prop :=
  eventRecord s code sev unit fib seq v5 v6 v7 ∈ t.health.recent

/-- The event history of `t` holds an event of this code, severity, unit and operands, whenever it was raised (R572). -/
def reported (t : State) (code : Nat) (sev : Severity) (unit v5 v6 v7 : Nat) : Prop :=
  ∃ r ∈ t.health.recent, r.payload.head? = some (w32 (code % 0x10000 + sev.code * 0x10000 + unit % 256 * 0x100_0000)) ∧
    r.payload.drop 5 = [w32 v5, w32 v6, w32 v7]

/-- The logical lane of physical lane `n` has stopped with a trap of this kind at its PC (R297): the event 0x0802 of severity FAULT carries
the PC, and nothing else has changed but what an event changes. -/
def laneTrapped (n kind : Nat) (s t : State) : Prop :=
  keeps (.lanes :: eventParts) s t ∧ keepsRegs eventRegs s t ∧ { t.lanes with ll := s.lanes.ll } = s.lanes ∧
    (∀ ll, ll ≠ s.laneLL n → t.logical ll = s.logical ll) ∧
    t.logical (s.laneLL n) = { s.laneOf n with core := { s.laneCore n with trap := kind }, wait := false } ∧
    raised s t 0x0802 .fault (laneUnit n) none 0 (s.laneCore n).pc 0 0

/-- From `s` to `t`, the logical lane of physical lane `n` waits, and nothing else has changed (R288, R293). -/
def laneWaits (n : Nat) (s t : State) : Prop :=
  keeps [.lanes] s t ∧ { t.lanes with ll := s.lanes.ll } = s.lanes ∧ (∀ ll, ll ≠ s.laneLL n → t.logical ll = s.logical ll) ∧
    t.laneOf n = { s.laneOf n with wait := true }

/-! ## Management requests (R491–R497, R541) -/

/-- The authority that comes with request `r`: the owner key slot under which its trailer verifies over the context 1 and the signed
bytes. -/
def authority (s : State) (r : Request) : Option Nat :=
  if dgTrailer r.bytes = [] then none else (popRequest s).trailerSlot (1 :: dgSigned r.bytes) (dgTrailer r.bytes)

/-- The machine on which request `r` acts: it has left the queue, and a trailer has consumed the challenge. -/
def acting (s : State) (r : Request) : State := if dgTrailer r.bytes = [] then popRequest s else dropChallenge (popRequest s)

/-- A request comes to `t`, or fails with AUTH where its trailer does not verify or where it `needs` an authority that it does not have. -/
def judged (needs : Bool) (s : State) (r : Request) (t : State) : State :=
  if (dgTrailer r.bytes ≠ [] ∨ needs = true) ∧ authority s r = none then respond r .auth 0 [] (acting s r) else t

/-- The request at the head of the queue is the command `code` with at least `args` argument words, and no earlier one is in progress. -/
def commanded (s : State) (r : Request) (code args : Nat) : Prop :=
  s.net.queue.head? = some r ∧ s.net.prog = none ∧ isCmd code r.bytes = true ∧ args ≤ dgCount r.bytes ∧ dgCount r.bytes ≤ 256

/-! ## Frames that leave a port (R471) -/

/-- A frame of this content as it leaves port `p`: tagged where the port has a VLAN, EAPOL in the clear, every other one under the port's
SAK, if it protects frames. -/
def State.frameOf (s : State) (p : Nat) (w : Out) : Sent :=
  { port := p, dst := s.dstMac p w, what := w,
    tag := if s.rd (F.NET_PVLAN.VLAN p) = 1 then some (s.rd (F.NET_PVLAN.VID p), s.rd (F.NET_PVLAN.PCP p)) else none,
    pn := match w with
      | .eapol _ => none
      | _ => if s.msec p = 0 then none else some ((s.port p).sec.txPn, s.rd (F.NET_PSTAT.AN p)) }

/-- Port `p` may send a frame of this content. -/
def State.maySend (s : State) (p : Nat) (w : Out) : Prop :=
  s.rd (F.NET_PCFG.EN p) = 1 ∧ s.linkUp p = true ∧
    match w with
    | .eapol _ => True
    | _ => s.secured p = true ∧ (s.msec p ≠ 0 → s.rd (F.NET_PSTAT.PNEXH p) = 0) ∧
        (s.msec p = msecStatic → (s.port p).sec.txPn < pnLimit)

/-- A frame of this content, a stream's or none's, waits last at port `p`, if the port may send it; else nothing is handed to the port. -/
def handed (i : Option Nat) (p : Nat) (w : Out) (s t : State) : Prop :=
  (s.maySend p w → (t.port p).txq = (s.port p).txq ++ [(i, w)]) ∧ (¬ s.maySend p w → (t.port p).txq = (s.port p).txq)

/-- A message of this content is handed to port `p`. -/
def sends (p : Nat) (w : Out) (s t : State) : Prop := handed none p w s t

/-! ## Starts and plan changes (R33, R38, R84, R88) -/

/-- The view of the shared limits with fibre `x` acquiring under its live plan. -/
def State.startView (s : State) (x : Fibre) : View :=
  s.liveView.withAcq x.idx (some {
    nch := s.fibreCount x.idx, nT := (s.plan true x.idx).nT, tr := s.trOf x.idx (s.plan true x.idx) })

/-- The lowest code of R33 that forbids a start of fibre `x`, 0 for none; and the lowest of R88 that its plan breaks. -/
def State.startErr (s : State) (x : Fibre) : Nat :=
  lowestCode (s.geometryCodes x.idx ++ (if (s.geometryCodes x.idx).isEmpty then s.limitCodes x.idx (s.startView x) else []) ++
    (if profileCode (s.profile true x.idx) = 0 then [] else [12]))
def State.startCode (s : State) (x : Fibre) : Nat := lowestCode (s.planCodes x.idx (s.plan true x.idx) (s.trOf x.idx (s.plan true x.idx)))

/-- The lowest code of R88 that the staged plan of fibre `x` breaks, 0 for none. -/
def State.stageCode (s : State) (x : Fibre) : Nat :=
  lowestCode (s.planCodes x.idx (s.plan false x.idx) (s.trFor x (s.plan false x.idx)) ++
    s.stageLimits x.idx ((s.liveView.withAcq x.idx (some {
      nch := s.rd (F.SHOT_GSTAT.NCH_ACT x.idx), nT := (s.plan false x.idx).nT,
      tr := s.trFor x (s.plan false x.idx) })).withAcq x.other.idx (s.otherAcq x)))

/-- The fibre acquires and its round ends, or its first begins, now. -/
def State.atBoundary (s : State) (x : Fibre) : Prop := s.acquiring x = true ∧ s.nominal x ≤ s.now

/-- The next round of the fibre is one under its plan, neither a PROBE nor a sounding round (R80, R81). -/
def State.planned (s : State) (x : Fibre) : Prop := (s.sch x).upcoming.getD (s.sch x).nextMode = 0

/-! ## The invariant -/

/-- The register file and the Ground's bobbins are in canonical form: keys strictly rising, none that reads as an unlisted one does, so
that equal contents are equal data. -/
def State.canonical (s : State) : Prop := mapWf resetKey s.regs = true ∧ mapWf (fun _ => emptyBobbin) s.ground.bobs = true

/-! ## What the monitor prints (R632, R633) -/

/-- From `u` to `t`, a monitor command has ended: its lines, its status line and the prompt are printed, and then what the characters that
waited give; nothing else has changed. -/
def said (u t : State) (lines : List (List Byte)) (st : Status) : Prop :=
  keeps [.mon, .status] u t ∧ t.status = st ∧ t.mon.cmd = none ∧ t.mon.trace = none ∧
    ∃ rest, t.mon.out = u.mon.out ++ lines.flatMap (· ++ [13, 10]) ++
      (if st = .ok then text "OK" else text "ERR " ++ text (statusName st)) ++ [13, 10] ++ text "efras> " ++ rest ∧
      (u.mon.buffer = [] → rest = [] ∧ t.mon.line = u.mon.line ∧ t.mon.entered = u.mon.entered)

end Sys2Proof.Machine
end

