-- ==== Sys2Proof/Certificates/Slice0/Obligations.lean ====
section
/-!
DEFINITION. The statements about this model, group by group in the order of the opcode table. Each names the rules of the spec that it
formalises; what rests on a choice of the model says so and names the log entry.
-/
open Sys2Proof Sys2Proof.Machine

/-! ## The queue, the control bus and the clock tree (R6–R11, R43–R58, R493) -/

/-- A step runs the command at the front of the queue: it is `exec` of that command on the machine with the queue's rest, whatever stands
behind it; a command put in front by `ask` is the one that the next step runs. The queue is the model's own. -/
def Obligations.StepRunsTheFront : Prop :=
  ∀ (c : Instr) (q : List Instr) (s : State),
    (s.pending = c :: q → step s = exec c { s with pending := q }) ∧ step (s.ask c) = exec c s ∧ (s.ask c).pending = c :: s.pending

/-- Time (R43, R48, R49, R50): on an empty queue a step is one TIME clock of 4 ns. A running timebase adds 4 ns + RATE × 2⁻³² ns, RATE
saturated at ±17,179,869; a STEP waiting takes effect then, sets STEPPED, and the advance that the clock begins with raises the health event
that carries it with the next sequence numbers. A whole second that the ordinary advance passes while PPS_OUT is enabled is kept with an
instant of the four SAMP edges of this clock, and none is kept while it is disabled. A timebase held by a reset stands still. That a step of
an empty queue is a TIME clock, and which of the four edges, is the model's choice (assumptions 2 and 81). CLK_TB_CMD (R46, R48, R49, R53,
R54). SET loads SET_HI:SET_LO as the nanosecond count, sets STEPPED and raises the step's health event, and under PPS it returns STATE to
LOCKING; under PTP it is refused. It leaves a STEP not yet in effect to act after it, the model's choice (assumption 83). STEP while SRC is
FREE is kept for the next TIME clock, in the place of one not yet in effect; while disciplined it is refused. CAPTURE copies the value on
the present TIME edge, fraction included, to the three capture registers. While a reset holds the timebase none of the three acts. -/
def Obligations.TimeAndTimebase : Prop :=
  (∀ s : State, s.pending = [] →
     let rate : Int := let v := s.rdI F.CLK_TB_RATE.RATE
       if v < -17179869 then -17179869 else if 17179869 < v then 17179869 else v
     let on : Int := ((s.tb.acc : Int) + 4 * 2 ^ 32 + rate) % 2 ^ 96
     ∃ t, step s = .next t ∧ t.now = s.now + 4 ∧
       (s.tb.run = false → t.tb = s.tb) ∧
       (s.tb.run = true → s.tb.stepPend = none → (t.tb.acc : Int) = on ∧ t.tb.edge = t.tb.acc ∧ t.tb.stepPend = none) ∧
       (∀ d, s.tb.run = true → s.tb.stepPend = some d → (t.tb.edge : Int) = on ∧ (t.tb.acc : Int) = (on + d * 2 ^ 32) % 2 ^ 96 ∧
         t.tb.stepPend = none ∧ t.rd F.CLK_TB_STAT.STEPPED = 1 ∧
         reported s.tbTick 0x0102 .info noUnit (unsgn 32 d) (s.sch .a).nextSeq (s.sch .b).nextSeq) ∧
       (s.tb.run = true → let due := ((s.tb.acc : Int) + 4 * 2 ^ 32 + rate) / (1_000_000_000 * 2 ^ 32) ≠ s.tb.acc / (1_000_000_000 * 2 ^ 32)
         let en := s.rd F.CLK_TB_CTL.PPS_OUT_EN
         (en = 0 → t.tb.secAt = none) ∧ (en = 1 → ¬ due → t.tb.secAt = s.tb.secAt) ∧
         (en = 1 → due → ∃ τ, t.tb.secAt = some τ ∧ s.now < τ ∧ τ ≤ s.now + 4))) ∧
  (∀ s : State,
     let src := s.rd F.CLK_TB_CTL.SRC
     let ns := s.rd F.CLK_TB_SET_HI.SET_HI * 2 ^ 32 + s.rd F.CLK_TB_SET_LO.SET_LO
     let set := { s with tb := { s.tb with acc := ns * 2 ^ 32 } }
     let refused (i : Instr) : Prop := ∃ t, exec i s = .next t ∧ keeps [.status] s t ∧ t.status = .refused
     (s.busUp = false → ∀ i ∈ [Instr.clkTbSet, .clkTbStep, .capture], exec i s = .next s) ∧
     (s.busUp = true → src = 0 ∨ src = 3 → ∃ t, exec .clkTbSet s = .next t ∧ keeps (.tb :: .status :: eventParts) s t ∧
       keepsRegs (R.CLK_TB_STAT :: eventRegs) s t ∧ t.tb.acc = ns * 2 ^ 32 ∧ t.tb.stepPend = s.tb.stepPend ∧ t.rd F.CLK_TB_STAT.STEPPED = 1 ∧ t.status = .ok ∧
       t.rd F.CLK_TB_STAT.STATE = (if src = 3 then 1 else s.rd F.CLK_TB_STAT.STATE) ∧
       raised set t 0x0102 .info noUnit none 0 (unsgn 32 ((ns : Int) - s.tbNs)) (s.sch .a).nextSeq (s.sch .b).nextSeq) ∧
     (s.busUp = true → src = 1 ∨ src = 2 → refused .clkTbSet) ∧
     (s.busUp = true → src = 0 → ∃ t, exec .clkTbStep s = .next t ∧ keeps [.tb, .status] s t ∧ t.status = .ok ∧
       t.tb = { s.tb with stepPend := some (s.rdI F.CLK_TB_STEP_NS.STEP) }) ∧
     (s.busUp = true → src ≠ 0 → refused .clkTbStep) ∧
     (s.busUp = true → ∃ t, exec .capture s = .next t ∧ keeps [.regs, .status] s t ∧
       keepsRegs [R.CLK_TB_CAP_FRAC, R.CLK_TB_CAP_LO, R.CLK_TB_CAP_HI] s t ∧ t.status = .ok ∧
       (s.tb.edge < 2 ^ 96 → t.rd F.CLK_TB_CAP_HI.NS_HI * 2 ^ 64 + t.rd F.CLK_TB_CAP_LO.NS_LO * 2 ^ 32 +
         t.rd F.CLK_TB_CAP_FRAC.FRAC * 2 ^ 16 = s.tb.edge / 2 ^ 16 * 2 ^ 16)))

/-- A host's write or read that the bus does not carry out (R8, R10, R105, R493): a misaligned address answers ALIGN, one without a register
UNMAPPED, and a read of either gives 0; a write that would change what no host may write DENIED, an emission-affecting write without the
key's authority AUTH, and a value outside its range REFUSED. Nothing else changes, but that in the memory controller's block a read first
ends the tracking flags whose time has passed. -/
def Obligations.BusRefusals : Prop :=
  ∀ (a : Nat) (w : Word) (auth : Option (Fin 4)) (s : State), s.busUp = true →
    let answers (i : Instr) (st : Status) : Prop := ∃ t, exec i s = .next t ∧ keeps [.status] s t ∧ t.status = st
    (a % 4 ≠ 0 → answers (.registerWrite a w auth) .align) ∧
    (a % 4 = 0 → regDef? a = none → answers (.registerWrite a w auth) .unmapped) ∧
    (let u := if 0xF0000 ≤ a ∧ a < 0x100000 then s.memSettle else s
     let empty (st : Status) : Prop := ∃ t, exec (.rcRead a) s = .next t ∧ keeps [.value, .status] u t ∧ t.value = 0 ∧ t.status = st
     (a % 4 ≠ 0 → empty .align) ∧ (a % 4 = 0 → regDef? a = none → empty .unmapped)) ∧
    (∀ r, a % 4 = 0 → regDef? a = some r → r.denied (s.reg (s.keyOf a)).toNat w.toNat = true →
      answers (.registerWrite a w auth) .denied) ∧
    (∀ r, a % 4 = 0 → regDef? a = some r → r.denied (s.reg (s.keyOf a)).toNat w.toNat = false → s.emissionWrite a w = true →
      answers (.registerWrite a w none) .auth) ∧
    (∀ r, a % 4 = 0 → regDef? a = some r → r.denied (s.reg (s.keyOf a)).toNat w.toNat = false → s.emissionWrite a w = false →
      actDatapath r a w s = none → actSystem (auth.map (·.val)) r a w s = none →
      r.admits (fun f => f.host && f.acc == .rw) w.toNat = false → answers (.registerWrite a w auth) .refused)

/-- A write of a register that starts no action (R8, R493, R624), its value admitted: every RW and WO field takes the value written, a W1C
field keeps the bits that are not written 1, RO, RC and W1S fields stay, and no other register and no other part changes. Reads with an
effect (R8, R9, R11). A read of a register with an RC field gives its value and leaves the RC fields 0, the other fields as they were;
write-only fields and bits of no field read 0. A read of the lower word of a 64-bit pair gives it and puts the upper word, as it is at that
moment, into the holding register, which a read of any upper word then gives, whatever has changed meanwhile. In the memory controller's
block the tracking flags whose time has passed end first. -/
def Obligations.RegisterAccess : Prop :=
  (∀ (a : Nat) (w : Word) (auth : Option (Fin 4)) (s : State) (r : RegDef), s.busUp = true → a % 4 = 0 → regDef? a = some r →
     r.denied (s.reg (s.keyOf a)).toNat w.toNat = false → (s.emissionWrite a w = false ∨ auth ≠ none) →
     actDatapath r a w s = none → actSystem (auth.map (·.val)) r a w s = none →
     r.admits (fun f => f.host && f.acc == .rw) w.toNat = true →
     ∃ t, exec (.registerWrite a w auth) s = .next t ∧ keeps [.regs, .status] s t ∧ keepsRegs [s.keyOf a] s t ∧ t.status = .ok ∧
       ∀ f ∈ r.fields, f.pick (t.reg (s.keyOf a)).toNat = (match f.acc with
         | .rw | .wo => f.pick w.toNat
         | .w1c => f.pick (s.reg (s.keyOf a)).toNat &&& (2 ^ f.w - 1 - f.pick w.toNat)
         | .ro | .w1s | .rc => f.pick (s.reg (s.keyOf a)).toNat)) ∧
  (∀ (a : Nat) (s : State), s.busUp = true →
     (∀ r, a % 4 = 0 → regDef? a = some r → isUpper a = false → upperOf a = none →
       let u := if 0xF0000 ≤ a ∧ a < 0x100000 then s.memSettle else s
       ∃ t, exec (.rcRead a) s = .next t ∧ keeps [.regs, .value, .status] u t ∧ keepsRegs [u.keyOf a] u t ∧ t.status = .ok ∧
         (∀ f ∈ r.fields, f.acc ≠ .wo → f.pick t.value.toNat = f.pick (u.view a).toNat) ∧
         (∀ f ∈ r.fields, f.acc = .wo → f.pick t.value.toNat = 0) ∧
         (∀ n, (∀ f ∈ r.fields, n < f.lo ∨ f.lo + f.w ≤ n) → t.value.toNat / 2 ^ n % 2 = 0) ∧
         (∀ f ∈ r.fields, f.pick (t.reg (u.keyOf a)).toNat = if f.acc = .rc then 0 else f.pick (u.reg (u.keyOf a)).toNat)) ∧
     (∀ h, upperOf a = some h →
       (∃ t, exec (.holdingRead a) s = .next t ∧ keeps [.value, .status, .holding] s t ∧ t.status = .ok ∧ t.value = s.view a ∧
         t.holding = s.view h) ∧
       (∃ t, exec (.holdingRead h) s = .next t ∧ keeps [.value, .status] s t ∧ t.status = .ok ∧ t.value = s.holding)))

/-- The servo under PPS (R46, R47): an edge of the selected polarity is measured to the nearest whole second. While LOCKED, one more than 1
ms off is rejected with PPS_REJ, and the third in succession returns STATE to LOCKING. Any other is a valid update: an offset beyond the
step limit asks for the opposite step, a smaller one moves the frequency term and RATE by the loop's gains; the update that completes the
lock count within 100 ns sets STATE to LOCKED. An edge of the other polarity has no effect. That the time since the last valid update is
counted in whole TIME clocks of SAMP time is the model's choice (assumption 82). Holdover and PPS_OUT (R46, R50, R52): with no valid update
for the holdover time a disciplined, locking or locked servo goes to HOLDOVER and RATE takes the last filtered frequency; PPS_OUT rises for
a whole second passed while it is enabled and falls PPS_WIDTH ms after that rise, a width of 0 acting as 1. With none passed, or disabled,
it does not rise. -/
def Obligations.ServoAndPps : Prop :=
  (∀ (rising : Bool) (sub : Nat) (s : State),
     let o := secondOffset (s.tbAt sub / 2 ^ 32)
     let far := 1_000_000 < o.natAbs
     let picked := s.rd F.CLK_TB_CTL.SRC = 3 ∧ (rising = true ↔ s.rd F.CLK_TB_CTL.PPS_IN_POL = 0)
     let st := s.rd F.CLK_TB_STAT.STATE
     let dt : Nat := if s.tb.first then 1_000_000_000 else s.now - s.tb.lastValid
     (¬ picked → exec (.ppsInEdge rising sub) s = .next s) ∧
     (picked → st = 2 → far → ∃ t, exec (.ppsInEdge rising sub) s = .next t ∧ keeps (.tb :: eventParts) s t ∧
       keepsRegs (R.CLK_TB_STAT :: eventRegs) s t ∧ t.rd F.CLK_TB_STAT.PPS_REJ = 1 ∧ t.tb.lastValid = s.tb.lastValid ∧
       (if s.tb.rejects < 2 then t.tb.rejects = s.tb.rejects + 1 ∧ t.rd F.CLK_TB_STAT.STATE = 2
        else t.tb.rejects = 0 ∧ t.rd F.CLK_TB_STAT.STATE = 1)) ∧
     (picked → ¬ (st = 2 ∧ far) → ∃ t, exec (.ppsInEdge rising sub) s = .next t ∧ keeps (.tb :: eventParts) s t ∧
       keepsRegs (R.CLK_TB_STAT :: R.CLK_TB_RATE :: eventRegs) s t ∧ t.tb.lastValid = s.now ∧ t.tb.rejects = 0 ∧
       (s.tb.limits.stepNs < o.natAbs → t.tb.stepPend = some (-o)) ∧
       (o.natAbs ≤ s.tb.limits.stepNs → t.tb.stepPend = s.tb.stepPend ∧
         t.tb.servoI = clampRat (-s.slewLimit) s.slewLimit (s.tb.servoI - (o : Rat) / (16 * dt)) ∧
         t.rdI F.CLK_TB_RATE.RATE = rateOf (clampRat (-s.slewLimit) s.slewLimit (t.tb.servoI - (o : Rat) / (4 * dt)))) ∧
       (st = 1 → o.natAbs ≤ 100 → s.tb.limits.lockCount ≤ s.tb.inLock + 1 → t.rd F.CLK_TB_STAT.STATE = 2) ∧
       (st = 3 → 1 < s.tb.limits.lockCount → t.rd F.CLK_TB_STAT.STATE = 1))) ∧
  (∀ s : State,
     (s.rd F.CLK_TB_CTL.SRC ≠ 0 → (s.rd F.CLK_TB_STAT.STATE = 1 ∨ s.rd F.CLK_TB_STAT.STATE = 2) →
       s.tb.lastValid + s.tb.limits.holdoverMs * 1_000_000 ≤ s.now → ∃ t, exec .servoHoldover s = .next t ∧
         keeps (.tb :: eventParts) s t ∧ keepsRegs (R.CLK_TB_STAT :: R.CLK_TB_RATE :: eventRegs) s t ∧
         t.rd F.CLK_TB_STAT.STATE = 3 ∧ t.rdI F.CLK_TB_RATE.RATE = rateOf s.tb.servoI ∧ t.tb.servoI = s.tb.servoI) ∧
     (∀ τ, s.tb.secAt = some τ → s.rd F.CLK_TB_CTL.PPS_OUT_EN = 1 → ∃ t, exec .ppsOutRise s = .next t ∧ keeps [.tb, .pins] s t ∧
       t.tb = { s.tb with secAt := none } ∧
       t.pins = { s.pins with ppsOut := true, ppsFall := some (τ + max 1 (s.rd F.CLK_TB_CTL.PPS_WIDTH) * 1_000_000) }) ∧
     (s.tb.secAt = none ∨ s.rd F.CLK_TB_CTL.PPS_OUT_EN = 0 → exec .ppsOutRise s = .next s) ∧
     (∀ τ, s.pins.ppsFall = some τ → τ ≤ s.now → ∃ t, exec .ppsOutFall s = .next t ∧ keeps [.pins] s t ∧
       t.pins = { s.pins with ppsOut := false, ppsFall := none }))

/-! ## Acquisition (R35–R38, R77–R92, R219–R229, R237, R600) -/

/-- Starts (R38, R79, R88, R494, R600). A fibre that acquires, or whose start is not possible now, stays as it is; one whose commit logic
still drains starts after that. Otherwise the checks of R33 and R88 decide: it acquires from the next 100 ns edge at least 20 µs away, or
the lowest codes stand in ERR and CODE and the event 0x0201 carries them. AUTO_START, once due, starts the fibres of SYS_BOOTCFG, and the
boot's phase is 8. A fibre of length 0 is not used. -/
def Obligations.FibreStarts : Prop :=
  ∀ (x : Fibre) (s : State),
    let t := startFibre x s
    (s.acquiring x = true ∨ s.mayAcquire = false → t = s) ∧
    (s.acquiring x = false → s.mayAcquire = true →
      (s.cmState x ≠ cmIdle → t = s.modSch x (fun c => { c with startHeld := true })) ∧
      (s.cmState x = cmIdle → s.rd (F.SHOT_FLEN.LEN x.idx) ≠ 0 →
        (s.startErr x = 0 → s.startCode x = 0 → t.rd (F.SHOT_STAT.STATE x.idx) = 1 ∧ t.cmState x = cmRun ∧
          t.rd (F.SHOT_STAT.RUNRND x.idx) = 0 ∧ t.rd (F.SHOT_STAT.SEEDED x.idx) = 0 ∧ (t.cmt x).slots = [] ∧
          (∃ b, (t.sch x).startAt = some b ∧ b % 100 = 0 ∧ s.now + 20_000 ≤ b ∧ b < s.now + 20_100) ∧
          (t.sch x).tr = s.trOf x.idx (s.plan true x.idx) ∧ (t.sch x).nextSeq = (s.sch x).nextSeq ∧ t.sch x.other = s.sch x.other) ∧
        (s.startErr x ≠ 0 ∨ s.startCode x ≠ 0 → t.sched = s.sched ∧ t.commit = s.commit ∧ t.acquiring x = false ∧
          t.rd (F.SHOT_GSTAT.ERR x.idx) = s.startErr x ∧ t.rd (F.SHOT_STAGE.CODE x.idx) = s.startCode x ∧
          raised s t 0x0201 .warn noUnit (some x) 0 (s.startErr x) (s.startCode x) 0))) ∧
    (s.boot.autoDue = true → s.boot.episode = none → ∃ u : State,
      exec .autoStart s = .next (startMask (s.rd F.SYS_BOOTCFG.AUTO_A + 2 * s.rd F.SYS_BOOTCFG.AUTO_B) u) ∧
      keeps [.boot, .regs] s u ∧ keepsRegs [R.SYS_BOOT] s u ∧ u.boot = { s.boot with autoDue := false } ∧
      u.rd F.SYS_BOOT.PHASE = (if s.rd F.SYS_BOOT.PHASE = 7 then 8 else s.rd F.SYS_BOOT.PHASE)) ∧
    startMask 1 s = startFibre .a s ∧ startMask 2 s = startFibre .b s ∧ startMask 3 s = startFibre .b (startFibre .a s) ∧
    startMask 0 s = s

/-- Rounds and stops (R35, R60, R68, R78, R79, R84, R85, R205). At its boundary a fibre starts its first round, whose noise floor, measured
from the words before it, is then valid, or the next one: t_B(r + 1) = t_B(r) + T_R, and a round without a dark slot adds one to RUNRND,
which makes SEEDED 1 from 16 on. A stop asked for takes effect at the boundary: STATE, RUNRND and SEEDED are 0, the shadow set is the live
plan again, and the commit logic drains what was launched; boundaries of a stopped fibre commit what is due there. Which instants those
boundaries have is the model's choice (assumption 85). -/
def Obligations.Rounds : Prop :=
  ∀ (x : Fibre) (refs : List RefSample) (dark : List FrontWord) (sq count : Nat) (s : State),
    (s.acquiring x = false → exec (.roundBoundary x refs dark sq count) s = .next (drainStep x s)) ∧
    (s.atBoundary x →
    let c := s.sch x
    let u := if s.adopting x = true then adoptStaged x (s.cordRun refs) else s.cordRun refs
    let nf (b : Nat) : Nat := u.noiseFloor x ((u.plan true x.idx).freqs.take (u.plan true x.idx).nT) (u.pulseOf x 0 .das b) b dark
    let runs_ := if c.probing then 0 else if c.darkRound then s.rd (F.SHOT_STAT.RUNRND x.idx) else
      min 255 (s.rd (F.SHOT_STAT.RUNRND x.idx) + 1)
    (∀ b, c.stopReq = false → c.startAt = some b → s.planned x → ∃ t, exec (.roundBoundary x refs dark sq count) s = .next t ∧
      (t.sch x).startAt = none ∧ (t.sch x).round = 0 ∧ (t.sch x).tB = b ∧ (t.sch x).tr = s.nextTr x ∧ t.rd (F.FRP_NF.VLD x.idx) = 1 ∧
      t.rd (F.FRP_NF.NFDB x.idx) = unsgn 16 (dbOf (nf b)) ∧
      (s.adopting x = true → t.rd (F.SHOT_STAGE.PEND x.idx) = 0 ∧ ∀ k ∈ stagedRegs x.idx, t.reg (liveKey k) = s.reg k)) ∧
    (c.stopReq = false → c.startAt = none → s.adopting x = false → s.soundShot x = false → s.planned x → c.armed = none →
      ∃ t, exec (.roundBoundary x refs dark sq count) s = .next t ∧ (t.sch x).round = c.round + 1 ∧ (t.sch x).tB = c.tB + c.tr ∧
        (t.sch x).tr = s.nextTr x ∧ (t.sch x).nT = (s.plan true x.idx).nT ∧ (t.sch x).darkRound = false ∧
        t.rd (F.SHOT_STAT.RUNRND x.idx) = runs_ ∧ t.rd (F.SHOT_STAT.SEEDED x.idx) = if 16 ≤ runs_ then 1 else 0) ∧
    (c.stopReq = true → ∃ t, exec (.roundBoundary x refs dark sq count) s = .next t ∧ t.acquiring x = false ∧
      (∀ k ∈ stagedRegs x.idx, t.reg k = s.reg (liveKey k)) ∧ t.rd (F.SHOT_STAGE.PEND x.idx) = 0 ∧
      (s.rd (F.SHOT_STAGE.PEND x.idx) = 1 → t.rd (F.SHOT_STAGE.CODE x.idx) = 10) ∧
      t.rd (F.SHOT_STAT.RUNRND x.idx) = 0 ∧ t.rd (F.SHOT_STAT.SEEDED x.idx) = 0 ∧ (t.sch x).armed = none ∧
      (c.startAt = none → (t.cmt x).stopped = some (c.round, c.tB + c.tr) ∧ ((s.cmt x).replay = none → t.cmState x = cmDrain)) ∧
      (c.startAt ≠ none → t.cmState x = cmIdle)) ∧
    (stopMask 1 s = stopFibre .a s ∧ stopMask 2 s = stopFibre .b s ∧
      (s.adopting x = false → s.soundShot x = false → stopFibre x s = s.modSch x (fun c => { c with stopReq := true }))))

/-- Slots (R73, R77, R78, R83, R87, R89, R90, R99, R229). 64 ns before its earliest edge a slot is evaluated once: a permitted one is armed,
its gate window and the Raman trigger that falls to it are set under the plan of its round, and one that is dark in the round in progress
takes its place with an erased sample to come, clears RUNRND and SEEDED, and is counted. At its launch instant an armed slot joins the shots
in flight with the next sequence number, which the sequence registers show, and STATE of a DAS slot is 1; only a sounding shot that is
launched ends the request for it, the model's choice (assumption 86). A permitted Raman trigger is sent at its instant with its round's
pulse width, and its trace begins. -/
def Obligations.SlotsAndLaunches : Prop :=
  ∀ (x : Fibre) (s : State),
    let c := s.sch x
    (∀ q, s.acquiring x = true → s.evalSlot x = some q → s.firstEdge x q ≤ s.now + 64 → c.armed = none →
      let kind := s.slotKind x q
      let begun := c.startAt = none ∧ q.round = c.round
      ∃ t, exec (.slotPermitEval x) s = .next t ∧
        ((t.sch x).evalRound, (t.sch x).evalSlot) =
          (if q.slot + 1 < (s.plan q.live x.idx).nT then (q.round, q.slot + 1) else (q.round + 1, 0)) ∧
        (kind ≠ .dark ∨ ¬ begun → keeps [.sched] s t ∧ (t.sch x).armed = some (q.round, q.slot, kind)) ∧
        (kind ≠ .dark → (t.sch x).gate = some (s.gateWindow x q) ∧ (t.sch x).gateCut = false ∧
          ∀ τ, s.trigPermit x = true → ramanInstant q (s.plan q.live x.idx) = some τ →
            (t.sch x).ramanRound = some (q.round, τ, (s.plan q.live x.idx).twidth)) ∧
        (kind = .dark → begun → keeps [.sched, .commit, .regs] s t ∧ (t.sch x).armed = none ∧ (t.sch x).darkRound = true ∧
          t.rd (F.SHOT_STAT.RUNRND x.idx) = 0 ∧ t.rd (F.SHOT_STAT.SEEDED x.idx) = 0 ∧
          t.rd (F.CMT_ERASE.COUNT x.idx) = satN 32 (s.rd (F.CMT_ERASE.COUNT x.idx) + 1) ∧
          (∃ sl : Slot, (t.cmt x).slots = (s.cmt x).slots ++ [sl] ∧ sl.kind = .dark ∧ sl.erased = true ∧ sl.round = q.round ∧
            sl.tone = q.slot ∧ sl.tL = slotStart c.tB c.tr c.nT q.slot) ∧
          t.rd (F.SHOT_STAT.STATE x.idx) = if c.probing = true ∨ c.sounding = true then s.rd (F.SHOT_STAT.STATE x.idx) else 2)) ∧
    (∀ k kind, s.acquiring x = true → c.startAt = none → c.armed = some (c.round, k, kind) → kind ≠ .dark →
      slotStart c.tB c.tr c.nT k ≤ s.now →
      let sl := s.shotOf x c.round k kind (slotStart c.tB c.tr c.nT k)
      ∃ t, exec (.launch x) s = .next t ∧ (t.cmt x).slots = (s.cmt x).slots ++ [sl] ∧ (t.sch x).armed = none ∧ sl.seq = c.nextSeq ∧
        (t.sch x).nextSeq = (c.nextSeq + 1) % 2 ^ 48 ∧ (t.sch x).gate = some (sl.gateUp, sl.gateDown) ∧
        (t.sch x).soundReq = (c.soundReq && kind != .sound) ∧
        t.rd (F.SHOT_SEQ_LO.SEQ_LO x.idx) = c.nextSeq % 2 ^ 32 ∧ t.rd (F.SHOT_SEQ_HI.SEQ_HI x.idx) = c.nextSeq / 2 ^ 32 % 2 ^ 16 ∧
        t.rd (F.SHOT_STAT.STATE x.idx) = (if kind = .das then 1 else s.rd (F.SHOT_STAT.STATE x.idx)) ∧
        t.src.lastLaunch.at x.idx = some (slotStart c.tB c.tr c.nT k)) ∧
    (∀ r τ w, c.ramanRound = some (r, τ, w) → τ ≤ s.now → ∃ (t : State) (tr : RamanTrace), exec (.ramanTrigger x) s = .next t ∧
      keeps [.sched, .dts, .hk] s t ∧ (t.dts.at x.idx).traces = (s.dts.at x.idx).traces ++ [tr] ∧ tr.round = r ∧ tr.tRL = τ ∧
      tr.width = w ∧ tr.bad = !s.trigPermit x ∧ tr.sums = none ∧ (t.sch x).ramanRound = none ∧ (t.sch x).ramanLast = some τ ∧
      (t.sch x).trig = some (τ, if s.trigPermit x then τ + w else τ))

/-- Plan changes and the end of a drain (R62, R81, R84–R88, R237). SHOT_STAGE.GO is BUSY while a plan is pending; on an idle fibre the
staged set becomes the live one at once, on one that acquires the plan is pending. Its check accepts it, or drops it with the lowest code
and the event 0x0201. An accepted plan, or the re-plan after a sounding shot, starts its first round at t′. The drain's end leaves the
commit logic idle, and a start that waited for it follows. -/
def Obligations.PlanChanges : Prop :=
  ∀ (x : Fibre) (s : State),
    let c := s.sch x
    let pend := s.rd (F.SHOT_STAGE.PEND x.idx)
    (pend = 1 → exec (.shotStageGo x) s = .next (s.answer .busy)) ∧
    (pend = 0 → s.acquiring x = false → ∃ t, exec (.shotStageGo x) s = .next t ∧ keeps [.regs, .status] s t ∧ t.status = .ok ∧
      (∀ k ∈ stagedRegs x.idx, t.reg (liveKey k) = s.reg k) ∧ keepsRegs ((stagedRegs x.idx).map liveKey) s t) ∧
    (pend = 0 → s.acquiring x = true → ∃ t, exec (.shotStageGo x) s = .next t ∧ keeps [.regs, .sched, .status] s t ∧ t.status = .ok ∧
      keepsRegs [R.SHOT_STAGE x.idx] s t ∧ t.rd (F.SHOT_STAGE.PEND x.idx) = 1 ∧
      t.sch x = { c with goAt := s.now, accepted := false } ∧ t.sch x.other = s.sch x.other) ∧
    (pend = 1 → c.accepted = false → ∃ t, exec (.stageCheckComplete x) s = .next t ∧
      t.rd (F.SHOT_STAGE.CODE x.idx) = s.stageCode x ∧ t.rd (F.SHOT_STAGE.SRC x.idx) = 1 ∧
      (s.stageCode x = 0 → (t.sch x).accepted = true ∧ t.rd (F.SHOT_STAGE.PEND x.idx) = 1) ∧
      (s.stageCode x ≠ 0 → t.sched = s.sched ∧ t.rd (F.SHOT_STAGE.PEND x.idx) = 0 ∧
        raised s t 0x0201 .warn noUnit (some x) 0 0 (s.stageCode x) 0)) ∧
    (∀ b sq count, s.acquiring x = true → c.startAt = none → (s.adopting x = true ∨ s.soundShot x = true) → s.nextStart x = some b → b ≤ s.now →
      c.stopReq = false → s.planned x → ∃ t, exec (.planAdopt x sq count) s = .next t ∧ (t.sch x).round = c.round + 1 ∧
        (t.sch x).tB = b ∧ (t.sch x).tr = s.nextTr x ∧
        (s.adopting x = true → t.rd (F.SHOT_STAGE.PEND x.idx) = 0 ∧ ∀ k ∈ stagedRegs x.idx, t.reg (liveKey k) = s.reg k) ∧
        (s.soundShot x = true → t.rd (F.SHOT_STAT.OVERLEN x.idx) = 1 ∧ (t.sch x).replan = false)) ∧
    (∀ b, s.acquiring x = false → s.cmState x ≠ cmIdle → (s.cmt x).drainAt = some b → b ≤ s.now →
      ∃ u : State, exec (.drainComplete x) s = .next (if c.startHeld then tryStart x u else u) ∧ u.cmState x = cmIdle ∧
        u.rd (F.FRP_STAT.ACTIVE x.idx) = 0 ∧ (u.cmt x).slots = [] ∧ (u.cmt x).rounds = [] ∧ (u.cmt x).stopped = none ∧
        (u.sch x).startHeld = false)

/-! ## Resets and boot (R41, R435, R582–R601, R610, R617) -/

/-- An assertion (R85, R586–R595): SYS_CAUSE records the source, the episode has the deepest reach so far, and a WARM reach whose DRAM would
not keep its contents is FABRIC; its release has not begun. COLD and FABRIC put every register that they do not keep at its reset value and
every engine into its reset state; ACQ ends both fibres' acquisition and discards all that is uncommitted and every shadow set, with the
image in force. The reset sources (R41, R582–R587). A rail below its threshold clears its GOOD bit, sets its LOSS bit and asserts BOR, the
always-on one asserts POR; stable rails release both. RESET_N asserts from 1 µs low on and not below 100 ns, and releases after 1 µs high;
the die sensors assert at 125 °C and release once all are at or below 115 °C. The watchdog and the loss of a PLL's lock are pulses of 10 µs,
and the loss stays to be read. -/
def Obligations.Resets : Prop :=
  (∀ (src : Fin 9) (s : State),
     let reach := min (s.reachOf src) (s.boot.episode.getD rchAcq)
     let r := if reach = rchWarm ∧ s.dramHolds = false then rchFabric else reach
     ∃ t, exec (.resetEpisode src) s = .next t ∧ t.boot.episode = some r ∧ t.boot.release = none ∧ t.now = s.now ∧
       t.reg R.SYS_CAUSE = (if src = 0 then 1 else s.reg R.SYS_CAUSE ||| w32 (2 ^ src.val)) ∧
       t.boot.asserted = s.boot.asserted.filter (·.1 ≠ src.val) ++
         [(src.val, if src.val ≤ srTherm then none else some (s.now + 10_000))] ∧
       (r = rchCold ∨ r = rchFabric → (∀ k, keptReg r false k = false → t.reg k = resetKey k) ∧ t.sched = State.reset.sched ∧
         t.commit = State.reset.commit ∧ t.lanes = State.reset.lanes ∧ t.ground = State.reset.ground ∧ t.dts = State.reset.dts ∧
         t.slices = State.reset.slices ∧ t.tb = State.reset.tb ∧ t.health = State.reset.health ∧ t.boot.image = none) ∧
       (r = rchAcq → t.boot.image = s.boot.image ∧ ∀ x, t.acquiring x = false ∧ t.cmState x = cmIdle ∧ (t.cmt x).slots = [] ∧
         (t.cmt x).stopped = none ∧ t.rd (F.SHOT_STAT.SEEDED x.idx) = 0 ∧
         (∀ k ∈ stagedRegs x.idx, t.reg k = s.reg (liveKey k)) ∧ t.rd (F.SHOT_STAGE.PEND x.idx) = 0)) ∧
  (∀ s : State,
     let asserts (i : Instr) (src : Nat) (till : Option Nat) (t : State) : Prop := exec i s = .next t ∧ (src, till) ∈ t.boot.asserted ∧
       t.boot.episode ≠ none ∧ t.boot.release = none
     let releases (i : Instr) (src : Nat) : Prop := ∃ t, exec i s = .next t ∧ keeps [.boot, .pins] s t ∧
       t.boot = { s.boot with asserted := s.boot.asserted.filter (·.1 ≠ src) }
     (∀ n : Fin 8, n.val < 7 → ∃ t, asserts (.railLost n) srBor none t ∧
       nthBit (t.rd F.SYS_RAIL.GOOD) n = false ∧ (nthBit (s.rd F.SYS_RAIL.GOOD) n = true → nthBit (t.rd F.SYS_RAIL.LOSS) n = true)) ∧
     (∃ t, asserts (.railLost 7) srPor none t ∧ t.boot.vaon = false ∧ t.reg R.SYS_CAUSE = 1 ∧ t.rd F.SYS_RAIL.LOSS = 0) ∧
     (∃ t, exec .railsStable s = .next t ∧ keeps [.regs, .boot] s t ∧ keepsRegs [R.SYS_RAIL] s t ∧ t.rd F.SYS_RAIL.GOOD = 0x7F ∧
       t.boot = { s.boot with vaon := true, asserted := s.boot.asserted.filter (fun p => p.1 ≠ srPor ∧ p.1 ≠ srBor) }) ∧
     (∀ ns, 1000 ≤ ns → (∃ t, asserts (.pin true ns) srPin none t ∧ t.pins.resetN = false) ∧ releases (.pin false ns) srPin) ∧
     (∀ ns, ns < 100 → ∃ t, exec (.pin true ns) s = .next t ∧ keeps [.pins] s t ∧ t.pins = { s.pins with resetN := false }) ∧
     (∀ t0 t1 t2 : Int, (1250 ≤ t0 ∨ 1250 ≤ t1 ∨ 1250 ≤ t2 → ∃ t, asserts (.therm t0 t1 t2) srTherm none t) ∧
       (t0 ≤ 1150 → t1 ≤ 1150 → t2 ≤ 1150 → releases (.therm t0 t1 t2) srTherm) ∧
       (t0 < 1250 → t1 < 1250 → t2 < 1250 → 1150 < t0 → exec (.therm t0 t1 t2) s = .next s)) ∧
     (∃ t, asserts .wdt srWdt (some (s.now + 10_000)) t) ∧
     (s.rd F.CLK_STAT.ROOT_LOCK = 1 → ∃ t, asserts (.lock false) srLock (some (s.now + 10_000)) t ∧ t.rd F.CLK_STAT.ROOT_LOST = 1) ∧
     (s.rd F.CLK_STAT.MEM_LOCK = 1 → ∃ t, asserts (.lock true) srLock (some (s.now + 10_000)) t ∧ t.rd F.CLK_STAT.MEM_LOST = 1))

/-- Release and ROM start (R590–R592, R598, R601). Once every source is released an ACQ episode ends: it is counted, LAST shows the reach. A
deeper one begins its release, PHASE 1, with the option loading of a COLD reach; a WARM one whose DRAM is not in self-refresh deepens to
FABRIC first. With the PLLs locked the episode ends, the timebase runs, and the ROM stops there under MAINT, BLANK and FAULT. -/
def Obligations.ReleaseAndRom : Prop :=
  ∀ (asleep fuses : Bool) (r0 r1 r2 : Fin 4096) (ecc : Option Nat) (s : State),
    let go := Instr.resetRelease asleep fuses r0 r1 r2 ecc
    (∀ r, s.boot.episode = some r → s.boot.release = none → s.allReleased = true →
      (r = rchAcq → ∃ t, exec go s = .next t ∧ t.boot.episode = none ∧ t.boot.asserted = [] ∧ counted F.SYS_REACH.EPIS s t ∧
        t.rd F.SYS_REACH.LAST = rchAcq ∧ (s.boot.image ≠ none → 8 ≤ s.rd F.SYS_BOOT.PHASE → t.boot.autoDue = true)) ∧
      (r = rchCold → ∃ t, exec go s = .next t ∧ t.boot.episode = some rchCold ∧ t.boot.release = some s.now ∧
        t.rd F.SYS_BOOT.PHASE = 1 ∧ t.reg R.SYS_RTBL = s.fusedTable ∧ t.reg R.SYS_OPT = optWord [r0, r1, r2] ∧
        t.rd F.SEC_STAT.LIFE = (if fuses then s.lifeOf else lifeFault) % 4) ∧
      ((r = rchFabric ∨ (r = rchWarm ∧ asleep = true ∧ s.memc.held = true)) → ∃ t, exec go s = .next t ∧ t.boot.episode = some r ∧
        t.boot.release = some s.now ∧ t.rd F.SYS_BOOT.PHASE = 1 ∧ t.boot.bootAt = s.now ∧
        keeps [.boot, .src, .regs] s t ∧ keepsRegs [R.SYS_BOOT] s t) ∧
      (r = rchWarm → (asleep = false ∨ s.memc.held = false) → ∃ t, exec go s = .next t ∧ t.boot.episode = some rchFabric ∧
        t.boot.deepened = true ∧ t.boot.release = some s.now ∧ t.rd F.SYS_BOOT.PHASE = 1 ∧ t.ground = State.reset.ground)) ∧
    (s.boot.release ≠ none → ∃ t, exec .romStart s = .next t ∧ t.boot.episode = none ∧ t.boot.release = none ∧ t.tb.run = true ∧
      counted F.SYS_REACH.EPIS s t ∧ t.rd F.CLK_STAT.REF_PRES = 1 ∧ t.rd F.CLK_STAT.ROOT_LOCK = 1 ∧ t.rd F.CLK_STAT.MEM_LOCK = 1 ∧
      t.rd F.CLK_STAT.NET_LOCK = 1 ∧ t.rd F.SYS_BOOT.PHASE = 2 ∧
      (t.boot.stopped = true ↔ s.rd F.SYS_OPT.MAINT = 1 ∨ s.life = lifeBlank ∨ s.life = lifeFault))

/-- The boot (R528, R538, R598, R610, R617, R619, R622). Image load shows the flash that SFDP gave and tries the slots, the one of higher
GENERATION first: a slot that authenticates is loaded, one that does not is marked, and its RESULT says why. Its application puts every
record in force and leaves PHASE 4, or marks the slot with the code of R617. Lane loading leaves PHASE 7 and every lane that no failure
limit holds in service. -/
def Obligations.BootSequence : Prop :=
  ∀ (ecc : Option Nat) (s : State),
    (∀ (mode : Fin 4) (dtr : Bool) (size : Fin 32), s.rd F.SYS_BOOT.PHASE = 2 → s.boot.stopped = false → s.boot.episode = none →
      s.secu.identity = true →
      (mode = 0 ∨ size.val < 27 → ∃ t, exec (.imageLoad mode dtr size ecc) s = .next t ∧ keeps [.regs, .boot] s t ∧
        t.boot = { s.boot with stopped := true } ∧ t.rd F.SYS_FLASH.MODE = 0 ∧ t.rd F.SYS_BOOT.PHASE = 3) ∧
      (mode ≠ 0 → 27 ≤ size.val → ∃ u : State, exec (.imageLoad mode dtr size ecc) s = .next (tryImages ecc 2 u) ∧
        keeps [.regs, .flash] s u ∧ u.rd F.SYS_FLASH.MODE = mode.val ∧ u.rd F.SYS_FLASH.SIZE = size.val ∧
        u.rd F.SYS_BOOT.PHASE = 3 ∧ u.flash.slots = s.flash.slots)) ∧
    (∀ n, (s.firstSlot = none → tryImages ecc (n + 1) s = s.modBoot (fun b => { b with stopped := true })) ∧
      (∀ k, s.firstSlot = some k → match authenticate false k ecc (s.flash.slots.at k) s with
        | (_, .passed i) => (tryImages ecc (n + 1) s).boot.loaded = some i ∧ (tryImages ecc (n + 1) s).rd F.SEC_IMGSTAT.RESULT = 1
        | (v, .failed 8) => tryImages ecc (n + 1) s = tryImages ecc n (v.wrs [(F.SEC_IMGSTAT.RESULT, 8), (markFld k, 1)])
        | (v, .failed c) =>
          tryImages ecc (n + 1) s = pulseSource srImg (v.wrs [(F.SEC_IMGSTAT.RESULT, c), (markFld k, 1)]))) ∧
    (∀ i, s.boot.loaded = some i →
      let v := s.modBoot (fun b => { b with loaded := none })
      match configure i v with
      | .ok _ => ∃ t, exec (.imageApply ecc) s = .next t ∧ t.boot.image = some i ∧ t.boot.loaded = none ∧ t.rd F.SYS_BOOT.PHASE = 4 ∧
          t.rd F.SYS_IMG.RUN = i.slot % 4 ∧ t.rd F.SYS_GEN.GEN = i.gen % 2 ^ 32 ∧ t.memc.train = some .boot
      | .error e => exec (.imageApply ecc) s = .next (tryImages ecc 1 ((showRefused617 e v).wr (markFld i.slot) 1))) ∧
    (∀ cal g0 g1 o0 o1, s.rd F.SYS_BOOT.PHASE = 5 → s.boot.episode = none → ∃ t, exec (.lanesLoaded cal g0 g1 o0 o1) s = .next t ∧
      t.rd F.SYS_BOOT.PHASE = 7 ∧ t.boot.autoDue = true ∧
      (∀ n, n < 32 → s.unitHeld (laneUnit n) = false → t.laneMode n = laneActive ∧ t.laneLL n = n) ∧
      (∀ n, n < 33 → s.unitHeld (laneUnit n) = true → t.laneMode n = laneFenced))

/-! ## The memory controller and the Ground (R407–R432, R443–R464) -/

/-- Upkeep of the DRAM (R445–R447, R450, R451, R455). A bank's refresh due is postponed behind queued accesses up to eight times, then
forced, and each one issued pays one back; the next falls due t_REFI/m later, and an issued one holds its bank for t_RFCpb from when it is
idle. MR4 readings set m and THOT, with the event 0x0F02 as it rises or returns to 1. A tracking event holds its port for at most 1.8 µs. A
write buffer at HIWM drains. The scrub reads its next sector when it is due: one with a single error is counted and written back, one with a
double error is counted, reported with 0x0F01 and poisoned. The order and pace of the scrub are the model's choice (assumption 106). -/
def Obligations.MemoryUpkeep : Prop :=
  ∀ s : State,
    (s.memUp = true → ∀ (port rank : Fin 2) (bank : Fin 16), rank.val < s.ranks →
      let k := bankKey port rank bank
      let due := mapGet (fun _ => (0 : Nat)) s.memc.nextRef k
      let n := s.postponed k
      let queued := s.bankQueued port k
      due ≤ s.now → n ≤ 8 → ∃ t, exec (.refreshDue port rank bank) s = .next t ∧ keeps [.regs, .memc] s t ∧
        keepsRegs [R.MEMC_STAT, R.MEMC_TRK, R.MEMC_REFSTAT] s t ∧
        t.postponed k = (if queued = true ∧ n < 8 then n + 1 else n - 1) ∧ (∀ j, j ≠ k → t.postponed j = s.postponed j) ∧
        mapGet (fun _ => (0 : Nat)) t.memc.nextRef k = (if due = 0 then s.now else due) + s.refi port rank ∧
        (if queued = true ∧ n = 8 then counted F.MEMC_REFSTAT.FORCED s t
          else t.rd F.MEMC_REFSTAT.FORCED = s.rd F.MEMC_REFSTAT.FORCED) ∧
        t.rd F.MEMC_REFSTAT.MAXPOST = max (s.rd F.MEMC_REFSTAT.MAXPOST) (t.postponed k) ∧
        (queued = true → n < 8 → t.memc.issued = s.memc.issued ∧ t.memc.bankAt = s.memc.bankAt) ∧
        (queued = false ∨ n = 8 → t.memc.issued.at port = [.refresh rank bank] ∧
          t.bankFree k = max s.now (s.bankFree k) + s.memNs (s.rd (F.MEMC_TIMB.RFCPB (s.rd F.MEMC_STAT.LIVE))))) ∧
    (s.memUp = true → ∀ a0 a1 b0 b1 : Fin 3, s.memc.mr4At ≤ s.now →
      let m := (if s.ranks = 2 then [a0.val, a1.val, b0.val, b1.val] else [a0.val, 0, b0.val, 0]).map (2 ^ ·)
      let top (l : List Nat) : Nat := l.foldl max 1
      ∃ t, exec (.mr4Read a0 a1 b0 b1) s = .next t ∧ keeps (.memc :: eventParts) s t ∧
        keepsRegs ([R.MEMC_STAT, R.MEMC_TRK] ++ eventRegs) s t ∧
        t.memc = { s.memc with mult := m, mr4At := s.now + 4_000_000 } ∧ t.rd F.MEMC_STAT.THOT = (if 1 < top m then 1 else 0) ∧
        (top s.memc.mult < top m → raised s t 0x0F02 .warn 0x62 none 0 (top m) 0 0) ∧
        (1 < top s.memc.mult → top m = 1 → raised s t 0x0F02 .clear 0x62 none 0 1 0 0)) ∧
    (s.memUp = true → ∀ (p : Fin 2) (ns : Nat) (temp : Int), s.memc.train = none → s.rd F.GND_STAT.READY = 1 →
      within10 s.now (s.memc.trkEnd.at p) = false → within10 s.now s.memc.changeEnd = false →
      (s.memc.trkDue.at p ≤ s.now ∨
        (s.memc.trkEnd.at p ≠ none ∧ (s.rd F.MEMC_TRK.DT : Int) ≤ (temp - s.memc.trkTemp.at p).natAbs)) →
      ∃ t, exec (.trackingEvent p ns temp) s = .next t ∧ keeps [.regs, .memc] s t ∧ keepsRegs [R.MEMC_STAT, R.MEMC_TRK] s t ∧
        t.memc.trkEnd.at p = some (s.now + min ns 1800) ∧ t.memc.trkTemp.at p = temp ∧
        t.memc.trkDue.at p = s.memc.trkDue.at p + s.rd F.MEMC_TRK.PER * 1_000_000 ∧
        t.rd (if p = 0 then F.MEMC_STAT.TRK0 else F.MEMC_STAT.TRK1) = 1) ∧
    (∀ p : Fin 2, let full := s.rd F.MEMC_WBUF.HIWM ≤ (s.memc.wbuf.at p).length
      (full → ∃ t, exec (.writeDrain p) s = .next t ∧ keeps [.memc] s t ∧
        t.memc = { s.memc with drain := s.memc.drain.upd p true }) ∧
      (¬ full → exec (.writeDrain p) s = .next s)) ∧
    (∀ found : Fin 3, s.memUp = true → s.rd F.GND_STAT.READY = 1 → s.memc.scrubAt ≤ s.now →
      let i := s.memc.scrub
      let p := s.sectorPlace i
      let bad := found = 2 ∨ i ∈ s.memc.poison
      ∃ t, exec (.scrubRead found) s = .next t ∧ keeps (.memc :: .commit :: eventParts) s t ∧
        t.memc.scrub = (if i + 1 < s.sectors then i + 1 else 0) ∧ t.memc.scrubAt = s.memc.scrubAt + s.scrubStep ∧
        (bad → counted F.MEMC_UE.COUNT s t ∧ t.rd F.MEMC_EADDR.UE = 1 ∧ t.rd F.MEMC_EADDR.SECTOR = i % 2 ^ 26 ∧ i ∈ t.memc.poison ∧
          (s.sectorUse i = .free → raised s t 0x0F01 .fault 0x62 none 0 i 0 0)) ∧
        (¬ bad → keeps [.regs, .memc] s t ∧ t.memc.poison = s.memc.poison ∧
          (found = 1 → keepsRegs [R.MEMC_CE, R.MEMC_EADDR] s t ∧ counted F.MEMC_CE.COUNT s t ∧ t.rd F.MEMC_EADDR.UE = 0 ∧
            t.rd F.MEMC_EADDR.SECTOR = i % 2 ^ 26 ∧ t.memc.issued.at p.port = correctedRead p) ∧
          (found = 0 → t.regs = s.regs ∧ t.memc.issued.at p.port = sectorAccess false p)))

/-- The arbiter and the accesses (R420, R421, R448–R450). Of the pages waiting for one memory the one served next is such that no other goes
before it: none of a lower level, and none of its level whose requester was served longer ago; a promoted requester stands at level 2 at
most, until it is served. A sector is read or written by one ACTIVATE, its 8 data bursts and its check burst, auto-precharge on the last;
the page table's entries by read and write-back of a data burst and the check burst in one activation. A port serves reads before writes,
but for a drain, and a DRAM page is written only once its sectors fit their buffers. The pace of service is the model's choice (assumption
104). -/
def Obligations.ArbiterAndAccesses : Prop :=
  ∀ s : State,
    (∀ (dram : Bool) (q : Quantum), s.nextQuantum dram = some q →
      q ∈ s.ground.reqs ∧ q.inDram = dram ∧ s.mayServe q = true ∧
      (∀ r ∈ s.ground.reqs, r.inDram = dram → s.mayServe r = true → s.levelOf q.who ≤ s.levelOf r.who ∧
        (s.levelOf r.who = s.levelOf q.who → turnKey s.ground.turn q.who ≤ turnKey s.ground.turn r.who)) ∧
      (serve q s).ground.reqs = s.ground.reqs.erase q ∧ (serve q s).levelOf q.who = arbLevel q.who ∧
      (serve q s).ground.turn = s.ground.turn.filter (· ≠ q.who) ++ [q.who]) ∧
    (∀ (j : Nat) (q : Quantum), q.at_ = .dram j → q.write = true → q.who ≠ .upkeep →
      (s.mayServe q = true ↔ ∀ k, k < 8 → s.bufferTakes (8 * j + k) = true)) ∧
    (∀ i, i ∉ s.memc.poison → let p := s.sectorPlace i
      (readSector i 0 s).memc.issued.at p.port = .activate p.rank p.bank p.row ::
        ((List.range 8).map (fun k => DramCmd.read (8 * p.slot + k) false) ++ [.read (56 + p.slot) true]) ∧
      (writeSector i s).memc.issued.at p.port = .activate p.rank p.bank p.row ::
        ((List.range 8).map (fun k => DramCmd.write (8 * p.slot + k) false) ++ [.write (56 + p.slot) true])) ∧
    (∀ j, let p := s.sectorPlace (s.tableSector j)
      let b := 8 * p.slot + 4 * j % 512 / 64
      (tableWrite j s).memc.issued.at p.port = [.activate p.rank p.bank p.row, .read b false, .read (56 + p.slot) false, .write b false,
        .write (56 + p.slot) true] ∧
      useOf (tableWrite j s).ground.table j = useOf s.pageUses j ∧
      (∀ k, k ≠ j → useOf (tableWrite j s).ground.table k = useOf s.ground.table k)) ∧
    (∀ (p : Fin 2) (i : Nat), s.memUp = true → s.memc.portAt.at p ≤ s.now → s.tracking p = false → s.mayActivate p = true →
      (s.memc.drain.at p = false → s.nextRead p = some i → portIssue p s = issueRead p i s) ∧
      (s.memc.drain.at p = false → s.memc.rdq.at p = [] → s.nextWrite p = some i → portIssue p s = issueWrite p i s) ∧
      (s.memc.drain.at p = true → s.nextWrite p = some i → portIssue p s = issueWrite p i s) ∧
      (s.memc.drain.at p = true → s.nextWrite p = some i → (s.memc.wbuf.at p).length ≤ s.rd F.MEMC_WBUF.LOWM + 1 →
        (issueWrite p i s).memc.drain.at p = false)) ∧
    (∀ i, s.bufferTakes i = true → let p := (s.sectorPlace i).port
      (bufferWrite i s).memc.wbuf.at p = s.memc.wbuf.at p ++ [i] ∧
      (bufferWrite i s).rd F.MEMC_WBUF.PEAK = max (s.rd F.MEMC_WBUF.PEAK) ((s.memc.wbuf.at p).length + 1))

/-- MEMC_FREQ.GO (R456, R457), checked in this order: a change running is BUSY with RESULT 5; the live set point gives RESULT 2; a set point
at which R426 fails RESULT 4, one not valid while a fibre acquires RESULT 3, each refused; otherwise the request is kept while a training
runs, trains a set point that is not valid, or changes at once, or 10 µs after the last block of a port. TARGET shows what was asked for;
the code 0b11 is refused and changes nothing. Set points, training and the page table (R407, R410, R426, R432, R435, R443, R451, R454, R456,
R457). A change that completes makes its target live with RESULT 1; a kept request then begins as its turn comes, unless R426 fails, which
gives RESULT 4. On-demand training that succeeds makes its set point valid and its change follows, or a request kept meanwhile; one that
fails gives RESULT 6 and the event 0x0F02. Boot training leaves VALID and the live set point, the fastest valid one where the wanted one is
not, or ERR with the event; then the page table is built, and the Ground is READY with its pages: boot PHASE 5. -/
def Obligations.SetPointsAndTraining : Prop :=
  (∀ (t : Fin 4) (s : State),
     let u := s.memSettle.wr F.MEMC_FREQ.TARGET t
     let changed (v : State) : Prop := keeps [.regs, .memc, .status] s v ∧ v.rd F.MEMC_FREQ.TARGET = t ∧
       keepsRegs [R.MEMC_FREQ, R.MEMC_STAT, R.MEMC_TRK, R.GND_STAT] s v
     let answers (st : Status) (res : Nat) : Prop := ∃ v, exec (.memcFreqGo t) s = .next v ∧ changed v ∧
       v.status = st ∧ v.rd F.MEMC_FREQ.RESULT = res ∧ v.memc = (if res = 5 then s.memc else { s.memc with latched := none })
     let keptFor (m : Memc) (f : Fld) : Prop := ∃ v, exec (.memcFreqGo t) s = .next v ∧ changed v ∧
       v.status = .ok ∧ v.memc = m ∧ v.rd f = 1
     (t = 3 → ∃ v, exec (.memcFreqGo t) s = .next v ∧ keeps [.status] s v ∧ v.status = .refused) ∧
     (t ≠ 3 → s.memc.change ≠ none → answers .busy 5) ∧
     (t ≠ 3 → s.memc.change = none →
       (t.val = u.rd F.MEMC_STAT.LIVE → answers .ok 2) ∧
       (t.val ≠ u.rd F.MEMC_STAT.LIVE → u.fspErr t ≠ 0 → answers .refused 4) ∧
       (t.val ≠ u.rd F.MEMC_STAT.LIVE → u.fspErr t = 0 → u.fspValid t = false → u.anyAcquiring = true → answers .refused 3) ∧
       (t.val ≠ u.rd F.MEMC_STAT.LIVE → u.fspErr t = 0 → (u.fspValid t = true ∨ u.anyAcquiring = false) →
         (s.memc.train ≠ none → keptFor { s.memc with latched := some t.val } F.MEMC_STAT.PEND) ∧
         (s.memc.train = none → u.fspValid t = false →
           keptFor { s.memc with latched := none, train := some (.demand t), trainAt := s.now } F.MEMC_STAT.TRAIN) ∧
         (s.memc.train = none → u.fspValid t = true → s.memRecent = true →
           keptFor { s.memc with latched := some t.val } F.MEMC_STAT.PEND) ∧
         (s.memc.train = none → u.fspValid t = true → s.memRecent = false →
           keptFor { s.memc with latched := none, change := some (t.val, s.now) } F.MEMC_STAT.CHG)))) ∧
  (∀ s : State,
     let freqRegs := [R.MEMC_FREQ, R.MEMC_STAT, R.MEMC_TRK, R.GND_STAT]
     (∀ t at_, s.memc.change = some (t, at_) → t < 4 → ∃ v, exec .setPointChange s = .next v ∧ keeps [.regs, .memc] s v ∧
       keepsRegs freqRegs s v ∧
       v.memc = { s.memc with change := none, changeEnd := some s.now, post := [], nextRef := [] } ∧ v.rd F.MEMC_STAT.LIVE = t ∧
       v.rd F.MEMC_STAT.CHG = 0 ∧ v.rd F.MEMC_FREQ.RESULT = 1) ∧
     (∀ t, s.memc.change = none → s.memc.latched = some t → s.memc.train = none → s.memRecent = false →
       ∃ v, exec .setPointChange s = .next v ∧ keeps [.regs, .memc] s v ∧ keepsRegs freqRegs s v ∧ v.rd F.MEMC_STAT.PEND = 0 ∧
         (s.fspValid t = true → s.fspErr t = 0 →
           v.memc = { s.memc with latched := none, change := some (t, s.now) } ∧ v.rd F.MEMC_STAT.CHG = 1) ∧
         (s.fspValid t = true → s.fspErr t ≠ 0 → v.memc = { s.memc with latched := none } ∧ v.rd F.MEMC_FREQ.RESULT = 4) ∧
         (s.fspValid t = false → v.memc = { s.memc with latched := none, train := some (.demand t), trainAt := s.now } ∧
           v.rd F.MEMC_STAT.TRAIN = 1)) ∧
     (s.memc.change = none → (s.memc.latched = none ∨ s.memc.train ≠ none ∨ s.memRecent = true) →
       exec .setPointChange s = .next s.memSettle) ∧
     (∀ t, s.memc.train = some (.demand t) → t < 3 →
       (∃ v, exec (.onDemandTrainingComplete true) s = .next v ∧ keeps [.regs, .memc] s v ∧ keepsRegs freqRegs s v ∧
         v.rd F.MEMC_STAT.TRAIN = 0 ∧ v.rd F.MEMC_STAT.VALID = s.rd F.MEMC_STAT.VALID ||| 2 ^ t ∧
         (s.memc.latched ≠ none → v.memc = { s.memc with train := none }) ∧
         (s.memc.latched = none → s.memRecent = true →
           v.memc = { s.memc with train := none, latched := some t } ∧ v.rd F.MEMC_STAT.PEND = 1) ∧
         (s.memc.latched = none → s.memRecent = false → s.fspErr t = 0 →
           v.memc = { s.memc with train := none, change := some (t, s.now) } ∧ v.rd F.MEMC_STAT.CHG = 1) ∧
         (s.memc.latched = none → s.memRecent = false → s.fspErr t ≠ 0 →
           v.memc = { s.memc with train := none } ∧ v.rd F.MEMC_FREQ.RESULT = 4)) ∧
       (∃ v, exec (.onDemandTrainingComplete false) s = .next v ∧ keeps (.memc :: eventParts) s v ∧
         keepsRegs (freqRegs ++ eventRegs) s v ∧ v.memc = { s.memc with train := none } ∧
         v.rd F.MEMC_STAT.TRAIN = 0 ∧ v.rd F.MEMC_FREQ.RESULT = 6 ∧ v.rd F.MEMC_STAT.VALID = s.rd F.MEMC_STAT.VALID ∧
         raised s v 0x0F02 .warn 0x62 none 0 t 0 0)) ∧
     (∀ ok0 ok1 ok2 devices, s.memc.train = some .boot →
       let valid := if devices then ok0.toNat + 2 * ok1.toNat + 4 * ok2.toNat else 0
       let want := s.memc.latched.getD (s.rd F.MEMC_CFG.BOOTFSP)
       ∃ v, exec (.bootTrainingComplete ok0 ok1 ok2 devices) s = .next v ∧ keeps (.memc :: eventParts) s v ∧
         keepsRegs ([R.MEMC_FREQ, R.MEMC_STAT] ++ eventRegs) s v ∧ v.memc.train = none ∧ v.memc.latched = none ∧
         v.rd F.MEMC_STAT.TRAIN = 0 ∧ v.rd F.MEMC_STAT.VALID = valid ∧
         (valid = 0 → v.memc.table = s.memc.table ∧ v.rd F.MEMC_STAT.ERR = (if devices then 3 else 1) ∧
           raised s v 0x0F02 .warn 0x62 none 0 (if devices then 3 else 1) 0 0) ∧
         (valid ≠ 0 → v.memc.table = some s.now ∧ v.memc.selfRef = false ∧
           (nthBit valid want = true → v.rd F.MEMC_STAT.LIVE = want ∧ v.rd F.MEMC_STAT.ERR = s.rd F.MEMC_STAT.ERR) ∧
           (nthBit valid want = false → fastest valid = some (v.rd F.MEMC_STAT.LIVE) ∧ v.rd F.MEMC_STAT.ERR = 2 ∧
             raised s v 0x0F02 .warn 0x62 none 0 2 0 0))) ∧
     (s.memc.train ≠ some .boot → ∀ ok0 ok1 ok2 devices, exec (.bootTrainingComplete ok0 ok1 ok2 devices) s = .next s) ∧
     (∀ at_, s.memc.table = some at_ → ∃ v, exec .pageTableBuilt s = .next v ∧ keeps (.memc :: eventParts) s v ∧
       keepsRegs ([R.GND_STAT, R.GND_TOTAL, R.SYS_BOOT, R.GND_BDROP 125] ++ eventRegs) s v ∧
       v.memc = { s.memc with table := none, scrubAt := s.now } ∧ v.ground.table = s.pageUses ∧
       v.rd F.GND_STAT.READY = 1 ∧ v.rd F.GND_TOTAL.TOTAL = s.totalPages % 2 ^ 23 ∧ v.rd F.SYS_BOOT.PHASE = 5 ∧
       (s.rcState ≠ rcHeld → keeps [.regs, .memc, .ground] s v ∧ v.ground.bobs = s.ground.bobs)))

/-- Bobbins (R410–R413, R418, R420, R421). A committed record written with the bobbin's claim, or a higher one that then is its claim, joins
the bobbin if its pages fit the quota: it takes free pages, the lowest by the model's choice (assumption 103), and its producer asks for
their writing; a DEFER bobbin without room takes nothing, and one that drops its oldest records counts each. A write with another claim is
dropped, counted and reported. A requester of level 3 or 4 whose age passes AGELIM is promoted and its counter restarts. -/
def Obligations.Bobbins : Prop :=
  ∀ (b : Fin 128) (claim : Fin 65536) (unit : Fin 256) (kind h1 h2 h3 ns : Nat) (x : Fibre) (payload : List Word) (s : State),
    let go := Instr.bobbinWrite b claim unit kind h1 h2 h3 ns x payload
    let r := producerRecord kind x.idx h1 h2 h3 ns payload s
    let have_ := s.rd (F.GND_BCLAIM.CLAIM b)
    let stored (fr : List Nat) : Stored := {
      idx := (s.bob b).next, data := r, pages := recPages r, frames := fr, st := .queued, tags := noTags, lane := none, freed := s.now,
      tb := s.tbNs }
    let free := takeFree (s.usedPages (s.rd (F.GND_BCFG.PLACE b) == 1)) (recPages r)
    (s.rd (F.GND_BCFG.EN b) = 1 → (claim.val = have_ ∨ claimHigher claim have_ = true) →
      ∃ t, exec go s = .next t ∧ t.rd (F.GND_BCLAIM.CLAIM b) = claim ∧
        (bobPages (s.bob b) + recPages r ≤ s.rd (F.GND_BCFG.QUOTA b) → keeps [.regs, .ground] s t ∧ keepsRegs [R.GND_BCLAIM b] s t ∧
          (t.bob b).recs = (s.bob b).recs ++ [stored free] ∧ (∀ j, j ≠ b.val → t.bob j = s.bob j) ∧
          t.ground.reqs = s.ground.reqs ++
            free.map (fun j => { who := s.writerOf b, write := true, at_ := s.pageOf b j, since := s.now })) ∧
        (s.rd (F.GND_BCFG.QUOTA b) < bobPages (s.bob b) + recPages r → s.rd (F.GND_BCFG.POLICY b) = 1 →
          keeps [.regs] s t ∧ keepsRegs [R.GND_BCLAIM b] s t) ∧
        (s.rd (F.GND_BCFG.QUOTA b) < bobPages (s.bob b) + recPages r → s.rd (F.GND_BCFG.POLICY b) ≠ 1 → b.val < 127 →
          ∃ kept k fr, dropUntil (s.ckNeeds b) (s.rd (F.GND_BCFG.QUOTA b)) (recPages r) (s.bob b).recs.length (s.bob b).recs = (kept, k) ∧
            fr.length = recPages r ∧ (t.bob b).recs = kept ++ [stored fr] ∧
            t.rd (F.GND_BDROP.COUNT b) = satN 32 (s.rd (F.GND_BDROP.COUNT b) + k))) ∧
    (s.rd (F.GND_BCFG.EN b) = 1 → claim.val ≠ have_ → claimHigher claim have_ = false → ∃ t, exec go s = .next t ∧
      keeps eventParts s t ∧ counted F.GND_LATE.COUNT s t ∧ raised s t 0x0E01 .warn unit none 0 b unit 0 ∧
      (∀ j, j ≠ 127 → t.bob j = s.bob j)) ∧
    (s.rd (F.GND_BCFG.EN b) ≠ 1 → exec go s = .next s) ∧
    (∀ (w : Requester) (q : Quantum), s.ground.reqs.find? (fun q => q.who = w) = some q →
      let age := ((s.ground.ages.find? (fun p => p.1 = w)).map (·.2)).getD 0
      let due := 3 ≤ arbLevel w ∧ max q.since age + max 1 (s.rd F.GND_CFG.AGELIM) * 1000 < s.now
      (due → ∃ t, exec (.ageLimit w) s = .next t ∧ keeps [.ground] s t ∧ t.levelOf w = 2 ∧
        t.ground = { s.ground with ages := t.ground.ages, promoted := t.ground.promoted } ∧
        t.ground.ages = s.ground.ages.filter (·.1 ≠ w) ++ [(w, s.now)] ∧
        (∀ v, v ≠ w → (v ∈ t.ground.promoted ↔ v ∈ s.ground.promoted))) ∧
      (¬ due → exec (.ageLimit w) s = .next s)) ∧
    (∀ w : Requester, s.ground.reqs.find? (fun q => q.who = w) = none → exec (.ageLimit w) s = .next s)

/-- The recall window (R427–R432). A trigger takes an ARMED window, which is POST from then on, with the cause and its index record in B125;
one that comes too late is counted and reported. RELEASE of a HELD window empties and arms it. EXPORT is refused unless the window is HELD,
BUSY while one runs, and otherwise begins with every record of the window. -/
def Obligations.RecallWindow : Prop :=
  ∀ s : State,
    (s.rcState = rcArmed → ∃ t, exec .recallTrig s = .next t ∧ t.status = .ok ∧ t.rcState = rcPost ∧ t.rd F.GND_RSTAT.CAUSE = 0x400 ∧
      t.ground.rcl = { s.ground.rcl with postBytes := 0, trigAt := s.tbNs }) ∧
    ((s.rcState = rcPost ∨ s.rcState = rcHeld) → ∃ t, exec .recallTrig s = .next t ∧ keeps (.status :: eventParts) s t ∧ t.status = .ok ∧
      t.ground.rcl = s.ground.rcl ∧ t.rcState = s.rcState ∧ counted F.GND_RSTAT.TRIGLOST s t ∧
      raised s t 0x0E01 .warn noUnit none 0 0 0 0) ∧
    (s.rcState = rcOff → exec .recallTrig s = .next (s.answer .ok)) ∧
    (s.rcState = rcHeld → ∃ t, exec .recallRelease s = .next t ∧ t.status = .ok ∧ t.rcState = rcArmed ∧ t.rd F.GND_RSTAT.EXPBUSY = 0 ∧
      t.ground.rcl = { s.ground.rcl with ring := [], postBytes := 0, exporting := [] }) ∧
    (s.rcState ≠ rcHeld → exec .recallRelease s = .next (s.answer .ok) ∧ exec .recallExport s = .next (s.answer .refused)) ∧
    (s.rcState = rcHeld → s.rd F.GND_RSTAT.EXPBUSY = 1 → exec .recallExport s = .next (s.answer .busy)) ∧
    (s.rcState = rcHeld → s.rd F.GND_RSTAT.EXPBUSY = 0 → ∃ t, exec .recallExport s = .next t ∧ keeps [.regs, .ground, .status] s t ∧
      keepsRegs [R.GND_RSTAT] s t ∧ t.status = .ok ∧ t.rd F.GND_RSTAT.EXPBUSY = 1 ∧
      t.ground = { s.ground with rcl := { s.ground.rcl with exporting := s.ground.rcl.ring } })

/-! ## Emission and optical sources (R101–R136) -/

/-- EMIT_EN (R99, R101, R102, R103). A low of 50 ns or more forces every source channel to 0 with FAULT EMIT, clears EMIT_IN, sets
EMIT_LOST, latches under EMLATCH, withdraws both permits and cuts the gate windows that it meets; one below 20 ns does nothing; between them
a free value decides. The high restarts the filter, which sets EMIT_IN after 10 ms. REARM, refused while EMIT_IN is 0, clears LATCHED; with
both in order the EMIT faults clear. -/
def Obligations.EmissionInput : Prop :=
  ∀ s : State,
    (∀ ns, 50 ≤ ns → s.pins.emitEn = true → ∃ t, exec (.emitEnLow ns) s = .next t ∧ t.pins = { s.pins with emitEn := false } ∧
      t.src.forced = true ∧ t.src.emitSince = none ∧ t.src.emitLowAt = some s.now ∧ t.rd F.SRC_EMIT.EMIT_IN = 0 ∧
      (∀ x, t.permit x = false) ∧ (∀ x u d, (s.sch x).gate = some (u, d) → u ≤ s.now → s.now < d → (t.sch x).gateCut = true) ∧
      (s.rd F.SRC_EMIT.EMIT_IN = 1 → t.rd F.SRC_EMIT.EMIT_LOST = 1 ∧
        t.rd F.SRC_EMIT.LATCHED = (if s.rd F.SRC_EMIT.EMLATCH = 1 then 1 else s.rd F.SRC_EMIT.LATCHED) ∧
        ∀ n, n < 8 → t.rd (F.SRC_STAT.NOW n) = 0 ∧ t.liveSet n = 0 ∧ (t.srcChan n).fade = none ∧
          t.rd (F.SRC_STAT.FAULT n) = if s.rd (F.SRC_STAT.FAULT n) = 0 then sfEmit else s.rd (F.SRC_STAT.FAULT n))) ∧
    (∀ ns, ns < 20 ∨ (50 ≤ ns ∧ s.pins.emitEn = false) → exec (.emitEnLow ns) s = .next s) ∧
    (∀ ns, 20 ≤ ns → ns < 50 → ∃ t, exec (.emitEnLow ns) s = .next t ∧ t.pins = s.pins ∧ t.fresh = s.fresh + 1 ∧
      (keeps [.fresh] s t ∨ (t.rd F.SRC_EMIT.EMIT_IN = 0 ∧ t.src.emitSince = some s.now))) ∧
    (s.pins.emitEn = false → ∃ t, exec .emitEnHigh s = .next t ∧ keeps [.pins, .src, .sched, .commit] s t ∧ t.pins = { s.pins with emitEn := true } ∧
      t.src.forced = false ∧ (s.boot.episode = none → t.src.emitSince = some s.now)) ∧
    (∀ τ, s.src.emitSince = some τ → s.pins.emitEn = true → s.rd F.SRC_EMIT.EMIT_IN = 0 → τ + 10_000_000 ≤ s.now →
      ∃ t, exec .emitFilterExpire s = .next t ∧ keeps [.regs] s t ∧ t.rd F.SRC_EMIT.EMIT_IN = 1 ∧
        ∀ n, n < 8 → t.rd (F.SRC_STAT.FAULT n) =
          if s.rd F.SRC_EMIT.LATCHED = 0 ∧ s.rd (F.SRC_STAT.FAULT n) = sfEmit then 0 else s.rd (F.SRC_STAT.FAULT n)) ∧
    (s.rd F.SRC_EMIT.EMIT_IN = 0 → exec .srcRearm s = .next (s.answer .refused)) ∧
    (s.rd F.SRC_EMIT.EMIT_IN = 1 → ∃ t, exec .srcRearm s = .next t ∧ keeps [.regs, .status] s t ∧ t.status = .ok ∧
      t.rd F.SRC_EMIT.LATCHED = 0 ∧ ∀ n, n < 8 → t.rd (F.SRC_STAT.FAULT n) =
        if s.rd (F.SRC_STAT.FAULT n) = sfEmit then 0 else s.rd (F.SRC_STAT.FAULT n))

/-- Setpoints and SYNC (R111–R116). A write that completes on a tick or later finds its batch applied. While a batch is pending the staging
registers, GO and ARMRND are BUSY. A setpoint or a fade other than 0 ms is staged; GO sets the tick at the second TIME edge after it; ARMRND
arms it for a fibre's round. The tick applies every staged channel that is free of faults, each fading from its present value, or defers the
batch while a member lacks its seed. A second GO before the tick joins it, the model's choice (assumption 90). -/
def Obligations.SourceBatches : Prop :=
  ∀ s : State,
    let pend := s.rd F.SRC_SYNC.PEND
    let ahead := ∀ τ, s.src.tick = some τ → s.now < τ
    (∀ (n : Fin 8) (w : Word) (r : Fin 4), ∀ i ∈ [Instr.srcSetWrite n w, .srcFadeWrite n w, .syncGo r, .syncArmrnd r],
      exec i s = exec i (syncTick s)) ∧
    (ahead → pend = 1 → ∀ i ∈ [Instr.syncGo 1, .syncArmrnd 1], exec i s = .next (s.answer .busy)) ∧
    (ahead → ∀ (n : Fin 8) (w : Word),
      (pend = 1 → exec (.srcSetWrite n w) s = .next (s.answer .busy) ∧ exec (.srcFadeWrite n w) s = .next (s.answer .busy)) ∧
      (pend = 0 → (∃ t, exec (.srcSetWrite n w) s = .next t ∧ keeps [.regs, .status] s t ∧
          keepsRegs [R.SRC_SET n, R.SRC_STAT n] s t ∧ t.status = .ok ∧ t.rd (F.SRC_SET.SETPOINT n) = wordField 0 16 w ∧
          t.rd (F.SRC_STAT.STAGED n) = 1) ∧
        (wordField 0 16 w = 0 → exec (.srcFadeWrite n w) s = .next (s.answer .refused)) ∧
        (wordField 0 16 w ≠ 0 → ∃ t, exec (.srcFadeWrite n w) s = .next t ∧ keeps [.regs, .status] s t ∧
          keepsRegs [R.SRC_FADE n, R.SRC_STAT n] s t ∧ t.status = .ok ∧ t.rd (F.SRC_FADE.FADE_MS n) = wordField 0 16 w ∧
          t.rd (F.SRC_FADE.EXP n) = wordField 16 1 w ∧ t.rd (F.SRC_STAT.STAGED n) = 1))) ∧
    (ahead → ∀ r : Fin 4, pend = 0 →
      (r = 3 → exec (.syncGo r) s = .next (s.answer .refused)) ∧ (r = 0 ∨ r = 3 → exec (.syncArmrnd r) s = .next (s.answer .refused)) ∧
      (r ≠ 3 → s.src.tick = none → ∃ t, exec (.syncGo r) s = .next t ∧ keeps [.regs, .src, .status] s t ∧ keepsRegs [R.SRC_SYNC] s t ∧
        t.status = .ok ∧ ∃ τ, t.src = { s.src with tick := some τ } ∧ τ % 4 = 0 ∧ s.now + 4 < τ ∧ τ ≤ s.now + 8) ∧
      (r ≠ 3 → s.src.tick ≠ none → ∃ t, exec (.syncGo r) s = .next t ∧ keeps [.regs, .status] s t ∧ keepsRegs [R.SRC_SYNC] s t ∧
        t.status = .ok ∧ t.rd F.SRC_SYNC.RNDSEL = r) ∧
      (r ≠ 0 → r ≠ 3 → ∃ t, exec (.syncArmrnd r) s = .next t ∧ keeps [.regs, .src, .status] s t ∧ keepsRegs [R.SRC_SYNC] s t ∧
        t.status = .ok ∧ t.src = { s.src with armed := true } ∧ t.rd F.SRC_SYNC.PEND = 1 ∧ t.rd F.SRC_SYNC.RNDSEL = r)) ∧
    (∀ τ, s.src.tick = some τ → τ ≤ s.now →
      (s.batch.any s.needsSeed = true → ∃ t, exec .syncTick s = .next t ∧ keeps [.regs, .src] s t ∧ keepsRegs [R.SRC_SYNC] s t ∧
        t.rd F.SRC_SYNC.PEND = 1 ∧ t.src = { s.src with tick := none, armed := false, deferred := true }) ∧
      (s.batch.any s.needsSeed = false → ∃ t, exec .syncTick s = .next t ∧ keeps [.regs, .src] s t ∧ t.rd F.SRC_SYNC.PEND = 0 ∧
        t.src.tick = none ∧ t.src.armed = false ∧ t.src.deferred = false ∧
        (∀ n ∈ s.batch, t.liveSet n = s.rd (F.SRC_SET.SETPOINT n) ∧ t.liveFadeMs n = s.rd (F.SRC_FADE.FADE_MS n) ∧
          t.rd (F.SRC_STAT.STAGED n) = 0 ∧ t.rd (F.SRC_STAT.FADING n) = 1 ∧ (t.srcChan n).fade = some {
            v0 := s.fadeFrom n, v1 := s.rd (F.SRC_SET.SETPOINT n), exp := s.rd (F.SRC_FADE.EXP n) == 1, k := 0,
            len := s.rd (F.SRC_FADE.FADE_MS n) * 1000 }) ∧
        (∀ n, n < 8 → n ∉ s.batch → t.srcChan n = s.srcChan n ∧ t.liveSet n = s.liveSet n ∧
          t.rd (F.SRC_STAT.STAGED n) = s.rd (F.SRC_STAT.STAGED n))))

/-- The regulator (R106, R107, R113, R117–R121). Each update, due once a µs, gives every enabled channel the lesser of its fade's value and
the ceiling in force, and a disabled one 0, whose fade runs on; FADING shows either fade, THMODE and THLIM the thermal limit; UNSEED and
HELD follow the seed, which SEED_LOSS may find lost between updates. A linear fade passes through the value nearest to its line and ends at
its target. A code is a current of 1/65536 of 250 mV over the sense resistor. Source faults and fault groups (R124, R128). A condition
begins to be timed when it is measured and starts anew once it does not hold. After 1 µs an over-current, after 10 µs a short, after 100 µs
an open channel takes its fault, unless EMIT stands there, its drive is clamped and its live target and present value are 0 at once; the
group keeps the first cause with its member and, unless its mode is OWN, shuts, so that every other member of it without a fault has FAULT
GROUP; the event 0x0301 names the member. Re-arming a group clears all of that but the EMIT faults. -/
def Obligations.RegulatorAndFaults : Prop :=
  ((∀ s : State, s.now < s.src.updDue → exec .regulatorUpdate s = .next s) ∧
   (∀ s : State, s.src.updDue ≤ s.now → ∃ t, exec .regulatorUpdate s = .next t ∧ t.src.updDue = s.now + 1000 ∧ ∀ n, n < 8 →
     let u := seedState n s
     let c := s.srcChan n
     let f := match c.fade with | some d => (fadeStep d).2 | none => c.f
     let on := s.rd (F.SRC_CFG.EN n) ≠ 0
     let ceil := ceilStep (s.rd (F.SRC_LIMIT.SMAX n)) (s.liveFadeMs n) (s.rd (F.SRC_STAT.NOW n)) (u.ceiling n)
       { c with sensFault := s.rd (F.SRC_CFG.SNEN n) == 1 && s.sensorBad (s.rd (F.SRC_CFG.SNSEL n)) }
     t.rd (F.SRC_STAT.NOW n) = (if on then min f ceil.2 % 2 ^ 16 else 0) ∧ (t.srcChan n).f = f ∧
     t.rd (F.SRC_STAT.FADING n) = (if (t.srcChan n).fade.isSome ∨ (t.srcChan n).fast.isSome then 1 else 0) ∧
     (t.srcChan n).fade = c.fade.bind (fun d => (fadeStep d).1) ∧ (t.srcChan n).fast = (if on then ceil.1.fast else none) ∧
     t.rd (F.SRC_STAT.THMODE n) = (if s.tableMode n then 0 else 1) ∧
     t.rd (F.SRC_STAT.THLIM n) = (if s.thermLimit n < f then 1 else 0) ∧
     t.rd (F.SRC_STAT.UNSEED n) = (if s.unseeded n then 1 else 0) ∧
     t.rd (F.SRC_STAT.HELD n) = (if s.unseeded n then 0 else if s.rd (F.SRC_STAT.UNSEED n) = 1 then 1 else s.rd (F.SRC_STAT.HELD n))) ∧
   (∀ (n : Fin 8) (s : State), s.unseeded n = true → ∃ t, exec (.seedLoss n) s = .next t ∧ keeps [.regs] s t ∧
     keepsRegs [R.SRC_STAT n] s t ∧ t.rd (F.SRC_STAT.UNSEED n) = 1 ∧ t.rd (F.SRC_STAT.HELD n) = 0) ∧
   (∀ (n : Fin 8) (s : State), s.unseeded n = false → exec (.seedLoss n) s = .next s) ∧
   (∀ rsns v : Nat, 0 < rsns → codeAmps rsns v * rsns * 65536 = v * 250) ∧
   (∀ d : Fade, (d.len ≤ d.k → fadeValue d = d.v1) ∧
     (d.k < d.len → d.exp = false →
       2 * ((fadeValue d : Int) * d.len - ((d.v0 : Int) * d.len + ((d.v1 : Int) - d.v0) * d.k)).natAbs ≤ d.len ∧
       min d.v0 d.v1 ≤ fadeValue d ∧ fadeValue d ≤ max d.v0 d.v1))) ∧
  (∀ s : State,
     let faulted (i : Instr) (n code : Nat) : Prop := let g := s.groupOf n
       ∃ t, exec i s = .next t ∧ t.rd (F.SRC_STAT.FAULT n) = (if s.rd (F.SRC_STAT.FAULT n) = sfEmit then sfEmit else code) ∧ t.rd (F.SRC_STAT.NOW n) = 0 ∧ t.liveSet n = 0 ∧
         (t.srcChan n).clamped = true ∧ (t.srcChan n).fade = none ∧ raised s t 0x0301 .fault noUnit none 0 n code g ∧
         (s.rd (F.SRC_GRP.CAUSE g) = 0 → t.rd (F.SRC_GRP.CAUSE g) = code ∧ t.rd (F.SRC_GRP.MEMBER g) = n) ∧
         t.rd (F.SRC_GRP.SHUT g) = (if s.rd (F.SRC_GRP.MODE g) = 1 then s.rd (F.SRC_GRP.SHUT g) else 1) ∧
         (s.rd (F.SRC_GRP.MODE g) = 0 → s.rd (F.SRC_GRP.SHUT g) = 0 → ∀ m, m < 8 → m ≠ n → s.groupOf m = g →
           t.rd (F.SRC_STAT.FAULT m) = if s.rd (F.SRC_STAT.FAULT m) = 0 then sfGroup else s.rd (F.SRC_STAT.FAULT m))
     let watched (i : Instr) (n code time : Nat) (holds : Prop) (from_ : SrcChan → Option Nat) : Prop :=
       (holds → (∃ f, from_ (s.srcChan n) = some f ∧ f + time ≤ s.now) → s.rd (F.SRC_STAT.FAULT n) ≠ code → faulted i n code) ∧
       (holds → from_ (s.srcChan n) = none → 0 < time →
         ∃ t, exec i s = .next t ∧ keeps [.src] s t ∧ from_ (t.srcChan n) = some s.now) ∧
       (holds → (∃ f, from_ (s.srcChan n) = some f ∧ s.now < f + time) →
         ∃ t, exec i s = .next t ∧ keeps [.src] s t ∧ from_ (t.srcChan n) = from_ (s.srcChan n)) ∧
       (¬ holds → ∃ t, exec i s = .next t ∧ keeps [.src] s t ∧ from_ (t.srcChan n) = none)
     (∀ (n : Fin 8) (sense : Nat),
       let now := s.rd (F.SRC_STAT.NOW n)
       let dark := s.rd (F.SRC_CFG.EN n) = 0 ∨ (s.srcChan n).clamped = true ∨ now = 0 ∨ s.src.forced = true
       watched (.overcur n sense) n sfOvercur 1_000 (65536 * s.rd (F.SRC_PROT.OCLIM n) ≤ sense * 256) (·.overFrom) ∧
       watched (.short n sense) n sfShort 10_000 (10 * now + 65536 ≤ 10 * sense ∨ (dark ∧ 65536 ≤ sense * 10)) (·.shortFrom) ∧
       (∀ drive, watched (.open n drive sense) n sfOpen 100_000 (95 ≤ drive ∧ 2 * sense < now ∧ 1024 ≤ now) (·.openFrom))) ∧
     (∀ mask : Fin 16, ∃ t, exec (.groupRearm mask) s = .next t ∧ keeps (.src :: .sched :: .commit :: .status :: eventParts) s t ∧ t.status = .ok ∧
       (∀ g, g < 4 → nthBit mask g = true → t.rd (F.SRC_GRP.SHUT g) = 0 ∧ t.rd (F.SRC_GRP.CAUSE g) = 0 ∧
         t.rd (F.SRC_GRP.MEMBER g) = 0) ∧
       (∀ g, g < 4 → nthBit mask g = false → t.reg (R.SRC_GRP g) = s.reg (R.SRC_GRP g)) ∧
       (∀ n, n < 8 → t.rd (F.SRC_STAT.FAULT n) =
         if nthBit mask (s.groupOf n) = true ∧ s.rd (F.SRC_STAT.FAULT n) ≠ sfEmit then 0 else s.rd (F.SRC_STAT.FAULT n)) ∧
       (∀ g, g < 4 → mask.val = 2 ^ g → (s.rd (F.SRC_GRP.SHUT g) = 1 ∨ s.rd (F.SRC_GRP.CAUSE g) ≠ 0) →
         raised s t 0x0301 .clear noUnit none 0 0 0 g)))

/-- Launch energy (R125–R127, R131, R132, R204): a round's energy E(r) is the mean of its DAS shots' E, computed from their words once point
200 of the last has left the front pipeline and the round's photodiode conversions are in. Where it lies below a tenth of its baseline,
judgement not being suspended, or the photodiode's does, and no Selvage condition holds, the round is low: LOWCNT counts up to 3, else it is
0. The baseline follows E(r) at once upward and while suspended, by 1/256 downward, and not at all when far below. A new Selvage condition
begins power reduction. A Raman round is judged alike by its trace, the first time only. That conversions are awaited is the model's reading
(assumption 19). Shot records (R24, R81, R131–R134, R204, R206, R236). The record of the first open shot completes it with its metrics,
computed from its words, and its Selvage flags; tone 0 shows its powers. A DAS shot whose guard window is not quiet sets OVERLEN, but not
while the fibre sounds; a Fresnel one begins power reduction; a T0 one whose end is below the noise shows BREAK at the point of the last
quiet run; the third clean probe in succession ends PROBE. A sounding shot gives L_m, from which the next plan is made. The peak is a grid
point of largest amplitude from 200 to the fibre's end. The blocks of the means, and the point where none is quiet, are the model's choice
(assumption 89), as is that a shot ending in a sounding round finds nothing new (assumption 20). -/
def Obligations.EnergyAndShots : Prop :=
  (∀ (x : Fibre) (s : State),
     (∀ b e : Int, baseline true b e = e ∧ (b ≤ e → baseline false b e = e) ∧ (e < b → 10 * e < b → baseline false b e = b) ∧
       (e < b → b ≤ 10 * e → baseline false b e = b - (b - e) / 256)) ∧
     (∀ (i : RoundInfo) (refs : List RefSample) (first : Int) (shots : List (List FrontWord)), s.evalRound x = some i →
       let all := (s.cmt x).slots.filter (fun sl => sl.round == i.round)
       let mine := all.filter (fun sl => sl.kind == .das)
       i.nT ≤ all.length → shots.length = mine.length → (∀ sl ∈ mine, s.point200 x sl ≤ s.now) → s.pdDue x i.round = false →
       let ms := (mine.zip shots).map (fun p => (s.cordRun refs).shotMetrics x p.1 (0, 0) 200 first p.2)
       let e := s.nrg x
       let susp := s.lowering x || decide (0 < e.suspend) || decide (i.round < 16)
       let er := sumN (ms.map (·.e)) / ms.length
       let base := s.rd (F.SRC_LEBASE.BASE x.idx)
       let pden := s.rd (F.SRC_PLOSS.PDEN x.idx) == 1
       let absent := s.seeded x && ms.all (fun m => s.belowNf x m.m (s.rd (F.SRC_SELV.ABSDB x.idx))) &&
         (!pden || decide (e.pdBase ≤ 2 * i.pd))
       let fresnel := ms.any (s.isFresnel x)
       let low := !(fresnel || absent || i.selv) && ((!susp && decide (10 * er < base)) ||
         (pden && decide (10 * i.pd < e.pdBase ∨ i.pd < s.rd (F.SRC_PLOSS.PDMIN x.idx) * 256)))
       (∀ q ∈ (s.cmt x).rounds, q.round = i.round → q = i) →
       ∃ t, exec (.launchEnergyEval x refs first shots) s = .next t ∧
         t.rd (F.SRC_LEBASE.BASE x.idx) = unsgn 32 (baseline susp base er) ∧
         t.rd (F.SRC_PLOSS.LOWCNT x.idx) = (if low then min 3 (s.rd (F.SRC_PLOSS.LOWCNT x.idx) + 1) else 0) ∧
         (pden = true → (t.nrg x).pdBase = baseline susp e.pdBase i.pd) ∧
         (∀ q ∈ (t.cmt x).rounds, q.round = i.round → q.low = some low) ∧
         (fresnel = true → t.rd (F.SRC_SELVST.CAUSE x.idx) = 1) ∧
         (fresnel = false → absent = true → t.rd (F.SRC_SELVST.CAUSE x.idx) = 2) ∧
         (fresnel || absent → s.reduced x = false → (t.sch x).probeReq = true)) ∧
     (s.evalRound x = none → ∀ refs first shots, exec (.launchEnergyEval x refs first shots) s = .next s) ∧
     (∀ (tr : RamanTrace) (v : TraceSum), (s.dts.at x.idx).traces.find? (fun q => q.sums.isSome && !q.judged) = some tr →
       tr.sums = some v →
       let e := s.nrg x
       let susp := s.lowering x || decide (0 < e.ramanSuspend) || decide (e.ramanRounds < 16)
       let low := !susp && decide (10 * v.e < e.ramanBase)
       ∃ t, exec (.ramanRoundEval x) s = .next t ∧
         t.rd (F.SRC_PLOSS.TLOWCNT x.idx) = (if low then min 3 (s.rd (F.SRC_PLOSS.TLOWCNT x.idx) + 1) else 0) ∧
         (t.nrg x).ramanBase = baseline susp e.ramanBase v.e ∧ (t.nrg x).ramanRounds = e.ramanRounds + 1 ∧
         ∀ q ∈ (t.dts.at x.idx).traces, q.round = tr.round → q.judged = true)) ∧
  ((∀ (p lpts last q : Nat) (gw : Nat × Nat) (a : List Nat), 0 < p → 200 ≤ q → q < lpts → q % p = 0 → q / p < a.length →
     let m := metricsOf p lpts gw last a
     200 ≤ m.peak ∧ m.peak < lpts ∧ m.peak % p = 0 ∧ a.getD (q / p) 0 ≤ a.getD (m.peak / p) 0) ∧
   ∀ (x : Fibre) (refs : List RefSample) (first : Int) (ws : List FrontWord) (s : State) (sl : Slot), s.openShot x = some sl →
     sl.tL + sl.tmin + 216 ≤ s.now + sl.w + 1 →
     let g := s.rd (F.SRC_SELV.GTHR x.idx)
     let gw := s.guardWindow x sl.w
     let u := s.cordRun refs
     let m := u.shotMetrics x sl gw (max (s.fibrePts x) gw.2 - 1) first ws
     let quiet (l : List Nat) : Option Nat := quietFrom (fun v => s.belowNf x v g) l
     ∃ t, exec (.shotRecordComplete x refs first ws) s = .next t ∧
       (∀ q ∈ (t.cmt x).slots, q.id = sl.id → q.complete = true ∧ q.peak = some m.peak ∧ q.e = some m.e ∧ q.selv = u.selvFlags x sl gw m) ∧
       (sl.tone = 0 → t.rd (F.FRP_HM0.NDB x.idx) = unsgn 16 (dbOf m.n) ∧ t.rd (F.FRP_HM0.MDB x.idx) = unsgn 16 (dbOf m.m) ∧
         t.rd (F.FRP_HM1.GDB x.idx) = unsgn 16 (dbOf m.guard) ∧ t.rd (F.FRP_HM1.EDB x.idx) = unsgn 16 (dbOf m.endMean)) ∧
       (sl.kind = .das → gw.1 < gw.2 → s.belowNf x m.guard g = false → (s.sch x).sounding = false →
         t.rd (F.CMT_STAT.OVERLEN x.idx) = 1) ∧
       (sl.kind ≠ .probe → s.isFresnel x m = true → s.reduced x = false → (t.sch x).probeReq = true) ∧
       (sl.kind = .probe → s.isFresnel x m = false → s.belowNf x m.m (s.rd (F.SRC_SELV.ABSDB x.idx)) = false →
         (t.nrg x).clean = (s.nrg x).clean + 1 ∧
         (2 ≤ (s.nrg x).clean → s.rd (F.SRC_SELVST.STATE x.idx) = 1 → t.rd (F.SRC_SELVST.STATE x.idx) = 2 ∧ (t.sch x).probeEnd = true)) ∧
       (sl.kind ≠ .sound → sl.tone = 0 → s.belowNf x m.endMean g = true → t.rd (F.SRC_SELVST.CAUSE x.idx) = 4 ∧
         t.rd (F.SRC_SELVST.POINT x.idx) = (quiet m.blocks).getD (s.fibrePts x - 1) % 2 ^ 21) ∧
       (sl.kind = .sound →
         let lm := (quiet (u.shotMetrics x sl gw (s.soundLast x sl.w) first ws).blocks).getD (s.soundLast x sl.w)
         (t.sch x).lm = some lm ∧ (t.sch x).replan = true ∧ (t.sch x).heldTo = some (max ((s.sch x).tB + 2_000_000) (s.now + 2000))))

/-! ## The converter slices (R137–R180) -/

/-- Gain profiles (R144, R146, R148–R150, R161, R166, R624). Entries are staged while no profile is pending, an OFFSET above 1,999,984 is
refused. GO puts the staged profile in force at once on an idle fibre, and makes it pending on one that acquires; its check accepts it or
drops it with its code. At an entry's instant every coherent function of the fibre takes the entry's gain, on every slice connected to its
port. -/
def Obligations.GainProfiles : Prop :=
  ∀ (x : Fibre) (s : State),
    let pend := s.rd (F.SLC_PSTAGE.PEND x.idx)
    (pend = 1 → exec (.slcPstageGo x) s = .next (s.answer .busy) ∧
      ∀ (k : Fin 8) (w : Word), exec (.slcProfWrite x k w) s = .next (s.answer .busy)) ∧
    (pend = 0 → ∀ (k : Fin 8) (w : Word), 1_999_984 < wordField 0 21 w → exec (.slcProfWrite x k w) s = .next (s.answer .refused)) ∧
    (pend = 0 → ∀ (k : Fin 8) (w : Word), wordField 0 21 w ≤ 1_999_984 → ∃ t, exec (.slcProfWrite x k w) s = .next t ∧ keeps [.regs, .status] s t ∧
      keepsRegs [R.SLC_PROF x.idx k] s t ∧ t.status = .ok ∧ t.rd (F.SLC_PROF.EN x.idx k) = wordField 31 1 w ∧
      t.rd (F.SLC_PROF.GAIN x.idx k) = wordField 24 3 w ∧ t.rd (F.SLC_PROF.OFFSET x.idx k) = wordField 0 21 w) ∧
    (pend = 0 → s.acquiring x = false → ∃ t, exec (.slcPstageGo x) s = .next t ∧ keeps [.regs, .status] s t ∧ t.status = .ok ∧
      keepsRegs ((profRegs x.idx).map liveKey) s t ∧ ∀ k ∈ profRegs x.idx, t.reg (liveKey k) = s.reg k) ∧
    (pend = 0 → s.acquiring x = true → ∃ t, exec (.slcPstageGo x) s = .next t ∧ keeps [.regs, .slices, .status] s t ∧ t.status = .ok ∧
      keepsRegs [R.SLC_PSTAGE x.idx] s t ∧ t.rd (F.SLC_PSTAGE.PEND x.idx) = 1 ∧
      t.slices = { s.slices with profGo := s.slices.profGo.upd x.idx (some (s.now, false)) }) ∧
    (∀ τ, s.slices.profGo.at x.idx = some (τ, false) → ∃ t, exec (.profileCheckComplete x) s = .next t ∧ keeps [.regs, .slices] s t ∧
      keepsRegs [R.SLC_PSTAGE x.idx] s t ∧ t.rd (F.SLC_PSTAGE.CODE x.idx) = profileCode (s.profile false x.idx) ∧
      (profileCode (s.profile false x.idx) = 0 → t.slices.profGo.at x.idx = some (τ, true)) ∧
      (profileCode (s.profile false x.idx) ≠ 0 → t.slices.profGo.at x.idx = none ∧ t.rd (F.SLC_PSTAGE.PEND x.idx) = 0)) ∧
    (s.profileGain x = none → exec (.gainStep x) s = .next s) ∧
    (∀ τ g, s.profileGain x = some (τ, g) → g < 8 → ∃ t, exec (.gainStep x) s = .next t ∧
      keeps [.regs, .slices] s t ∧ keepsRegs ((List.range 15).map R.SLC_STAT) s t ∧
      (∀ k, k < 4 → ∀ n ∈ s.onPort (4 * x.idx + k), t.rd (F.SLC_STAT.GAIN n) = g) ∧ t.slices.gain.at x.idx = g ∧
      t.slices.stepAt.at x.idx = (if s.slices.gain.at x.idx = g then s.slices.stepAt.at x.idx else some τ))

/-- Calibration requests (R164, R166, R168). One while another runs is BUSY with RESULT 3, one of a fenced slice or of one under test is
refused with RESULT 9. A slice without a function, the spare, and any slice while no round uses its function are calibrated at once; with a
free spare the request waits for a boundary as an episode, without one as an intrusive calibration if that is asked for, and is BUSY with
RESULT 2 otherwise. AUTOCAL asks, with RETURN, when the temperature or the age calls for it, or a requested calibration of the spare was
abandoned and the spare is free again, and no calibration runs, and not otherwise. That its request carries the present INTRUSIVE and leaves
its slice and RETURN in SLC_CAL_CMD is the model's choice (assumption 92). -/
def Obligations.CalibrationRequests : Prop :=
  ∀ (n : Fin 15) (keep intr : Bool) (s : State),
    let go := Instr.sliceCalStart n.castSucc keep intr
    let mode := s.rd (F.SLC_STAT.MODE n)
    let f := s.rd (F.SLC_STAT.FUNC n)
    let turnedAway (st : Status) (res : Nat) : Prop := ∃ t, exec go s = .next t ∧ keeps [.regs, .status] s t ∧
      keepsRegs [R.SLC_CAL_CMD, R.SLC_CAL_STAT] s t ∧ t.status = st ∧ t.rd F.SLC_CAL_STAT.RESULT = res
    let taken (kind : CalKind) (phase : Nat) (at_ : Option Nat) : Prop := ∃ t c, exec go s = .next t ∧ keeps [.regs, .slices, .status] s t ∧
      t.status = .ok ∧ t.slices.cal = some c ∧ c.kind = kind ∧ c.slice = n ∧ c.keep = keep ∧ c.calAt = at_ ∧
      t.rd F.SLC_CAL_STAT.BUSY = 1 ∧ t.rd F.SLC_CAL_STAT.SLICE = n ∧ t.rd F.SLC_CAL_STAT.PHASE = phase ∧
      t.rd (F.SLC_STAT.MODE n) = if phase = 2 then slCal else mode
    let working := s.slices.cal = none ∧ mode ≠ slFenced ∧ mode ≠ slTest
    let served := n.val ≠ s.spareSlice ∧ f ≠ 0xF ∧ s.roundsOf f ≠ 2
    (s.slices.cal ≠ none → turnedAway .busy 3) ∧
    (s.slices.cal = none → (mode = slFenced ∨ mode = slTest) → turnedAway .refused 9) ∧
    (working → ¬ served → taken .direct 2 (some s.now)) ∧
    (working → served → s.spareReady = true → taken .episode 0 none) ∧
    (working → served → s.spareReady = false → intr = true → taken .intrusive 0 none) ∧
    (working → served → s.spareReady = false → intr = false → turnedAway .busy 2) ∧
    (exec (.sliceCalStart 15 keep intr) s = .next (s.answer .refused)) ∧
    (∀ temp : Int,
      let moved := 0 < s.rd F.SLC_SPARE.CALDT ∧ (10 * s.rd F.SLC_SPARE.CALDT : Int) < (temp - s.rdI (F.SLC_CALOFS.CALTEMP n)).natAbs
      let old := 0 < s.rd F.SLC_SPARE.CALAGE ∧
        mapGet (fun _ => (0 : Nat)) s.slices.calTb n + s.rd F.SLC_SPARE.CALAGE * hourNs < s.tbNs
      let cut := n.val ∈ s.slices.again ∧ s.spareReady = true
      (s.rd F.SLC_SPARE.AUTOCAL = 1 → s.slices.cal = none → (moved ∨ old ∨ cut) → intr = (s.rd F.SLC_CAL_CMD.INTRUSIVE == 1) →
        keep = false → ∃ t, exec go s = .next t ∧ exec (.autocalRequest n temp) s = .next (t.answer s.status)) ∧
      (s.rd F.SLC_SPARE.AUTOCAL = 0 ∨ s.slices.cal ≠ none ∨ ¬ (moved ∨ old ∨ cut) → exec (.autocalRequest n temp) s = .next s))

/-- Calibrations under way and slice faults (R155, R156, R163, R166–R170, R172–R177). An abort ends an episode in its first phase, and sends
its slice back through a parallel run in the second. A calibration whose coefficients lie in range gives them to the slice, which returns to
its place or to a parallel run; one out of range fences it, and the spare keeps or takes the function. A slice declared faulty goes to its
built-in test, which PHASE shows, and its function to the spare, or is lost; the samples about the fault are spoilt. 65,536 over-range
samples in a row are reported, those not yet counted joining the count. -/
def Obligations.CalibrationsAndFaults : Prop :=
  ∀ s : State,
    (s.slices.cal = none → exec .sliceCalAbort s = .next (s.answer .ok)) ∧
    (∀ c, s.slices.cal = some c → c.kind = .episode → c.slice < 15 → s.spareSlice < 15 →
      (s.rd F.SLC_CAL_STAT.PHASE = 1 → ∃ t, exec .sliceCalAbort s = .next t ∧ t.status = .ok ∧ t.slices.cal = none ∧
        t.rd F.SLC_CAL_STAT.RESULT = 7 ∧ t.rd F.SLC_CAL_STAT.BUSY = (if s.slices.tests = [] then 0 else 1) ∧ t.rd (F.SLC_STAT.MODE s.spareSlice) = slSpare) ∧
      (s.rd F.SLC_CAL_STAT.PHASE = 2 → c.ended = false → c.fib ≠ 2 → ∃ t, exec .sliceCalAbort s = .next t ∧ keeps [.regs, .slices, .status] s t ∧
        t.status = .ok ∧ t.rd F.SLC_CAL_STAT.RESULT = 7 ∧ t.rd F.SLC_CAL_STAT.PHASE = 3 ∧ t.rd (F.SLC_STAT.MODE c.slice) = slParallel ∧
        t.slices.cal = some { c with ended := true, aborted := true, keep := false, rounds := none }) ∧
      (s.rd F.SLC_CAL_STAT.PHASE = 2 → c.ended = false → c.fib = 2 → c.func < 14 → ∃ t, exec .sliceCalAbort s = .next t ∧ t.status = .ok ∧
        t.slices.cal = none ∧ t.rd F.SLC_CAL_STAT.RESULT = 7 ∧ t.role c.func = c.slice ∧ t.rd (F.SLC_STAT.FUNC c.slice) = c.func) ∧
      (s.rd F.SLC_CAL_STAT.PHASE ≠ 1 → ¬ (s.rd F.SLC_CAL_STAT.PHASE = 2 ∧ c.ended = false) →
        exec .sliceCalAbort s = .next (s.answer .ok))) ∧
    (∀ (m : SliceCoefs) (c : SliceCal) (τ : Nat), s.slices.cal = some c → c.calAt = some τ → c.ended = false → c.slice < 15 →
      τ + 20_000_000 ≤ s.now →
      (coefsOk m = false → ∃ t, exec (.sliceCalComplete m) s = .next t ∧ t.slices.cal = none ∧
        t.rd F.SLC_CAL_STAT.RESULT = 6 ∧ t.rd (F.SLC_STAT.MODE c.slice) = slFenced ∧ t.rd (F.SLC_STAT.FAULT c.slice) = 5 ∧
        t.rdI (F.SLC_CALOFS.OFS c.slice) = s.rdI (F.SLC_CALOFS.OFS c.slice) ∧ reported t 0x0401 .fault c.slice c.func 5 0 ∧
        (c.func < 14 → s.role c.func = c.slice → s.spareSlice ≠ c.slice → s.spareReady = true → t.role c.func = s.spareSlice)) ∧
      (coefsOk m = true → c.kind ≠ .episode → ∃ t, exec (.sliceCalComplete m) s = .next t ∧ t.slices.cal = none ∧
        t.rd F.SLC_CAL_STAT.RESULT = 1 ∧ t.rdI (F.SLC_CALOFS.OFS c.slice) = m.ofs ∧ t.rdI (F.SLC_CALSKEW.SKEW c.slice) = m.skew ∧
        t.rd (F.SLC_STAT.MODE c.slice) = (if c.kind = .intrusive then slActive else if s.spareSlice = c.slice then slSpare else
          if c.func = 0xF then slOff else slActive)) ∧
      (coefsOk m = true → c.kind = .episode → c.fib ≠ 2 → c.keep = false → ∃ t, exec (.sliceCalComplete m) s = .next t ∧
        t.slices.cal = some { c with ended := true, rounds := none } ∧ t.rdI (F.SLC_CALOFS.OFS c.slice) = m.ofs ∧
        t.rd F.SLC_CAL_STAT.PHASE = 3 ∧ t.rd (F.SLC_STAT.MODE c.slice) = slParallel)) ∧
    (∀ n : Fin 15, ∃ t, exec (.ovrlong n) s = .next t ∧ keeps (.slices :: eventParts) s t ∧ t.rd (F.SLC_STAT.OVRLONG n) = 1 ∧
      t.rd (F.SLC_STAT.OVR n) = 1 ∧ t.rd (F.SLC_OVRCNT.COUNT n) = satN 32 (s.rd (F.SLC_OVRCNT.COUNT n) +
        min 65536 (s.now - mapGet (fun _ => (0 : Nat)) s.slices.ovrAt n)) ∧
      raised s t 0x0404 .warn n none 0 (s.rd (F.SLC_STAT.FUNC n)) 0 0) ∧
    (∀ (n : Fin 15) (kind ago : Nat), 1 ≤ kind → kind ≤ 3 → s.slices.cal = none →
      let mode := s.rd (F.SLC_STAT.MODE n)
      let f := s.rd (F.SLC_STAT.FUNC n)
      mode ≠ slFenced → mode ≠ slTest → mode ≠ slOff → ∃ t, exec (.sliceFault n kind ago) s = .next t ∧
        t.rd (F.SLC_STAT.MODE n) = slTest ∧ t.rd (F.SLC_STAT.FAULT n) = kind ∧ t.rd (F.SLC_STAT.FUNC n) = 0xF ∧
        (n.val, s.now) ∈ t.slices.tests ∧ t.rd F.SLC_CAL_STAT.PHASE = 4 ∧ t.rd F.SLC_CAL_STAT.BUSY = 1 ∧
        (f < 14 → s.role f = n → (f, { t0 := s.now - ago, t1 := min (s.now - ago + 1093) (s.now + 69), ref := isRef f }) ∈ t.slices.spans) ∧
        raised s t 0x0401 .fault n none 0 f kind 0 ∧
        (f < 14 → s.role f = n → s.spareReady = true → s.spareSlice ≠ n → t.role f = s.spareSlice ∧
          t.rd (F.SLC_STAT.MODE s.spareSlice) = slActive ∧ t.rd (F.SLC_STAT.GAIN s.spareSlice) = s.funcGain f ∧
          (f < 8 → t.slices.stepAt.at (f / 4) = some s.now)) ∧
        (f < 14 → s.role f = n → s.spareReady = false → t.role f = 0xF ∧ reported t 0x0403 .fault noUnit f 0 0))

/-! ## Channel samples, verdicts and filters (R184–R275) -/

/-- Cordonnet (R155, R186–R189, R215, R217). A reference sample ends lock when its step slips, on over-range, at the sixteenth low amplitude
in succession, or with a reference function not served; 1,024 samples free of that bring it back. Samples that end lock clear LOCK, set LOST
and give every shot in flight at that instant without a verdict the bad lock report. While EN is 0 the estimator rests, ψ is 0 and lock
reads true. Over-range samples are counted either way. Channel samples (R59, R184–R198, R201, R224, R229): once its slot's sample has left
stage 9 a channel gains one entry, of that slot, formed from its words by stages 1 to 7; a dark slot's carries neither phase nor amplitude.
No other channel gains or loses one. A function that is lost reads 0xF in the role map, and where no polarisation keeps a weight the shots
in flight have the cause of R243. -/
def Obligations.CordonnetAndChannels : Prop :=
  ((∀ (dref ctc lockmin : Nat) (served lock : Bool) (r : RefSample) (c : Cordonnet),
     let d := if c.started then wrapI 20 (refAngle r - c.beta) else 0
     let low := if r.i * r.i + r.q * r.q < lockmin * lockmin then c.low + 1 else 0
     let bad := 2 ^ 18 ≤ d.natAbs ∨ r.ovr = true ∨ 16 ≤ low ∨ served = false
     let u := refRun dref ctc lockmin served lock [r] c
     (bad → u.2.1 = false ∧ u.1.clean = 0) ∧ (¬ bad → u.1.clean = c.clean + 1 ∧ (u.2.1 = true ↔ lock = true ∨ 1024 ≤ c.clean + 1))) ∧
   (∀ (refs : List RefSample) (s : State),
     let start := s.now - refs.length
     let cmds := [Instr.cordonnetLockLost refs, .cordonnetLockRegained refs]
     (s.rd F.FRP_CD_CFG.EN = 0 → wordField 0 1 (s.view R.FRP_CD_STAT) = 1 ∧ (∀ τ, s.psiAt τ = 0) ∧
       ∀ i ∈ cmds, ∃ t, exec i s = .next t ∧ keeps [.regs, .slices] s t ∧ t.cordLock = s.cordLock) ∧
     (s.rd F.FRP_CD_CFG.EN = 1 → refs ≠ [] →
       let r := refRun (s.rd F.FRP_CD_CFG.DREF) (s.rd F.FRP_CD_CFG.CTC) (s.rd F.FRP_CD_LOCK.LOCKMIN) s.refServed s.cordLock refs
         { s.cord with at_ := start, psi := if s.cord.at_ = start then s.cord.psi else [] }
       ∀ i ∈ cmds, ∃ t, exec i s = .next t ∧ keeps [.regs, .cord, .commit, .slices] s t ∧ t.cordLock = r.2.1 ∧ t.cord.psi = r.1.psi ∧
         (r.2.2.1 = true → t.rd F.FRP_CD_STAT.SLIP = 1) ∧
         (s.cordLock = false → r.2.1 = true → ∀ p ∈ t.cord.lost, p.2 ≠ none) ∧
         (∀ τ, (τ, false) ∈ r.2.2.2 → t.rd F.FRP_CD_STAT.LOST = 1 ∧
           ∀ x, ∀ sl ∈ (t.cmt x).slots, sl.launched = true → sl.verdict = none → sl.tL + s.rd (F.FRP_CDT.EMIT x.idx) ≤ τ →
             τ ≤ sl.tL + sl.tmin → sl.cordOk = false ∧ nthBit sl.causes 3 = true)) ∧
     (s.rd F.FRP_CD_CFG.EN = 1 → s.cordLock = true → s.refServed = false → ∃ t, exec (.cordonnetLockLost []) s = .next t ∧
       keeps [.regs, .cord, .commit] s t ∧ t.cordLock = false ∧ t.rd F.FRP_CD_STAT.LOST = 1 ∧ (s.now, none) ∈ t.cord.lost ∧
       ∀ x, (t.cmt x).slots = (s.cmt x).slots.map (fun sl =>
         if sl.launched = true ∧ sl.verdict = none ∧ sl.tL + s.rd (F.FRP_CDT.EMIT x.idx) ≤ s.now ∧ s.now ≤ sl.tL + sl.tmin
         then { sl with cordOk := false, causes := sl.causes ||| causeCord } else sl)))) ∧
  ((∀ (x : Fibre) (c : Nat) (refs : List RefSample) (first : Int) (ws : List FrontWord) (s : State) (sl : Slot),
     (s.cmt x).nextFor c = some sl → s.cmState x ≠ cmIdle → c < s.rd (F.SHOT_GSTAT.NCH_ACT x.idx) → s.leaveAt x c sl ≤ s.now →
     (∀ t0, s.intrusiveAt = some t0 → sl.kind = .dark → sl.tL < t0) →
     ∃ (t : State) (e : Entry), exec (.channelSampleEmit x c refs first ws) s = .next t ∧
       ((t.cmt x).chan c).entries = ((s.cmt x).chan c).entries ++ [e] ∧ e.round = sl.round ∧ e.tone = sl.tone ∧
       (sl.pulse = none → e = { round := sl.round, tone := sl.tone, phi := 0, amp := 0, q := 0, zero := false, fault := false }) ∧
       (∀ pl, sl.pulse = some pl → e = frontChannel x c sl pl first ws (s.cordRun refs)) ∧
       (∀ k, k ≠ c → (t.cmt x).chan k = (s.cmt x).chan k) ∧ (t.cmt x.other).chans = (s.cmt x.other).chans) ∧
   (∀ (f : Fin 14) (s : State), let t := loseFunc f s
     t.role f = 0xF ∧ raised s t 0x0403 .fault noUnit none 0 f 0 0 ∧
     ∀ x, t.noWeight x.idx = true → ∀ sl ∈ (t.cmt x).slots, sl.launched = true → sl.verdict = none → sl.tL ≤ s.now →
       s.now ≤ sl.tL + sl.tmin → nthBit sl.causes 4 = true))

/-- Verdicts, replay and release (R218, R219, R225, R226, R234, R238, R242–R245). The first slot that can be judged takes its verdict: GOOD
changes that alone; BAD is counted and shown with its round, tone, causes and sequence number, and erases the slot for every channel;
PARTIAL is counted and shown as such; fault spans newly known take effect. A replay that has read up to the newest entry ends. A lane's
outputs whose shots have all committed are queued. -/
def Obligations.VerdictsAndReplay : Prop :=
  ∀ (x : Fibre) (s : State),
    (∀ sl, (s.cmt x).slots.find? (fun q => s.judgement x false q != .none_) = some sl →
      let k := s.knownCauses x sl
      let shown (t : State) (part : Nat) : Prop := counted (F.CMT_BAD.COUNT x.idx) s t ∧
        t.rd (F.CMT_LAST.RND x.idx) = sl.round % 2 ^ 16 ∧ t.rd (F.CMT_LAST.TONE x.idx) = sl.tone % 4 ∧
        t.rd (F.CMT_LAST.CAUSE x.idx) = k % 2 ^ 9 ∧ t.rd (F.CMT_LAST.PART x.idx) = part ∧
        t.rd (F.CMT_LSEQ_LO.SEQ_LO x.idx) = sl.seq % 2 ^ 32 ∧ t.rd (F.CMT_LSEQ_HI.SEQ_HI x.idx) = sl.seq / 2 ^ 32 % 2 ^ 16
      (s.judgement x false sl = .final → k = 0 → ∃ t, exec (.verdict x) s = .next t ∧ keeps [.commit] s t ∧
        (t.cmt x).slots = (s.cmt x).slots.map (fun q => if q.id = sl.id then { sl with verdict := some .good } else q)) ∧
      (s.judgement x false sl = .final → k ≠ 0 → ∃ t, exec (.verdict x) s = .next t ∧ shown t 1 ∧
        ∀ q ∈ (t.cmt x).slots, q.id = sl.id → q.verdict = some .part ∧ q.causes = k) ∧
      (s.judgement x false sl = .bad → ∃ t, exec (.verdict x) s = .next t ∧ shown t 0 ∧ counted (F.CMT_ERASE.COUNT x.idx) s t ∧
        ∀ q ∈ (t.cmt x).slots, q.id = sl.id → q.verdict = some .bad ∧ q.erased = true ∧ q.causes = k) ∧
      (s.judgement x false sl = .span → ∃ t, exec (.verdict x) s = .next t ∧
        ∀ q ∈ (t.cmt x).slots, q.id = sl.id → q.spanSeen = true ∧ q.spans = sl.spans ++ s.newSpans x sl ∧ q.verdict = sl.verdict)) ∧
    ((∀ sl ∈ (s.cmt x).slots, s.judgement x false sl = .none_) → exec (.verdict x) s = .next s) ∧
    (∀ r τ, (s.cmt x).replay = some (r, τ) → (s.cmt x).backlog r ≤ (s.cmt x).ran → ∃ t, exec (.replayComplete x) s = .next t ∧
      (t.cmt x).replay = none ∧ t.cmState x = if (s.cmt x).stopped = none then cmRun else cmDrain) ∧
    (((s.cmt x).replay = none ∨ ∃ r τ, (s.cmt x).replay = some (r, τ) ∧ (s.cmt x).ran < (s.cmt x).backlog r) →
      exec (.replayComplete x) s = .next s) ∧
    (∀ ll : Fin 32, mapWf (fun _ => emptyBobbin) s.ground.bobs = true → ∃ t, exec (.laneRelease ll) s = .next t ∧ keeps [.ground, .lanes] s t ∧
      ∀ b, (t.bob b).recs = (s.bob b).recs.map (fun r => match r.lane with
        | some (l, _, _) => if l = ll ∧ r.st = .spec ∧ s.releasable r = true then { r with st := .queued, freed := s.now, tb := s.tbNs } else r
        | none => r))

/-- Settings of stage 9 and of the filters (R208, R253, R266). FRP_CFG takes FTH, FABS and STSH, and no change of the image's fields. A word
of a DAS set or of an auxiliary chain whose ratio its preset does not admit is refused; an admitted one of a set is in force at once while
the commit logic is idle and pending otherwise, and one of a chain waits for the chain's next input. -/
def Obligations.FilterSettings : Prop :=
  ∀ s : State,
    (∀ (x : Fibre) (w : Word),
      let image (v : Word) : Nat × Nat := (wordField 4 1 v, wordField 0 2 v)
      (image w ≠ image (s.reg (R.FRP_CFG x.idx)) → exec (.frpCfgWrite x w) s = .next (s.answer .denied)) ∧
      (image w = image (s.reg (R.FRP_CFG x.idx)) → 49 < wordField 24 6 w → exec (.frpCfgWrite x w) s = .next (s.answer .refused)) ∧
      (image w = image (s.reg (R.FRP_CFG x.idx)) → wordField 24 6 w ≤ 49 → ∃ t, exec (.frpCfgWrite x w) s = .next t ∧
        keeps [.regs, .status] s t ∧ keepsRegs [R.FRP_CFG x.idx] s t ∧ t.status = .ok ∧
        t.rd (F.FRP_CFG.FABS x.idx) = wordField 24 6 w ∧ t.rd (F.FRP_CFG.FTH x.idx) = wordField 16 8 w ∧
        t.rd (F.FRP_CFG.STSH x.idx) = wordField 8 4 w ∧ image (t.reg (R.FRP_CFG x.idx)) = image w)) ∧
    (∀ (x : Fibre) (j : Fin 2) (w : Word),
      let v := w32 (wordField 31 1 w * 2 ^ 31 + wordField 18 2 w * 2 ^ 18 + wordField 0 18 w)
      let was := (s.cmt x).sets.at j
      (cfgOk v = false → exec (.fltDscfgWrite x j w) s = .next (s.answer .refused)) ∧
      (cfgOk v = true → s.anyAcquiring = false → ∃ t, exec (.fltDscfgWrite x j w) s = .next t ∧ t.status = .ok ∧
        t.reg (R.FLT_DSCFG x.idx j) = v ∧
        (s.cmState x = cmIdle → ((t.cmt x).sets.at j).cfg = v ∧ ((t.cmt x).sets.at j).pend = none) ∧
        (s.cmState x ≠ cmIdle → (t.cmt x).sets.at j = { was with pend := some (v, s.now) }))) ∧
    (∀ (k : Fin 64) (w : Word), 48 ≤ k.val → exec (.fltAuxCfgWrite k w) s = .next (s.answer .ok)) ∧
    (∀ (k : Fin 64) (w : Word), k.val < 48 →
      (cfgOk w = false → exec (.fltAuxCfgWrite k w) s = .next (s.answer .refused)) ∧
      (cfgOk w = true → ∃ t, exec (.fltAuxCfgWrite k w) s = .next t ∧ keeps [.regs, .aux, .status] s t ∧
        keepsRegs [R.FLT_AUX_CFG k] s t ∧ t.status = .ok ∧ t.rd (F.FLT_AUX_CFG.EN k) = wordField 31 1 w ∧
        t.rd (F.FLT_AUX_CFG.PRESET k) = dsPreset w ∧ t.rd (F.FLT_AUX_CFG.RATIO k) = dsRatio w ∧
        t.auxChain k = { s.auxChain k with pend := some (t.reg (R.FLT_AUX_CFG k)) }))

/-! ## Temperature sensing (R207, R311–R342) -/

/-- Raman traces and periods (R207, R221, R316–R321, R325). The words of the first trace that awaits them, once complete, give its sums; a
trace without a served function is bad. A bad trace is counted and not averaged, a good one joins its period. A period that outlasts its
timeout is closed as lost: LOSTSEEN is set and the event 0x0A01 raised, and the next period begins. A period record that is complete goes to
the raw bobbin. DTS_COEF and DTS_LNC wait for the next close; a GAMMA below 50,000 is refused. -/
def Obligations.TemperatureSensing : Prop :=
  ∀ (x : Fibre) (s : State),
    (∀ tr ws, (s.dt x).traces.find? (fun q => q.sums.isNone) = some tr → (s.ramanTimes x.idx tr).2 + 56 ≤ s.now + 1 →
      let bad := s.role (asFunc x.idx) = 0xF ∨ s.role (stFunc x.idx) = 0xF ∨
        s.ramanSpoilt x.idx (s.ramanTimes x.idx tr).1 (s.ramanTimes x.idx tr).2 = true
      ∃ t, exec (.ramanTraceComplete x ws) s = .next t ∧ keeps [.dts, .regs, .slices] s t ∧ (t.dt x).period = (s.dt x).period ∧
        t.dt x.other = s.dt x.other ∧
        ∀ q ∈ (t.dt x).traces, q.round = tr.round → q.sums = some (traceSum x tr ws s) ∧ (bad → q.bad = true)) ∧
    (∀ p, s.dtsDual = false → (s.dt x).period = some p → (s.dt x).run = true → p.startAt + s.dtsTimeout x.idx ≤ s.now →
      ∃ t, exec (.periodTimeout x) s = .next t ∧ t.rd (F.DTS_STAT.LOSTSEEN x.idx) = 1 ∧
        t.rd (F.DTS_PER.K x.idx) = (s.rd (F.DTS_PER.K x.idx) + 1) % 2 ^ 32 ∧ t.rd (F.DTS_GOOD.GOOD x.idx) = 0 ∧
        t.rd (F.DTS_STAT.STATE x.idx) = 1 ∧ reported t 0x0A01 .warn noUnit (s.rd (F.DTS_PER.K x.idx)) 0 0 ∧
        ∃ l, (t.dt x).out = (s.dt x).out ++ l ∧ ∀ q ∈ l, q.2.kind = 5 ∧ q.2.bad = true) ∧
    (∀ τ r rest b, (s.dt x).out = (τ, r) :: rest → τ ≤ s.now → b = s.rd (F.DTS_BOB.RAW x.idx) →
      bobPages (s.bob b) + recPages r ≤ s.rd (F.GND_BCFG.QUOTA b) → ∃ t, exec (.periodRecordWrite x) s = .next t ∧
        keeps [.dts, .ground] s t ∧ (t.dt x).out = rest ∧ (t.bob b).recs = (s.bob b).recs ++
          [{ idx := (s.bob b).next, data := r, pages := recPages r, st := .queued, tags := noTags, lane := none, freed := s.now,
             tb := s.tbNs, frames := takeFree (s.usedPages (s.rd (F.GND_BCFG.PLACE b) == 1)) (recPages r) }]) ∧
    (((s.dt x).out = [] ∨ ∃ τ r rest, (s.dt x).out = (τ, r) :: rest ∧ s.now < τ) → exec (.periodRecordWrite x) s = .next s) ∧
    (∀ (tr : RamanTrace) (p : Period) (v : TraceSum), (s.dt x).period = some p → tr.sums = some v →
      let bad := tr.bad = true ∨ s.ramanSpoilt x.idx (s.ramanTimes x.idx tr).1 (s.ramanTimes x.idx tr).2 = true
      let t := finishTrace x tr s
      (bad → counted (F.CMT_TBAD.COUNT x.idx) s t ∧ (t.dt x).period = some { p with bad := p.bad + 1 }) ∧
      (¬ bad → p.good + 1 < s.dtsAvg x.idx → (t.dt x).period = some (addTrace tr v p))) ∧
    (∀ w : Word,
      (∃ t, exec (.dtsCoefWrite x true w) s = .next t ∧ keeps [.regs, .dts, .status] s t ∧ keepsRegs [R.DTS_LNC x.idx] s t ∧
        t.status = .ok ∧ t.reg (R.DTS_LNC x.idx) = w ∧ t.dt x = { s.dt x with pend := (s.dt x).pend ++ [(s.now, true, w)] }) ∧
      (wordField 0 16 w < 50000 → exec (.dtsCoefWrite x false w) s = .next (s.answer .refused)) ∧
      (50000 ≤ wordField 0 16 w → ∃ t, exec (.dtsCoefWrite x false w) s = .next t ∧ keeps [.regs, .dts, .status] s t ∧
        keepsRegs [R.DTS_COEF x.idx] s t ∧ t.status = .ok ∧ t.reg (R.DTS_COEF x.idx) = w ∧
        t.dt x = { s.dt x with pend := (s.dt x).pend ++ [(s.now, false, w)] }))

/-! ## The management channel and image transfers (R491–R497, R540–R543, R612, R625, R626) -/

/-- A request's response goes to its sender (R476, R492, R495, R496): a datagram from the management port to the request's address and port,
whose bytes are the magic word, version 1, the request's OP plus 128, its sequence number, the count, the status, a zero and the request's
ADDR, and the result words in little-endian order. A port whose next hop is found is handed it; else it waits there for the hop (the model's
choice, assumption 107). An AUTH response is counted. Its DSCP is free (assumption 31). Nothing else changes but what B126 takes. -/
def Obligations.MgmtResponse : Prop :=
  ∀ (r : Request) (st : Status) (count : Nat) (ws : List Word) (s : State), count < 65536 →
    let t := respond r st count ws s
    keeps (.net :: .fresh :: .status :: eventParts) s t ∧ t.status = st ∧
    t.rd F.NET_MGMTSTAT.AUTHF = (if st = .auth then min 255 (s.rd F.NET_MGMTSTAT.AUTHF + 1) else s.rd F.NET_MGMTSTAT.AUTHF) ∧
    t.net.queue = s.net.queue ∧ t.net.prog = s.net.prog ∧
    (r.port < 2 → ∃ dscp b, dscp < 64 ∧
        let w := Out.udp r.v6 r.src (s.rd F.NET_MGMT.PORT) r.sport dscp b
        (s.resolved r.port r.v6 r.src = true → sends r.port w s t ∧ (t.port r.port).held = (s.port r.port).held) ∧
        (s.resolved r.port r.v6 r.src = false → (t.port r.port).held = (s.port r.port).held ++ [(r.v6, s.hopAddr r.port r.v6 r.src, w)]) ∧
        b.length = 16 + 4 * ws.length ∧ dgLe b 0 2 = 0x4D46 ∧ dgLe b 2 1 = 1 ∧ dgLe b 3 1 = (dgOp r.bytes + 128) % 256 ∧
        dgSeq b = dgSeq r.bytes ∧ dgCount b = count ∧ dgLe b 10 1 = st.code ∧ dgLe b 11 1 = 0 ∧ dgAddr b = dgAddr r.bytes ∧
        bytesToWords (b.drop 16) = ws)

/-- READ and WRITE of registers (R493, R495, R497, R541, R640): from ADDR on, in ascending order, to the first that fails, whose status the
response carries with the count of those that completed; a READ's response carries their values. Between two of its register accesses the
request may pause, for a monitor command to run, and goes on where it stood (the model's choice of when, assumption 108). A WRITE with an
emission-affecting register needs the owner's authority, a trailer that does not verify fails the request with AUTH, and a COUNT outside 1
to 256 is MALFORMED. -/
def Obligations.MgmtReadWrite : Prop :=
  let reads (pause : Option Nat) (g : Progress) (u t : State) : Prop := ∃ (l : List Word) (v : State),
    let k := min g.left (pause.getD g.left)
    let first := busRead g.addr (u.answer .ok)
    l.length ≤ k ∧ (v.status = .ok ↔ l.length = k) ∧ (k = 1 → v = first.2) ∧
    (1 ≤ k → l.head? = if first.2.status = .ok then some first.1 else none) ∧
    t = if v.status = .ok ∧ k < g.left then
        v.setProg (some { g with addr := (g.addr + 4 * k) % 2 ^ 32, left := g.left - k, words := g.words ++ l })
      else respond g.req v.status (g.words.length + l.length) (g.words ++ l) (v.setProg none)
  let writes (pause : Option Nat) (g : Progress) (u t : State) : Prop := ∃ (j : Nat) (v : State),
    let k := min g.left (pause.getD g.left)
    j ≤ k ∧ (v.status = .ok ↔ j = (g.words.take k).length) ∧
    (∀ w, g.words.take k = [w] → v = busWrite g.auth g.addr w (u.answer .ok)) ∧
    t = if v.status = .ok ∧ k < g.left then
        v.setProg (some { g with addr := (g.addr + 4 * k) % 2 ^ 32, left := g.left - k, words := g.words.drop k, completed := g.completed + j })
      else respond g.req v.status (g.completed + j) [] (v.setProg none)
  (∀ (r : Request) (s : State), s.net.queue.head? = some r → s.net.prog = none →
    let n := dgCount r.bytes
    let a := dgAddr r.bytes
    let ws := dgWords r.bytes
    let u := acting s r
    let asked (left : Nat) (words : List Word) : Progress :=
      { req := r, auth := authority s r, addr := a, left := left, words := words, completed := 0 }
    ∀ pause,
    (dgOp r.bytes = 1 → 1 ≤ n → n ≤ 256 → ∃ t, exec (.mgmtRead pause) s = .next (judged false s r t) ∧ reads pause (asked n []) u t) ∧
    (dgOp r.bytes = 2 → 1 ≤ n → n ≤ 256 → ∃ t, exec (.mgmtWrite pause) s = .next (judged (u.emissionWrites ws a) s r t) ∧
      writes pause (asked ws.length ws) u t) ∧
    (dgOp r.bytes = 1 → (n = 0 ∨ 256 < n) → exec (.mgmtRead pause) s = .next (judged false s r (respond r .malformed 0 [] u))) ∧
    (dgOp r.bytes = 2 → (n = 0 ∨ 256 < n) → exec (.mgmtWrite pause) s = .next (judged false s r (respond r .malformed 0 [] u)))) ∧
  (∀ (g : Progress) (s : State) pause, s.net.prog = some g →
    (dgOp g.req.bytes = 1 → ∃ t, exec (.mgmtRead pause) s = .next t ∧ reads pause g s t) ∧
    (dgOp g.req.bytes = 2 → ∃ t, exec (.mgmtWrite pause) s = .next t ∧ writes pause g s t))

/-- Requests that fail without effect (R494, R495): a code that no command has is UNKNOWN, a command that lacks an argument is MALFORMED.
Without a request in the queue, and while an earlier one is still in progress, the rows of the management channel have no effect.
UNIT_RESET, with authority (R180, R359, R494, R497, R564, R570): once an image is applied, a slice in its built-in test or fenced, the spare
and a standby begin that test afresh, their over-range count and flags cleared; a serving one waits for an episode on the spare's service,
and answers BUSY with RESULT 2 without a spare; a lane in its test or fenced begins it afresh, an active one leaves service for it; an idle
converter is calibrated, or tested if fenced, and the active one is noted for its reset after a swap, or BUSY without the other; a code that
names no such unit, or any before an image, is REFUSED. That a reset clears no more of a slice's registers is the model's choice (assumption
94). -/
def Obligations.MgmtOtherRequests : Prop :=
  (∀ (r : Request) (s : State),
     (s.net.queue.head? = some r → s.net.prog = none → dgOp r.bytes = 3 → cmdKnown (dgAddr r.bytes) = false → dgCount r.bytes ≤ 256 →
       exec .cmdNop s = .next (judged false s r (respond r .unknown 0 [] (acting s r)))) ∧
     (commanded s r 3 0 → dgCount r.bytes = 0 → exec .start s = .next (judged true s r (respond r .malformed 0 [] (acting s r)))) ∧
     (commanded s r 4 0 → dgCount r.bytes = 0 → exec .stop s = .next (judged false s r (respond r .malformed 0 [] (acting s r)))) ∧
     (commanded s r 7 0 → dgCount r.bytes = 0 → exec .attest s = .next (judged false s r (respond r .malformed 0 [] (acting s r)))) ∧
     (s.net.queue = [] ∨ s.net.prog.isSome = true → ∀ i ∈ [Instr.start, .stop, .cmdNop, .challenge, .cmdReset, .unitReset, .attest, .xferOpen,
       .xferData, .xferClose, .xferAbort], exec i s = .next s) ∧
     (s.net.queue = [] → s.net.prog = none → ∀ pause, exec (.mgmtRead pause) s = .next s ∧ exec (.mgmtWrite pause) s = .next s)) ∧
  (∀ (r : Request) (s : State), commanded s r 6 1 →
     let u := acting s r
     let n := (wordAt (dgWords r.bytes) 0).toNat
     let answers (st : Status) (v : State) : Prop := exec .unitReset s = .next (judged true s r (respond r st 0 [] v)) ∧ v.status = st
     ((u.boot.image = none ∨ (0x0E < n ∧ n < 0x20) ∨ (0x40 < n ∧ n ≠ 0x50 ∧ n ≠ 0x51)) → answers .refused (u.answer .refused)) ∧
     (u.boot.image ≠ none → n ≤ 0x0E → (u.rd (F.SLC_STAT.MODE n) = slFenced ∨ u.rd (F.SLC_STAT.MODE n) = slTest) → ∃ v, answers .ok v ∧
       keeps [.regs, .slices, .status] u v ∧ keepsRegs [R.SLC_STAT n, R.SLC_OVRCNT n, R.SLC_CAL_STAT] u v ∧
       v.rd (F.SLC_STAT.MODE n) = slTest ∧ v.rd (F.SLC_STAT.OVR n) = 0 ∧ v.rd (F.SLC_STAT.OVRLONG n) = 0 ∧ v.rd (F.SLC_OVRCNT.COUNT n) = 0 ∧
       (n, u.now) ∈ v.slices.tests) ∧
     (u.boot.image ≠ none → n ≤ 0x0E → u.rd (F.SLC_STAT.MODE n) ≠ slFenced → u.rd (F.SLC_STAT.MODE n) ≠ slTest → u.slices.cal = none →
       (u.rd (F.SLC_STAT.FUNC n) = 0xF → ∃ v, answers .ok v ∧ keeps [.regs, .slices, .status] u v ∧ v.rd (F.SLC_STAT.MODE n) = slTest ∧
         v.spareSlice ≠ n ∧ v.rd (F.SLC_STAT.OVR n) = 0 ∧ v.rd (F.SLC_OVRCNT.COUNT n) = 0 ∧ (n, u.now) ∈ v.slices.tests) ∧
       (u.rd (F.SLC_STAT.FUNC n) ≠ 0xF → u.spareReady = false → ∃ v, answers .busy v ∧ keeps [.regs, .status] u v ∧
         keepsRegs [R.SLC_CAL_STAT] u v ∧ v.rd F.SLC_CAL_STAT.RESULT = 2) ∧
       (u.rd (F.SLC_STAT.FUNC n) ≠ 0xF → u.spareReady = true → u.spareSlice ≠ n → u.roundsOf (u.rd (F.SLC_STAT.FUNC n)) ≠ 2 → ∃ v c,
         answers .ok v ∧ keeps [.regs, .slices, .status] u v ∧ keepsRegs [R.SLC_CAL_STAT] u v ∧ v.slices.cal = some c ∧
         c.kind = .episode ∧ c.slice = n ∧ c.func = u.rd (F.SLC_STAT.FUNC n) ∧ c.unitReset = true ∧ v.rd F.SLC_CAL_STAT.BUSY = 1)) ∧
     (u.boot.image ≠ none → 0x20 ≤ n → n ≤ 0x40 → (u.laneMode (n - 0x20) = laneFenced ∨ u.laneMode (n - 0x20) = laneTest) →
       ∃ v, answers .ok v ∧ keeps [.lanes, .status] u v ∧ (n - 0x20, u.now) ∈ v.lanes.tests) ∧
     (u.boot.image ≠ none → 0x20 ≤ n → n ≤ 0x40 → u.laneMode (n - 0x20) = laneActive → u.spareLane ≠ n - 0x20 → ∃ v, answers .ok v ∧
       v.laneMode (n - 0x20) = laneFenced ∧ (n - 0x20, u.now) ∈ v.lanes.tests) ∧
     (u.boot.image ≠ none → (n = 0x50 ∨ n = 0x51) →
       let apart : Prop := u.idleSt = ihFenced ∨ u.idleSt = ihTest
       (n - 0x50 ≠ u.hkActive → apart → answers .ok ((hkFence u).answer .ok)) ∧
       (n - 0x50 ≠ u.hkActive → ¬ apart → answers .ok ((hkCalBegin u).answer .ok)) ∧
       (n - 0x50 = u.hkActive → apart → answers .busy (u.answer .busy)) ∧
       (n - 0x50 = u.hkActive → ¬ apart → ∃ v, answers .ok v ∧ keeps [.hk, .status] u v ∧ v.hk = { u.hk with resetReq := true })))

/-- The commands NOP, CHALLENGE, START, STOP, RESET and ATTEST (R494, R497, R530, R540, R541, R543). NOP answers OK. CHALLENGE answers a
nonce of 48 bytes and the device ID, and the nonce is the outstanding challenge for 60 s; while the DRBG is in error it is REFUSED. START,
with authority, and STOP act on the fibres that their mask names and answer OK. RESET, with authority, answers first and then raises the
source MGMT for 10 µs. ATTEST answers the identity key, or the report with its signature. -/
def Obligations.MgmtCommands : Prop :=
  ∀ (r : Request) (s : State),
    let u := acting s r
    let w := u.answer .ok
    let ws := dgWords r.bytes
    (commanded s r 1 0 → exec .cmdNop s = .next (judged false s r (respond r .ok 0 [] w))) ∧
    (commanded s r 2 0 → u.rd F.SEC_STAT.DRBGERR = 0 → ∃ (nonce : List Byte) (v : State), nonce.length = 48 ∧
      exec .challenge s = .next (judged false s r (respond r .ok 14 (bytesToWords (nonce ++ deviceId)) v)) ∧
      keeps [.secu, .fresh, .regs, .status] u v ∧ keepsRegs [R.SEC_STAT] u v ∧
      v.secu.challenge = some (nonce, u.now + 60_000_000_000) ∧ v.rd F.SEC_STAT.CHAL = 1) ∧
    (commanded s r 2 0 → u.rd F.SEC_STAT.DRBGERR = 1 →
      exec .challenge s = .next (judged false s r (respond r .refused 0 [] (u.answer .refused)))) ∧
    (commanded s r 3 1 →
      exec .start s = .next (judged true s r (respond r .ok 0 [] ((startMask ((wordAt ws 0).toNat % 4) w).answer .ok)))) ∧
    (commanded s r 4 1 →
      exec .stop s = .next (judged false s r (respond r .ok 0 [] ((stopMask ((wordAt ws 0).toNat % 4) w).answer .ok)))) ∧
    (commanded s r 5 0 → exec .cmdReset s = .next (judged true s r (pulseSource srMgmt (respond r .ok 0 [] w)))) ∧
    (commanded s r 7 1 → ws = [1] → exec .attest s = .next (judged false s r (respond r .ok 24 (bytesToWords identityQ) w))) ∧
    (∀ q, commanded s r 7 1 → ws = 0 :: q → q.length = 12 → ∃ m, m = w.report (wordsToBytes q) ∧
      exec .attest s = .next (judged false s r
        (respond r .ok (bytesToWords (m ++ signIdentity m)).length (bytesToWords (m ++ signIdentity m)) w)))

/-- Image and table transfers, with authority (R497, R612, R625, R626): OPEN begins a transfer that fits its destination and erases a slot;
DATA at the next offset is taken and programmed page by page; CLOSE of a wrong length ends with RESULT 6, and of a slot as its image
verifies, configures and is newer: the RESULT says which, and 1 clears the slot's mark; ABORT ends with RESULT 7. The flash does one
operation at a time, the oldest first: a completion that comes while another waits ahead is none of the transfer's; one that verifies lets
the next begin; one that does not ends the transfer with RESULT 8. -/
def Obligations.Transfers : Prop :=
  ∀ (r : Request) (s : State),
    let u := acting s r
    let ws := dgWords r.bytes
    let answers (i : Instr) (v : State) : Prop := exec i s = .next (judged true s r (respond r .ok 0 [] v)) ∧
      keeps [.flash, .regs, .status] u v ∧ keepsRegs [R.SYS_XFER] u v
    (commanded s r 0x10 2 → u.flash.transfer = none →
      let dest := (wordAt ws 0).toNat % 4
      let len := (wordAt ws 1).toNat
      ((dest < 2 ∧ dest ≠ u.rd F.SYS_IMG.RUN ∧ len ≤ 33_554_432 ∧ u.rd F.SYS_FLASH.MODE ≠ 0) ∨ (dest = 2 ∧ len ≤ 1_048_576)) →
      ∃ v tr, answers .xferOpen v ∧ v.flash.transfer = some tr ∧ tr.dest = dest ∧ tr.length = len ∧
        tr.words = [] ∧ v.rd F.SYS_XFER.OPEN = 1 ∧ v.rd F.SYS_XFER.DEST = dest ∧ v.rd F.SYS_XFER.NEXT = 0 ∧
        (v.rd F.SYS_XFER.BUSY = 1 ↔ tr.ops ≠ 0) ∧ v.flash.jobs = u.flash.jobs ++ List.replicate tr.ops .transfer ∧
        (dest = 2 → v.flash.slots = u.flash.slots) ∧
        (dest < 2 → v.flash.slots.at dest = [] ∧ v.flash.slots.at (1 - dest) = u.flash.slots.at (1 - dest))) ∧
    (∀ tr, commanded s r 0x11 1 → u.flash.transfer = some tr → tr.ops = 0 → (wordAt ws 0).toNat = 4 * tr.words.length →
      4 * (tr.words.length + (ws.drop 1).length) ≤ tr.length → tr.words.length + (ws.drop 1).length < 2 ^ 24 →
      ∃ v tr', answers .xferData v ∧ v.flash.transfer = some tr' ∧ tr'.words = tr.words ++ ws.drop 1 ∧
        v.flash.jobs = u.flash.jobs ++ List.replicate tr'.ops .transfer ∧
        tr'.dest = tr.dest ∧ tr'.length = tr.length ∧ v.rd F.SYS_XFER.NEXT = tr.words.length + (ws.drop 1).length) ∧
    (∀ tr, commanded s r 0x12 0 → u.flash.transfer = some tr → tr.ops = 0 → 4 * tr.words.length ≠ tr.length →
      ∃ v, answers .xferClose v ∧
      v.flash = { u.flash with transfer := none, jobs := u.flash.jobs.filter (· ≠ .transfer) } ∧ v.rd F.SYS_XFER.RESULT = 6 ∧ v.rd F.SYS_XFER.OPEN = 0) ∧
    (∀ tr, commanded s r 0x12 0 → u.flash.transfer = some tr → tr.ops = 0 → 4 * tr.words.length = tr.length → tr.dest < 2 →
      let put := (u.answer .ok).modFlash (fun f => { f with slots := f.slots.upd tr.dest tr.words })
      let seen := (authenticate false tr.dest none tr.words put).1.wr F.SYS_IMG.XAUTH 0
      ∃ v, exec .xferClose s = .next (judged true s r (respond r .ok 0 [] v)) ∧ v.flash.transfer = none ∧ v.rd F.SYS_XFER.OPEN = 0 ∧
        v.flash.slots.at tr.dest = tr.words ∧
        v.rd F.SYS_XFER.RESULT = (match (authenticate false tr.dest none tr.words put).2 with
          | .failed code => if code = 8 then 4 else 2
          | .passed i => match configure i seen.bare with
            | .error _ => 3
            | .ok _ => match seen.slotHeader (1 - tr.dest) with
              | some h => if h.gen < i.gen then 1 else 5
              | none => 1) ∧
        (v.rd F.SYS_XFER.RESULT = 1 → v.rd (markFld tr.dest) = 0)) ∧
    (commanded s r 0x13 0 → u.flash.transfer ≠ none → ∃ v, answers .xferAbort v ∧
      v.flash = { u.flash with transfer := none, jobs := u.flash.jobs.filter (· ≠ .transfer) } ∧ v.rd F.SYS_XFER.RESULT = 7 ∧ v.rd F.SYS_XFER.OPEN = 0) ∧
    (∀ tr ok, s.flash.transfer = some tr → (tr.ops = 0 ∨ s.flashTurn .transfer = false) → exec (.flashOpComplete ok) s = .next s) ∧
    (∀ tr, s.flash.transfer = some tr → tr.ops ≠ 0 → s.flashTurn .transfer = true →
      (∃ t, exec (.flashOpComplete true) s = .next t ∧ keeps [.flash, .regs] s t ∧ keepsRegs [R.SYS_XFER] s t ∧
        t.flash = { s.flash with transfer := some { tr with ops := tr.ops - 1 }, jobs := s.flash.jobs.erase .transfer } ∧ (t.rd F.SYS_XFER.BUSY = 0 ↔ tr.ops = 1)) ∧
      (∃ t, exec (.flashOpComplete false) s = .next t ∧ keeps [.flash, .regs] s t ∧ keepsRegs [R.SYS_XFER] s t ∧
        t.flash = { s.flash with transfer := none, jobs := s.flash.jobs.filter (· ≠ .transfer) } ∧ t.rd F.SYS_XFER.RESULT = 8 ∧ t.rd F.SYS_XFER.BUSY = 0))

/-! ## Lane instructions (R279–R298) -/

/-- The multiply group (R279, R280, R281, R291, R295): the products of the upper 24 bits of the operands fetched before any pointer moves,
added to, subtracted from or assigned to the accumulators, saturating at 56 bits with sticky SAT; the pointers move by their access units;
every accumulator written carries the residue of its value. A single product's pointers are those that R298 admits: different, or neither
modified. The accumulator group (R279, R291, R295): what each instruction leaves in the accumulators, the data registers and memory; `scl`
shifts left for a positive count and right to nearest for a negative one. Accumulators that carry the residues of their values go on to
carry them; a carried residue that gives ADDA, SUBA or a left SHA a wrong prediction declares the lane faulty with RESID and fences it
(R295, R564). That SHA is so checked is the model's reading (assumption 96). -/
def Obligations.LaneMultiplyAccumulate : Prop :=
  (∀ (n : Fin 33) (f : FmtM) (s : State), f.wf = true → (s.laneCore n).shaped → (s.laneCore n).sound → s.goesOn n →
     let c := s.laneCore n
     let l := s.laneOf n
     let a := opx (c.mem f.src (c.ptr f.pa))
     let q (i : Nat) : Int := a * opx (coefAt l (c.ptr f.cp / 4 * 4 + i))
     let ptQ := ((c.postMod f.pa f.ma 1).postMod f.cp f.mc 4).pt
     let xr := opx (c.mem 0 (c.ptr f.pa / 2 * 2))
     let xi := opx (c.mem 0 (c.ptr f.pa / 2 * 2 + 1))
     let yr := opx (c.mem 1 (c.ptr f.pb / 2 * 2))
     let yi := opx (c.mem 1 (c.ptr f.pb / 2 * 2 + 1))
     let z : List Int := [xr * yr, xi * yi, xr * yi, xi * yr]
     let ptZ := ((c.postMod f.pa f.ma 2).postMod f.pb f.mb 2).pt
     let b := if f.sb = 0 then opx (c.mem (1 - f.src) (c.ptr f.pb)) else opx (coefAt l (c.ptr f.cp))
     let ptS := if f.sb = 0 then ((c.postMod f.pa f.ma 1).postMod f.pb f.mb 1).pt else ((c.postMod f.pa f.ma 1).postMod f.cp f.mc 1).pt
     let apart := if f.sb = 0 then f.pa ≠ f.pb ∨ f.ma = 0 ∧ f.mb = 0 else f.pa ≠ f.cp ∨ f.ma = 0 ∧ f.mc = 0
     let r := c.acc f.acd
     let put (v : Int) : LaneCore := { c with ac := setAt c.ac f.acd (sat56 v), fl := stickySat c.fl (clips56 v), pt := ptS }
     (laneReady n (encM 0x01 f) s = true → ∃ t, exec (.bmac n f) s = .next t ∧ laneOnly n s t (LaneCore.onward
       (LaneCore.resound { c with ac := (List.range 4).map (fun i => sat56 (c.acc i + q i)),
                                  fl := stickySat c.fl ((List.range 4).any (fun i => clips56 (c.acc i + q i))), pt := ptQ }) c)) ∧
     (laneReady n (encM 0x02 f) s = true → ∃ t, exec (.bmsu n f) s = .next t ∧ laneOnly n s t (LaneCore.onward
       (LaneCore.resound { c with ac := (List.range 4).map (fun i => sat56 (c.acc i - q i)),
                                  fl := stickySat c.fl ((List.range 4).any (fun i => clips56 (c.acc i - q i))), pt := ptQ }) c)) ∧
     (laneReady n (encM 0x03 f) s = true → ∃ t, exec (.bmpy n f) s = .next t ∧ laneOnly n s t (LaneCore.onward
       (LaneCore.resound { c with ac := (List.range 4).map q, pt := ptQ }) c)) ∧
     (laneReady n (encM 0x04 f) s = true → ∃ t, exec (.cmac n f) s = .next t ∧ laneOnly n s t (LaneCore.onward
       (LaneCore.resound { c with ac := (List.range 4).map (fun i => sat56 (c.acc i + z.getD i 0)),
                                  fl := stickySat c.fl ((List.range 4).any (fun i => clips56 (c.acc i + z.getD i 0))), pt := ptZ }) c)) ∧
     (laneReady n (encM 0x05 f) s = true → ∃ t, exec (.cmpy n f) s = .next t ∧ laneOnly n s t (LaneCore.onward
       (LaneCore.resound { c with ac := z, pt := ptZ }) c)) ∧
     (laneReady n (encM 0x06 f) s = true → apart → ∃ t, exec (.smac n f) s = .next t ∧ laneOnly n s t ((put (r + a * b)).resound.onward c)) ∧
     (laneReady n (encM 0x07 f) s = true → apart → ∃ t, exec (.smsu n f) s = .next t ∧ laneOnly n s t ((put (r - a * b)).resound.onward c)) ∧
     (laneReady n (encM 0x08 f) s = true → apart → ∃ t, exec (.smpy n f) s = .next t ∧ laneOnly n s t (LaneCore.onward
       (LaneCore.resound { c with ac := setAt c.ac f.acd (a * b), pt := ptS }) c)) ∧
     (laneReady n (encM 0x09 f) s = true → ∃ t, exec (.sqac n f) s = .next t ∧ laneOnly n s t (LaneCore.onward
       (LaneCore.resound { c with ac := setAt c.ac f.acd (sat56 (r + a * a)), fl := stickySat c.fl (clips56 (r + a * a)),
                                  pt := (c.postMod f.pa f.ma 1).pt }) c))) ∧
  (∀ (n : Fin 33) (f : FmtA) (s : State), f.wf = true → (s.laneCore n).shaped → (s.laneCore n).err = false → s.goesOn n →
     let c := s.laneCore n
     let d := c.acc f.acd
     let a := c.acc f.acs
     let put (v : Int) : LaneCore := { c with ac := setAt c.ac f.acd (sat56 v), fl := stickySat c.fl (clips56 v) }
     let v := scl a f.sh
     ((s.laneCore n).sound →
     (laneReady n (encA 0x0A f) s = true → ∃ t, exec (.clra n f) s = .next t ∧ laneOnly n s t (LaneCore.onward
       (LaneCore.resound { c with ac := (List.range 4).map (fun i => if f.mask / 2 ^ i % 2 = 1 then 0 else c.acc i) }) c)) ∧
     (laneReady n (encA 0x0B f) s = true → ∃ t, exec (.adda n f) s = .next t ∧ laneOnly n s t ((put (d + a)).resound.onward c)) ∧
     (laneReady n (encA 0x0C f) s = true → ∃ t, exec (.suba n f) s = .next t ∧ laneOnly n s t ((put (d - a)).resound.onward c)) ∧
     (laneReady n (encA 0x0D f) s = true → ∃ t, exec (.sha n f) s = .next t ∧ laneOnly n s t ((put (scl d f.sh)).resound.onward c)) ∧
     (laneReady n (encA 0x0E f) s = true → ∃ (t : State) (c' : LaneCore), exec (.sta n f) s = .next t ∧ laneOnly n s t (c'.onward c) ∧
       c' = { c with x := c'.x, y := c'.y, pt := (c.postMod f.pt f.mod 1).pt, fl := flSat32 c.fl (sat32 v) (clips32 v) } ∧
       c'.mem f.mem (c.ptr f.pt) = sat32 v ∧
       (∀ m j, m < 2 → j < 8192 → (m ≠ f.mem ∨ j ≠ c.ptr f.pt) → c'.mem m j = c.mem m j)) ∧
     (laneReady n (encA 0x0F f) s = true → ∃ t, exec (.mva n f) s = .next t ∧ laneOnly n s t (LaneCore.onward
       { c with d := setAt c.d f.d (sat32 v), fl := flSat32 c.fl (sat32 v) (clips32 v) } c)) ∧
     (laneReady n (encA 0x10 f) s = true → ∃ t, exec (.lda n f) s = .next t ∧
       laneOnly n s t ((put (scl (c.dreg f.d).toInt f.sh)).resound.onward c)) ∧
     (laneReady n (encA 0x11 f) s = true → ∃ t, exec (.maxa n f) s = .next t ∧ laneOnly n s t (LaneCore.onward
       (LaneCore.resound { c with ac := setAt c.ac f.acd (if d ≤ a then a else d) }) c))) ∧
     (s.spareLane ≠ n →
       let wrong (i : Instr) : Prop := ∃ t, exec i s = .next t ∧ t.rd (F.LANE_STAT.FAULT n) = lfResid ∧ t.laneMode n = laneFenced ∧
         reported t 0x0801 .fault (laneUnit n) (s.laneLL n) lfResid 0
       (laneReady n (encA 0x0B f) s = true → (c.accRes f.acd + c.accRes f.acs) % 7 ≠ res7 (d + a) → wrong (.adda n f)) ∧
       (laneReady n (encA 0x0C f) s = true → (((c.accRes f.acd : Int) - c.accRes f.acs) % 7 : Int) ≠ res7 (d - a) → wrong (.suba n f)) ∧
       (laneReady n (encA 0x0D f) s = true → 0 ≤ f.sh → c.accRes f.acd * 2 ^ f.sh.toNat % 7 ≠ res7 (scl d f.sh) → wrong (.sha n f))))

/-- Loads and stores (R281, R291): LDX, LDY and LDC load the word at the pointer, STX and STY store a data register there and change no
other word of either data memory; the pointer then moves by its modify code. No flag changes. Moves, immediates, pointers and special
registers, and NOP (R281–R284, R291). -/
def Obligations.LaneTransfers : Prop :=
  (∀ (n : Fin 33) (f : FmtL) (s : State), f.wf = true → (s.laneCore n).shaped → (s.laneCore n).err = false → s.goesOn n →
     let c := s.laneCore n
     let p := c.ptr f.pt
     let moved := (c.postMod f.pt f.mod 1).pt
     (laneReady n (encL 0x12 f) s = true → ∃ t, exec (.ldx n f) s = .next t ∧ laneOnly n s t (LaneCore.onward
       { c with d := setAt c.d f.d (c.mem 0 p), pt := moved } c)) ∧
     (laneReady n (encL 0x13 f) s = true → ∃ t, exec (.ldy n f) s = .next t ∧ laneOnly n s t (LaneCore.onward
       { c with d := setAt c.d f.d (c.mem 1 p), pt := moved } c)) ∧
     (laneReady n (encL 0x14 f) s = true → ∃ t, exec (.ldc n f) s = .next t ∧ laneOnly n s t (LaneCore.onward
       { c with d := setAt c.d f.d (coefAt (s.laneOf n) p), pt := moved } c)) ∧
     (laneReady n (encL 0x15 f) s = true → ∃ (t : State) (c' : LaneCore), exec (.stx n f) s = .next t ∧ laneOnly n s t (c'.onward c) ∧
       c' = { c with x := c'.x, pt := moved } ∧ c'.mem 0 p = c.dreg f.d ∧ (∀ j, j < 8192 → j ≠ p → c'.mem 0 j = c.mem 0 j)) ∧
     (laneReady n (encL 0x16 f) s = true → ∃ (t : State) (c' : LaneCore), exec (.sty n f) s = .next t ∧ laneOnly n s t (c'.onward c) ∧
       c' = { c with y := c'.y, pt := moved } ∧ c'.mem 1 p = c.dreg f.d ∧ (∀ j, j < 8192 → j ≠ p → c'.mem 1 j = c.mem 1 j))) ∧
  (∀ (n : Fin 33) (s : State), (s.laneCore n).shaped → (s.laneCore n).err = false → s.goesOn n →
     let c := s.laneCore n
     (laneReady n (opWord 0 0) s = true → ∃ t, exec (.nop n) s = .next t ∧ laneOnly n s t (c.onward c)) ∧
     (∀ f : FmtI, f.wf = true → laneReady n (encI 0x17 f) s = true → ∃ t, exec (.ldi n f) s = .next t ∧
       laneOnly n s t (LaneCore.onward { c with d := setAt c.d f.dd (BitVec.ofInt 32 f.imm) } c)) ∧
     (∀ f : FmtI, f.wfHigh = true → laneReady n (encI 0x18 f) s = true → ∃ t, exec (.ldhi n f) s = .next t ∧
       laneOnly n s t (LaneCore.onward
         { c with d := setAt c.d f.dd (BitVec.ofInt 32 (f.imm * 65536 + ((c.dreg f.dd).toNat % 65536 : Nat))) } c)) ∧
     (∀ f : FmtR, f.wf = true → laneReady n (encR 0x19 f) s = true → ∃ t, exec (.mov n f) s = .next t ∧
       laneOnly n s t (LaneCore.onward
         { c with d := setAt c.d f.dd (c.dreg f.da), fl := flZNCV c.fl (c.dreg f.da) false false } c)) ∧
     (∀ f : FmtS, f.wf = true → laneReady n (encS 0x1A f) s = true → ∃ t, exec (.movs n f) s = .next t ∧
       laneOnly n s t (LaneCore.onward
         (if f.dir = 1 then { c with d := setAt c.d f.d (c.sreg (s.laneLL n) f.sreg) }
          else if f.sreg < 8 then { c with pt := setAt c.pt f.sreg ((c.dreg f.d).toNat % 8192) }
          else if f.sreg < 16 then { c with off := setAt c.off (f.sreg - 8) ((c.dreg f.d).toNat % 16384) }
          else if f.sreg < 18 then { c with
            md := setAt c.md (f.sreg - 16) ((c.dreg f.d).toNat % 8192 + (c.dreg f.d).toNat / 65536 % 16384 * 65536) }
          else if f.sreg = 18 then { c with ptcfg := (c.dreg f.d).toNat % 65536 }
          else if f.sreg = 20 then { c with fl := (c.dreg f.d).toNat % 64 } else c) c)) ∧
     (∀ f : FmtP, f.wf = true → laneReady n (encP 0x1B f) s = true → ∃ t, exec (.setp n f) s = .next t ∧
       laneOnly n s t (LaneCore.onward
         (if f.reg < 8 then { c with pt := setAt c.pt f.reg (f.imm % 8192).toNat }
          else { c with off := setAt c.off (f.reg - 8) (f.imm % 16384).toNat }) c)) ∧
     (∀ f : FmtP, f.wf = true → laneReady n (encP 0x1C f) s = true → ∃ t, exec (.addp n f) s = .next t ∧
       laneOnly n s t (LaneCore.onward
         (if f.reg < 8 then { c with pt := setAt c.pt f.reg (c.newPtr f.reg f.imm false % 8192) }
          else { c with off := setAt c.off (f.reg - 8) (((c.off.getD (f.reg - 8) 0 : Int) + f.imm) % 16384).toNat }) c)))

/-- Arithmetic and logic (R284, R291): the result of each instruction in D[DD] and its flags; CMP and CMPI write flags alone. -/
def Obligations.LaneArithmetic : Prop :=
  ∀ (n : Fin 33) (s : State), (s.laneCore n).shaped → (s.laneCore n).err = false → s.goesOn n →
    let c := s.laneCore n
    let put (dd : Nat) (v : Word) (fl : Nat) : LaneCore := LaneCore.onward { c with d := setAt c.d dd v, fl := fl } c
    (∀ f : FmtR, f.wf = true →
      let a := c.dreg f.da
      let b := c.dreg f.db
      let least := if a.toInt ≤ b.toInt then a else b
      let most := if a.toInt ≤ b.toInt then b else a
      let mag : Int := if a.toInt < 0 then -a.toInt else a.toInt
      let sh := if f.i = 1 then f.shi else sgn 6 b.toNat
      let wide : Int := if 0 ≤ sh then a.toInt * 2 ^ sh.toNat else a.toInt / 2 ^ (-sh).toNat
      (laneReady n (encR 0x1D f) s = true → ∃ t, exec (.add n f) s = .next t ∧
        laneOnly n s t (put f.dd (a + b) (flZNCV c.fl (a + b) (addCarry a b) (addOver a b)))) ∧
      (laneReady n (encR 0x1E f) s = true → ∃ t, exec (.sub n f) s = .next t ∧
        laneOnly n s t (put f.dd (a - b) (flZNCV c.fl (a - b) (subCarry a b) (subOver a b)))) ∧
      (laneReady n (encR 0x1F f) s = true → ∃ t, exec (.and n f) s = .next t ∧
        laneOnly n s t (put f.dd (a &&& b) (flZNCV c.fl (a &&& b) false false))) ∧
      (laneReady n (encR 0x20 f) s = true → ∃ t, exec (.or n f) s = .next t ∧
        laneOnly n s t (put f.dd (a ||| b) (flZNCV c.fl (a ||| b) false false))) ∧
      (laneReady n (encR 0x21 f) s = true → ∃ t, exec (.xor n f) s = .next t ∧
        laneOnly n s t (put f.dd (a ^^^ b) (flZNCV c.fl (a ^^^ b) false false))) ∧
      (laneReady n (encR 0x22 f) s = true → ∃ t, exec (.ash n f) s = .next t ∧
        laneOnly n s t (put f.dd (sat32 wide)
          (stickySat (flZNCV c.fl (sat32 wide) (shiftOut a sh) (clips32 wide)) (clips32 wide)))) ∧
      (laneReady n (encR 0x23 f) s = true → ∃ t, exec (.lsh n f) s = .next t ∧
        laneOnly n s t (let r : Word := if 0 ≤ sh then a <<< sh.toNat else a >>> (-sh).toNat
                        put f.dd r (flZNCV c.fl r (shiftOut a sh) false))) ∧
      (laneReady n (encR 0x24 f) s = true → ∃ t, exec (.cmp n f) s = .next t ∧
        laneOnly n s t (LaneCore.onward { c with fl := flZNCV c.fl (a - b) (subCarry a b) (subOver a b) } c)) ∧
      (laneReady n (encR 0x25 f) s = true → ∃ t, exec (.abs n f) s = .next t ∧
        laneOnly n s t (put f.dd (sat32 mag) (flSat32 c.fl (sat32 mag) (clips32 mag)))) ∧
      (laneReady n (encR 0x26 f) s = true → ∃ t, exec (.min n f) s = .next t ∧ laneOnly n s t (put f.dd least (flZN c.fl least))) ∧
      (laneReady n (encR 0x27 f) s = true → ∃ t, exec (.max n f) s = .next t ∧ laneOnly n s t (put f.dd most (flZN c.fl most)))) ∧
    (∀ f : FmtI, f.wf = true →
      let a := c.dreg f.da
      let b : Word := BitVec.ofInt 32 f.imm
      (laneReady n (encI 0x28 f) s = true → ∃ t, exec (.addi n f) s = .next t ∧
        laneOnly n s t (put f.dd (a + b) (flZNCV c.fl (a + b) (addCarry a b) (addOver a b)))) ∧
      (laneReady n (encI 0x29 f) s = true → ∃ t, exec (.cmpi n f) s = .next t ∧
        laneOnly n s t (LaneCore.onward { c with fl := flZNCV c.fl (a - b) (subCarry a b) (subOver a b) } c)))

/-- The flags of a result (R284): Z, N, C and V are what the result says, and the bits that an instruction does not write stay; an addition
overflows when its operands have one sign and its sum another, a subtraction when its operands differ in sign and the result's sign is not
the minuend's; SAT stays set once it is set. Saturation and scaling (R279, R291): sat56 and sat32 give the nearest value in range; a shift
right by `scl` is within half a unit of the exact quotient, a tie going away from zero, and a shift left is exact. Pointers (R282): linear
addressing wraps at 8,192 words; a circular pointer stays in its region of LEN words from BASE, LEN 0 acting as 8,192; a bit-reversed step
adds in reversed order, and reversing twice gives the pointer back; a pointer always fits 13 bits. -/
def Obligations.LaneNumbers : Prop :=
  (∀ (fl : Nat) (a b r : Word) (c v clip : Bool),
     (flTest (flZNCV fl r c v) flZ = (r == 0) ∧ flTest (flZNCV fl r c v) flN = r.msb ∧ flTest (flZNCV fl r c v) flC = c ∧
       flTest (flZNCV fl r c v) flV = v ∧ flTest (flZNCV fl r c v) flSAT = flTest fl flSAT ∧
       flTest (flZNCV fl r c v) flEOR = flTest fl flEOR) ∧
     (flTest (flZN fl r) flZ = (r == 0) ∧ flTest (flZN fl r) flN = r.msb ∧ flTest (flZN fl r) flC = flTest fl flC ∧
       flTest (flZN fl r) flV = flTest fl flV ∧ flTest (flZN fl r) flSAT = flTest fl flSAT) ∧
     (flTest (flSat32 fl r clip) flZ = (r == 0) ∧ flTest (flSat32 fl r clip) flN = r.msb ∧ flTest (flSat32 fl r clip) flV = clip ∧
       flTest (flSat32 fl r clip) flC = flTest fl flC ∧ flTest (flSat32 fl r clip) flSAT = (clip || flTest fl flSAT)) ∧
     flTest (stickySat fl clip) flSAT = (clip || flTest fl flSAT) ∧
     addCarry a b = (a + b).ult a ∧ addOver a b = (a.msb == b.msb && (a + b).msb != a.msb) ∧
     subCarry a b = !a.ult b ∧ subOver a b = (a.msb != b.msb && (a - b).msb != a.msb) ∧
     (fl < 64 → flZNCV fl r c v < 64 ∧ flZN fl r < 64 ∧ flSat32 fl r clip < 64 ∧ stickySat fl clip < 64)) ∧
  (∀ (v : Int) (k : Nat),
     (sat56 v = if v < -(2 ^ 55) then -(2 ^ 55) else if 2 ^ 55 - 1 < v then 2 ^ 55 - 1 else v) ∧
     (sat32 v).toInt = (if v < -(2 ^ 31) then -(2 ^ 31) else if 2 ^ 31 - 1 < v then 2 ^ 31 - 1 else v) ∧
     scl v k = v * 2 ^ k ∧
     2 * (scl v (-(k : Int)) * 2 ^ k - v).natAbs ≤ 2 ^ k ∧
     (2 * (scl v (-(k : Int)) * 2 ^ k - v).natAbs = 2 ^ k → k ≠ 0 → v.natAbs < (scl v (-(k : Int)) * 2 ^ k).natAbs)) ∧
  (∀ (c : LaneCore) (p : Nat) (m : Int), c.shaped → p < 8 →
     let mode := c.ptcfg / 4 ^ p % 4
     let circular (md : Nat) : Prop :=
       ∃ d, d < mdLen md ∧ (c.newPtr p m true : Int) = (mdBase md + d) % 8192 ∧ (d - ((c.ptr p : Int) + m - mdBase md)) % mdLen md = 0
     (mode = 0 → (c.newPtr p m true : Int) = (c.ptr p + m) % 8192) ∧
     (mode = 1 → circular (c.md.getD 0 0)) ∧ (mode = 2 → circular (c.md.getD 1 0)) ∧
     (mode = 3 → (rev13 (c.newPtr p m true) : Int) = (rev13 (c.ptr p) + rev13 (m % 8192).toNat) % 8192 ∧
       (c.newPtr p m false : Int) = (c.ptr p + m) % 8192) ∧
     (∀ u, u < 8192 → rev13 u < 8192 ∧ rev13 (rev13 u) = u) ∧ c.newPtr p m true < 8192)

/-- Branches, calls, returns and loops (R284, R290, R291, R292, R294, R297). A taken BR goes to its target and ends the loops whose body it
leaves, with those nested in them: the loops that go on are the outermost ones around the target. CALL and RET push and pop the return
stack, of four entries; LOOP opens a level, of two, for its count, and a count of 0 or less skips the body. Beyond those depths each stops
the logical lane with its trap. -/
def Obligations.LaneControl : Prop :=
  ∀ (n : Fin 33) (s : State),
    let c := s.laneCore n
    let last := (s.laneOf n).prog.length
    (∀ f : FmtB, laneReady n (encB 0x2A f) s = true →
      (condHolds f.cond c.fl = true → f.tgt < last → ∃ (t : State) (out kept : List Loop), exec (.br n f) s = .next t ∧
        laneOnly n s t { c with pc := f.tgt, loops := kept } ∧ c.loops = out ++ kept ∧
        (∀ l ∈ kept, l.first ≤ f.tgt ∧ f.tgt ≤ l.last) ∧
        (∀ l, out.getLast? = some l → ¬ (l.first ≤ f.tgt ∧ f.tgt ≤ l.last))) ∧
      (condHolds f.cond c.fl = false → s.goesOn n → ∃ t, exec (.br n f) s = .next t ∧ laneOnly n s t (c.onward c))) ∧
    (∀ f : FmtB, laneReady n (encB 0x2B f) s = true →
      (c.stack.length < 4 → f.tgt < last → ∃ t, exec (.call n f) s = .next t ∧
        laneOnly n s t { c with pc := f.tgt, stack := (c.pc + 1) :: c.stack }) ∧
      (4 ≤ c.stack.length → ∃ t, exec (.call n f) s = .next t ∧ laneTrapped n 1 s t)) ∧
    (∀ f : FmtB, laneReady n (encB 0x2C f) s = true →
      (∀ r q, c.stack = r :: q → r < last → ∃ t, exec (.ret n f) s = .next t ∧ laneOnly n s t { c with pc := r, stack := q }) ∧
      (c.stack = [] → ∃ t, exec (.ret n f) s = .next t ∧ laneTrapped n 1 s t)) ∧
    (∀ f : FmtLP, f.wf = true → laneReady n (encLP 0x2D f) s = true →
      let count : Int := if f.cs = 0 then (if f.cnt = 0 then 8192 else f.cnt) else (c.dreg f.da).toInt
      (count ≤ 0 → f.last + 1 < last → ∃ t, exec (.loop n f) s = .next t ∧ laneOnly n s t { c with pc := f.last + 1 }) ∧
      (0 < count → c.loops.length < 2 → c.pc + 1 < last → ∃ (t : State) (k : Nat), exec (.loop n f) s = .next t ∧
        (k : Int) = min count (2 ^ 24) ∧
        laneOnly n s t { c with pc := c.pc + 1, loops := ⟨c.pc + 1, f.last, k⟩ :: c.loops }) ∧
      (0 < count → 2 ≤ c.loops.length → ∃ t, exec (.loop n f) s = .next t ∧ laneTrapped n 2 s t))

/-- The loop in force (R292, R294): an instruction that is not a loop's last goes on to the next address; the last of a body with iterations
left goes back to its first, with one iteration less; at the end of the last iteration the loop closes, and a loop that ends at the same
address is taken in turn. Execution past the last loaded instruction is the trap PCEND (R297), here of NOP: the lane stops at the address
past the program. -/
def Obligations.LaneFallThrough : Prop :=
  (∀ (pc : Nat) (l : Loop) (q : List Loop),
     afterLoops pc [] = (pc + 1, 0, []) ∧
     (pc ≠ l.last → (afterLoops pc (l :: q)).1 = pc + 1 ∧ (afterLoops pc (l :: q)).2.2 = l :: q) ∧
     (pc = l.last → 1 < l.left → (afterLoops pc (l :: q)).1 = l.first ∧
       (afterLoops pc (l :: q)).2.2 = { l with left := l.left - 1 } :: q) ∧
     (pc = l.last → l.left ≤ 1 → afterLoops pc (l :: q) = afterLoops pc q)) ∧
  (∀ (n : Fin 33) (s : State), laneReady n (opWord 0 0) s = true → (s.laneCore n).err = false → ¬ s.goesOn n →
     ∃ t, exec (.nop n) s = .next t ∧ keeps (.lanes :: eventParts) s t ∧ keepsRegs eventRegs s t ∧
       (t.logical (s.laneLL n)).core.trap = 3 ∧
       (t.logical (s.laneLL n)).core.pc = (afterLoops (s.laneCore n).pc (s.laneCore n).loops).1 ∧
       (t.logical (s.laneLL n)).core.d = (s.laneCore n).d ∧
       raised s t 0x0802 .fault (laneUnit n) none 0 (afterLoops (s.laneCore n).pc (s.laneCore n).loops).1 0 0)

/-- Reading a port and writing one (R287, R288, R289, R291, R293): SRD gives the next payload word, a sample word shifted left by the port's
count and saturated, or 0 past the end, to D[D] or to memory at the pointer, and EOR says that nothing is left; SWR appends D[D] or the word
at the pointer to the open record, past 16,380 words it stops the lane with OREC, and it waits while the port's DEFER bobbin has no page for
the record. Opening and closing records (R222, R233, R234, R285, R286, R288, R289, R413). SHDR on a bound port takes the next record that
its window admits: its header as the port presents it goes to D0–D3 or D4–D7, the port then stands past the record with its payload unread,
EOR says whether there is any, and every output port keeps the label and round words of the youngest record read since its SEND; the first
record of a later round of the governing fibre takes a checkpoint of that round first. With no record to read the lane waits and nothing
else moves. SEND on a bound port whose bobbin has room closes the open record: it joins the bobbin as a speculative KIND 0x4 record of the
words written, with D[D] as its first channel or zone number and the rounds of all that the lane has read, and the port is empty again; a
DEFER bobbin without room makes the lane wait. The header words of a record sent before any was read are open (assumption 95). The lane of
the temperature solution (R320, R322, R327; assumption 100): its SHDR takes the next period record of IN0, or of IN1 under DUAL, and once it
holds what it needs its SEND falls due the clocks of R322 later; the SEND, not before, writes the record of the solution to the group's
bobbin, released at once. -/
def Obligations.LaneStreams : Prop :=
  (∀ (n : Fin 33) (f : FmtT) (s : State), f.wf = true → (s.laneCore n).shaped → (s.laneCore n).ins.length = 4 → s.goesOn n →
     let c := s.laneCore n
     let p := c.ins.getD f.port emptyPort
     let o := c.outs.getD f.port emptyOut
     let sh := wordField 24 5 (wordAt (s.laneOf n).inCfg (4 * f.port))
     let wide : Int := match p.unread with
       | [] => 0
       | w :: _ => if 0 < p.samples then w.toInt * 2 ^ sh else w.toInt
     let fl := stickySat (if p.unread.length ≤ 1 then flPut c.fl flEOR true else c.fl) (clips32 wide)
     let ins := setAt c.ins f.port { p with unread := p.unread.drop 1, samples := if p.unread = [] then p.samples else p.samples - 1 }
     let moved := (c.postMod f.pt f.mod 1).pt
     let w := if f.memop = 0 then c.dreg f.d else c.mem f.mem (c.ptr f.pt)
     (laneReady n (encT 0x2E f) s = true →
       (f.memop = 0 → ∃ t, exec (.srd n f) s = .next t ∧ laneOnly n s t (LaneCore.onward
         { c with d := setAt c.d f.d (sat32 wide), ins := ins, fl := fl } c)) ∧
       (f.memop = 1 → ∃ (t : State) (c' : LaneCore), exec (.srd n f) s = .next t ∧ laneOnly n s t (c'.onward c) ∧
         c' = { c with x := c'.x, y := c'.y, pt := moved, ins := ins, fl := fl } ∧ c'.mem f.mem (c.ptr f.pt) = sat32 wide ∧
         (∀ m j, m < 2 → j < 8192 → (m ≠ f.mem ∨ j ≠ c.ptr f.pt) → c'.mem m j = c.mem m j))) ∧
     (laneReady n (encT 0x2F f) s = true →
       (o.words.length < 16380 → s.defers (s.laneOf n) f.port (o.words.length + 1) = false →
         ∃ t, exec (.swr n f) s = .next t ∧ laneOnly n s t (LaneCore.onward
           { c with outs := setAt c.outs f.port { o with words := o.words ++ [w] }, pt := if f.memop = 0 then c.pt else moved } c)) ∧
       (o.words.length < 16380 → s.defers (s.laneOf n) f.port (o.words.length + 1) = true →
         ∃ t, exec (.swr n f) s = .next t ∧ laneWaits n s t) ∧
       (16380 ≤ o.words.length → ∃ t, exec (.swr n f) s = .next t ∧ laneTrapped n 4 s t)) ∧
     (∀ b, (s.laneOf n).outBob f.port = some b → (s.laneOf n).released.getD f.port 0 ≤ o.sent → ∀ k,
       (s.defers (s.laneOf n) f.port k = true ↔ s.rd (F.GND_BCFG.POLICY b) = 1 ∧
         s.rd (F.GND_BCFG.QUOTA b) < bobPages (s.bob b) + (16 + 4 * k + 4095) / 4096))) ∧
  (∀ (n : Fin 33) (f : FmtT) (s : State) (b : Nat), f.wf = true → (s.laneCore n).shaped → (s.laneCore n).ins.length = 4 →
     (s.laneCore n).outs.length = 4 → s.goesOn n → s.solGroup n = none →
     let l := s.laneOf n
     let c := s.laneCore n
     let base := f.d / 4 * 4
     let o := c.outs.getD f.port emptyOut
     (laneReady n (encT 0x30 f) s = true → l.inBob f.port = some b →
       (s.portNext l f.port b (c.ins.getD f.port emptyPort).pos = none → ∃ t, exec (.shdr n f) s = .next t ∧ laneWaits n s t) ∧
       (∀ st, s.portNext l f.port b (c.ins.getD f.port emptyPort).pos = some st →
         let r := st.data
         let gov := s.governs l
         ∃ t, exec (.shdr n f) s = .next t ∧ keeps (.lanes :: eventParts) s t ∧
           let l' := t.logical (s.laneLL n)
           let c' := l'.core
           c'.dreg base = headerWord r ∧ c'.dreg (base + 1) = r.h1 ∧ c'.dreg (base + 2) = r.h2 ∧ c'.dreg (base + 3) = r.h3 ∧
           (∀ j, j / 4 * 4 ≠ base → c'.dreg j = c.dreg j) ∧ c'.ac = c.ac ∧ c'.pt = c.pt ∧ c'.x = c.x ∧ c'.y = c.y ∧
           c'.ins.getD f.port emptyPort = { pos := st.idx + 1, unread := r.payload, samples := sampleCount r } ∧
           (∀ k, k ≠ f.port → c'.ins.getD k emptyPort = c.ins.getD k emptyPort) ∧
           (∀ k, k < 4 → c'.outs.getD k emptyOut = (c.outs.getD k emptyOut).read r (youngest st)) ∧
           (∀ x : Fibre, c'.seen.at x.idx = max (c.seen.at x.idx) ((youngest st).at x.idx)) ∧
           c'.fl = flPut c.fl flEOR (r.payload.isEmpty || r.ns == 0) ∧
           c'.pc = (afterLoops c.pc c.loops).1 ∧ l'.wait = false ∧
           (ckDue gov (youngest st) l = false → l'.cks = l.cks ∧ c'.k = c.k) ∧
           (ckDue gov (youngest st) l = true → l'.cks.length ≤ 8 ∧
             ∃ k, l'.cks.getLast? = some ⟨(youngest st).at gov - 1, { c with k := k }⟩ ∧ c'.k = k))) ∧
     (laneReady n (encT 0x31 f) s = true → l.outBob f.port = some b → l.released.getD f.port 0 ≤ o.sent → l.bumps = [] →
       let r : Record := { kind := 4, fibre := if s.governs l = 1 then 1 else 0, pic := false, bad := false,
                           ns := o.words.length, h1 := w32 ((c.dreg f.d).toNat % 2 ^ 19),
                           h2 := if o.young = 0 then Config.openHeader (s.laneLL n) f.port o.sent 0 else o.h2,
                           h3 := if o.young = 0 then Config.openHeader (s.laneLL n) f.port o.sent 1 else o.h3,
                           payload := o.words, label := if o.young = 0 then s.tbNs else o.young - 1, born := 0 }
       let closed : OutPort := { words := [], h2 := o.h2, h3 := o.h3, tags := noTags, sent := o.sent + 1, young := 0 }
       let entry (fr : List Nat) : Stored :=
         { idx := (s.bob b).next, data := r, pages := recPages r, frames := fr, st := .spec, tags := c.seen,
           lane := some (s.laneLL n, f.port, o.sent), freed := s.now, tb := s.tbNs }
       (bobPages (s.bob b) + recPages r ≤ s.rd (F.GND_BCFG.QUOTA b) → ∃ t fr, exec (.send n f) s = .next t ∧
           keeps [.lanes, .ground, .regs] s t ∧ keepsRegs [(F.GND_BSTAT.OVRATE b).reg] s t ∧
           (t.bob b).recs = (s.bob b).recs ++ [entry fr] ∧
           (∀ j, j ≠ b → t.bob j = s.bob j) ∧
           t.laneCore n = LaneCore.onward { c with outs := setAt c.outs f.port closed } c) ∧
       (s.rd (F.GND_BCFG.POLICY b) = 1 → s.rd (F.GND_BCFG.QUOTA b) < bobPages (s.bob b) + recPages r →
         ∃ t, exec (.send n f) s = .next t ∧ laneWaits n s t) ∧
       (s.rd (F.GND_BCFG.POLICY b) ≠ 1 → s.rd (F.GND_BCFG.QUOTA b) < bobPages (s.bob b) + recPages r → b ≠ 127 →
         ∃ t fr, exec (.send n f) s = .next t ∧ keeps (.lanes :: eventParts) s t ∧ (t.bob b).recs.getLast? = some (entry fr)))) ∧
  (∀ (n : Fin 33) (f : FmtT) (s : State) (x : Fibre), s.solGroup n = some x →
     let l := s.laneOf n
     let p := l.core.ins.getD f.port emptyPort
     let d := s.dt x
     let held (g : Two (Option (Nat × Nat))) : Prop := g.a.isSome = true ∧ (s.dtsDual = true → g.b.isSome = true)
     (∀ b st, f.port < 2 → l.inBob f.port = some b → d.got.at f.port = none → s.portNext l f.port b p.pos = some st →
       let key := ((wordAt st.data.payload 6).toNat, wordField 24 8 (wordAt st.data.payload 5))
       let clocks := 600 + (if s.dtsDual then 36 else 24) * ((st.data.payload.length - 8) * 4 / 17)
       ∃ t, exec (.shdr n f) s = .next t ∧ keeps [.lanes, .dts, .ground] s t ∧ (t.dt x).got = d.got.upd f.port (some key) ∧
         (t.laneCore n).ins = setAt l.core.ins f.port { p with pos := st.idx + 1 } ∧
         (f.port = 0 ∨ d.got.a.isSome = true → (held (t.dt x).got → (t.dt x).solAt = some (s.now + (5 * clocks + 3) / 4)) ∧
           (¬ held (t.dt x).got → (t.dt x).solAt = d.solAt))) ∧
     (∀ b, l.inBob f.port = some b → d.got.at f.port = none → s.portNext l f.port b p.pos = none →
       ∃ t, exec (.shdr n f) s = .next t ∧ laneWaits n s t) ∧
     (d.solAt = none → exec (.send n f) s = .next s) ∧
     (∀ u, d.solAt = some u → s.now < u → exec (.send n f) s = .next s) ∧
     (∀ u q, d.solAt = some u → u ≤ s.now → (s.dtsDual = true → d.got.b = d.got.a) →
       d.sols.find? (fun q => some (q.k, q.m) == d.got.a) = some q →
       let b := s.rd (F.DTS_BOB.OUT (s.dtsReg x.idx))
       bobPages (s.bob b) + recPages q.data ≤ s.rd (F.GND_BCFG.QUOTA b) → ∃ t e, exec (.send n f) s = .next t ∧
         keeps [.dts, .ground, .regs] s t ∧ keepsRegs [R.DTS_LNCACT x.idx] s t ∧ (t.bob b).recs = (s.bob b).recs ++ [e] ∧
         e.data = q.data ∧ e.st = .queued ∧ (t.dt x).got = ⟨none, none⟩ ∧ (t.dt x).solAt = none))

/-- Every lane instruction keeps the shape of the cores (R279, R281, R283, R284, R295): from a state whose logical lanes all hold eight data
registers, four accumulators of 56 bits with a residue each, eight 13-bit pointers, eight 14-bit offsets and six flags, a well-formed lane
instruction leaves such a state, whatever it does; the core of an initialised lane has that shape. -/
def Obligations.LaneShapeKept : Prop :=
  (∀ x y k pos sent, (initCore x y k pos sent).shaped) ∧
  ∀ (i : Instr) (n : Fin 33) (w : Word) (s t : State), laneWord i = some (n, w) → i.wf = true →
    (∀ ll, (s.logical ll).core.shaped) → (∀ ll, ∀ k ∈ (s.logical ll).cks, k.core.shaped) → exec i s = .next t →
    (∀ ll, (t.logical ll).core.shaped) ∧ (∀ ll, ∀ k ∈ (t.logical ll).cks, k.core.shaped)

/-- Decode and encode agree over the whole lane instruction set (R290, R291): the command that a word spells has that word, and a
well-formed lane command whose word the loader admits is the command its word spells. -/
def Obligations.LaneCodeRoundTrip : Prop :=
  (∀ (n : Fin 33) (w : Word) (i : Instr), laneDecode n w = some i → laneWord i = some (n, w)) ∧
  (∀ (n : Fin 33) (w : Word) (i : Instr), laneWord i = some (n, w) → i.wf = true → encodes w = true → laneDecode n w = some i)

/-- Words that the spec writes out (R290 and its worked examples) spell the instructions that it prints beside them. -/
def Obligations.LaneExampleWords : Prop :=
  laneDecode 0 0x0C04_0480 = some (.bmpy 0 { src := 0, sb := 0, acd := 0, pa := 0, ma := 2, pb := 0, mb := 0, cp := 2, mc := 1 }) ∧
  laneDecode 0 0xB420_001D = some (.loop 0 { cs := 0, cnt := 512, da := 0, last := 0x01D }) ∧
  laneDecode 0 0xB400_F018 = some (.loop 0 { cs := 0, cnt := 15, da := 0, last := 0x018 }) ∧
  laneDecode 0 0x0404_0480 = some (.bmac 0 { src := 0, sb := 0, acd := 0, pa := 0, ma := 2, pb := 0, mb := 0, cp := 2, mc := 1 }) ∧
  laneDecode 0 0x3831_B400 = some (.sta 0 { acd := 0, acs := 0, sh := -15, mem := 1, pt := 3, mod := 1, d := 0, mask := 0 }) ∧
  laneDecode 0 0x3871_B400 = some (.sta 0 { acd := 0, acs := 1, sh := -15, mem := 1, pt := 3, mod := 1, d := 0, mask := 0 }) ∧
  laneDecode 0 0x7000_0001 = some (.addp 0 { reg := 0, imm := 1 }) ∧
  laneDecode 0 0x2622_0000 = some (.sqac 0 { src := 1, sb := 0, acd := 0, pa := 4, ma := 1, pb := 0, mb := 0, cp := 0, mc := 0 }) ∧
  laneDecode 0 0x26E2_0000 = some (.sqac 0 { src := 1, sb := 0, acd := 3, pa := 4, ma := 1, pb := 0, mb := 0, cp := 0, mc := 0 }) ∧
  laneDecode 0 0xC800_0000 = none ∧ laneDecode 0 0x0000_0001 = none

/-! ## Housekeeping and sensors (R343–R385) -/

/-- Triggers and results of the housekeeping sequences (R345–R356). The oldest delivered trigger starts a pass of each sequence that selects
it, DLY + 2 clocks after the HK edge, or latches its overrun bit while a pass runs; RGO and IGO deliver the software triggers, and the timer
its own. The monitor conversions fall due every 100 µs. A conversion shows its result 8 HK clocks after its sample, corrected by the
converter's coefficients; a photodiode's counts for the round of its launch; H32 more than 5 ‰ from its expected code is reported (R345).
The form of the correction is the model's reading (assumption 101). -/
def Obligations.HkConversions : Prop :=
  ∀ s : State,
    (∀ c tD rest, s.hk.trigs = (c, tD) :: rest → hkEdge tD ≤ s.now →
      let e := hkEdge tD
      let wantR := s.rd F.HK_RCFG.LEN ≠ 0 ∧ s.hkTable = false ∧ c ≠ 1 ∧ c ≠ 17 ∧
        (s.rd F.HK_RCFG.SRC = c ∨ c = 16 ∧ s.rd F.HK_RCFG.SRC = 1)
      let wantI := s.rd F.HK_ICFG.LEN ≠ 0 ∧ c ≠ 1 ∧ c ≠ 16 ∧ (s.rd F.HK_ICFG.SRC = c ∨ c = 17 ∧ s.rd F.HK_ICFG.SRC = 1)
      let starts (regular : Bool) (p q : State) : Prop :=
        (p.passRuns regular e = true → keeps [.regs] p q ∧ keepsRegs [R.HK_STAT] p q ∧
          q.rd (if regular then F.HK_STAT.ROVR else F.HK_STAT.IOVR) = 1) ∧
        (p.passRuns regular e = false → keeps [.hk] p q ∧
          q.hk = if regular then { p.hk with reg := p.hk.reg ++ [⟨0, e + 50 * (s.rd F.HK_RCFG.DLY + 2)⟩] }
            else { p.hk with inj := p.hk.inj ++ [⟨0, e + 50 * (s.rd F.HK_ICFG.DLY + 2)⟩] })
      ∃ u v t, keeps [.hk] s u ∧ u.hk = { s.hk with trigs := rest } ∧ exec .hkTrigger s = .next t ∧
        (wantR → starts true u v) ∧ (¬ wantR → v = u) ∧ (wantI → starts false v t) ∧ (¬ wantI → t = v)) ∧
    (∃ t, exec .rgo s = .next t ∧ keeps [.hk, .status] s t ∧ t.status = .ok ∧
      t.hk = { s.hk with trigs := s.hk.trigs ++ [(16, s.now)] }) ∧
    (∃ t, exec .igo s = .next t ∧ keeps [.hk, .status] s t ∧ t.status = .ok ∧
      t.hk = { s.hk with trigs := s.hk.trigs ++ [(17, s.now)] }) ∧
    (let due := s.hk.timerAt + max 1 (s.rd F.HK_TIMER.PERIOD) * 50
     let chosen := (s.rd F.HK_RCFG.SRC = 2 ∧ s.rd F.HK_RCFG.LEN ≠ 0) ∨ (s.rd F.HK_ICFG.SRC = 2 ∧ s.rd F.HK_ICFG.LEN ≠ 0)
     (s.now < due → exec .hkTimerExpire s = .next s) ∧
     (due ≤ s.now → ∃ t, exec .hkTimerExpire s = .next t ∧ keeps [.hk] s t ∧ t.hk.timerAt = due ∧
       (chosen → t.hk.trigs = s.hk.trigs ++ [(2, due)]) ∧ (¬ chosen → t.hk.trigs = s.hk.trigs))) ∧
    (∃ t, exec .monitorConversionDue s = .next t ∧ keeps [.hk, .sensors] s t ∧ (∀ p ∈ s.hk.placed, p ∈ t.hk.placed) ∧
      t.hk.monDue = (if s.hk.monDue ≤ s.now then s.hk.monDue + 100_000 else s.hk.monDue) ∧
      (s.hk.monDue ≤ s.now → s.rd F.HK_CTL.MONEN = 1 → ∀ k, k < 7 → (s.hk.monDue, ConvFor.monitor k) ∈ t.hk.placed) ∧
      (∀ n a, n < 8 → (s.sensor n).check = some a → (s.sensor n).placed < s.checkCount n →
        a + 62_500 * (s.sensor n).placed ≤ s.now → (a + 62_500 * (s.sensor n).placed, ConvFor.check n) ∈ t.hk.placed ∧
          t.sensor n = { s.sensor n with placed := (s.sensor n).placed + 1 })) ∧
    (∀ d : ConvData, (s.nextConv = none → exec (.conversionResult d) s = .next s) ∧
      ∀ c, s.nextConv = some c →
        let lost : Bool := match s.hk.lostAt with | some a => decide (c.sample ≤ a) | none => false
        let by_ := if c.sample < s.hk.flipAt then 1 - s.hkActive else s.hkActive
        let v : ConvData := { d with code := s.corrected by_ d.code d.ovr, idle := s.corrected (1 - by_) d.idle d.idleOvr }
        let late := decide (c.due < s.hk.swapTo ∧ s.hk.free = s.hk.swapTo) || (s.hk.discard && decide (c.due < s.hkFree))
        let q := (if lost = true ∨ s.rd F.HK_STAT.REF_OK = 0 then 16 else 1) + (if d.ovr = true ∨ d.clamp = true then 2 else 0) +
          (if s.hk.subst then 32 else 0)
        (s.now < c.sample + 400 → exec (.conversionResult d) s = .next s) ∧
        (c.sample + 400 ≤ s.now →
          (∀ x r, c.what = .photodiode x r → ∃ t, exec (.conversionResult d) s = .next t ∧ keeps [.regs, .hk, .commit] s t ∧
            t.reg (R.HK_PDRES x.idx) = resultWord v false (decide (c.due < s.hkFree)) by_ q
              (if lost then s.rdI (F.HK_PDRES.VALUE x.idx) else v.code) ∧
            (t.cmt x).rounds = (s.cmt x).rounds.map (fun i => if lost = false ∧ i.round = r then
              { i with pdSum := i.pdSum + v.code, pdCount := i.pdCount + 1 } else i)) ∧
          (c.what = .monitor 0 → ∃ t, exec (.conversionResult d) s = .next t ∧ keeps (.hk :: eventParts) s t ∧
            t.reg (R.HK_MON 0) = resultWord v false late by_ q (if lost then s.rdI (F.HK_MON.VALUE 0) else v.code) ∧
            (lost = false → 5 * s.bandgapCode.natAbs < 1000 * (v.code - s.bandgapCode).natAbs → t.rd F.HK_STAT.REFERR = 1 ∧
              reported t 0x0B02 .warn noUnit 0 0 0)) ∧
          (∀ k, c.what = .monitor k → 0 < k → k < 7 → ∃ t, exec (.conversionResult d) s = .next t ∧ keeps [.regs, .hk] s t ∧
            t.reg (R.HK_MON k) = resultWord v false late by_ q (if lost then s.rdI (F.HK_MON.VALUE k) else v.code)) ∧
          (∀ k, c.what = .regular k ∨ c.what = .injected k ∨ c.what = .table k → k < 40 → 8 ≤ c.input → c.input < 24 →
            s.hk.eyelet = none → s.hk.eyeTail.contains c.input = false → s.hk.calSlots.contains k = false → ∃ t, exec (.conversionResult d) s = .next t ∧
            t.reg (R.HK_RES k) = resultWord v false late by_ q (if lost then s.rdI (F.HK_RES.VALUE k) else v.code)) ∧
          (∀ n, c.what = .check n → n < 8 → ∃ t, exec (.conversionResult d) s = .next t ∧ keeps [.regs, .hk, .sensors] s t ∧
            (t.sensor n).taken = (s.sensor n).taken + 1 ∧ ∀ j, j ≠ n → t.sensor j = s.sensor j)))

/-- Redundancy and calibration of the housekeeping converters (R344, R355–R359). The reference settles after 2 ms, 200 µs within range, or
10 µs, by its source. A failed idle converter is fenced and tested; a failed active one hands over to an idle one that is usable.
HK_CAL.START is BUSY with RESULT 5 while a calibration runs and with 3 without a usable idle converter, except for an intrusive one. A
calibration that passes gives its converter its coefficients, and one that fails fences it. The READY converter becomes active at a sequence
boundary. -/
def Obligations.HkConverters : Prop :=
  ∀ s : State,
    (∀ inRange : Nat,
      let settled := (s.rd F.HK_CTL.REFSEL = 0 → s.hk.refFrom + 2_000_000 ≤ s.now) ∧
        (s.rd F.HK_CTL.REFSEL = 1 → 200_000 ≤ inRange ∧ s.hk.refFrom ≤ s.now) ∧
        (2 ≤ s.rd F.HK_CTL.REFSEL → s.hk.refFrom + 10_000 ≤ s.now)
      (settled → ∃ t, exec (.refSettled inRange) s = .next t ∧ keeps [.regs] s t ∧ keepsRegs [R.HK_STAT] s t ∧
        t.rd F.HK_STAT.REF_OK = 1) ∧ (¬ settled → exec (.refSettled inRange) s = .next s)) ∧
    (∀ c : Fin 2,
      let usable := s.idleSt = 0 ∨ s.idleSt = 1 ∨ s.idleSt = 2
      (c.val ≠ s.hkActive → usable → ∃ t, exec (.hkConverterFault c) s = .next t ∧ keeps (.hk :: eventParts) s t ∧ t.idleSt = 4 ∧
        t.hkActive = s.hkActive ∧
        t.hk = { s.hk with testAt := some s.now, calAt := if s.hk.calIntr then s.hk.calAt else none } ∧ raised s t 0x0B01 .fault (0x50 + c) none 0 0 0 0) ∧
      (c.val ≠ s.hkActive → s.idleSt = 3 ∨ s.idleSt = 4 → exec (.hkConverterFault c) s = .next s) ∧
      (c.val = s.hkActive → ∃ t, exec (.hkConverterFault c) s = .next t ∧ keeps (.hk :: eventParts) s t ∧
        t.hk.lostAt = some s.now ∧ raised s t 0x0B01 .fault (0x50 + c) none 0 0 0 0 ∧
        (usable → t.idleSt = 4 ∧ t.hkActive = 1 - c.val ∧ t.hk.flipAt = s.now ∧ t.hk.testAt = some s.now ∧ t.hk.subst = true) ∧
        (s.idleSt = 3 ∨ s.idleSt = 4 → t.idleSt = s.idleSt ∧ t.hkActive = c.val))) ∧
    (∀ intr : Bool,
      let busy := s.idleSt = 1 ∨ (s.hk.calIntr = true ∧ s.hk.calAt.isSome = true)
      ∃ t, exec (.hkCalStart intr) s = .next t ∧ keeps [.regs, .hk, .status] s t ∧ keepsRegs [R.HK_CAL, R.HK_STAT] s t ∧
        t.rd F.HK_CAL.INTRUSIVE = (if t.status = .ok then intr.toNat else s.rd F.HK_CAL.INTRUSIVE) ∧
        (busy → t.status = .busy ∧ t.rd F.HK_CAL.RESULT = 5 ∧ t.hk = s.hk) ∧
        (¬ busy → s.idleSt = 3 ∨ s.idleSt = 4 → intr = false → t.status = .busy ∧ t.rd F.HK_CAL.RESULT = 3 ∧ t.hk = s.hk) ∧
        (¬ busy → s.idleSt = 3 ∨ s.idleSt = 4 → intr = true → t.status = .ok ∧ t.idleSt = s.idleSt ∧
          t.hk = { s.hk with calAt := some s.now, calIntr := true, free := max s.hk.free (hkEdge s.now) + 2_000_000 }) ∧
        (s.idleSt = 0 ∨ s.idleSt = 2 → ¬ busy → t.status = .ok ∧ t.idleSt = 1 ∧
          t.hk = { s.hk with calAt := some s.now, calIntr := false, mismatch := 0 })) ∧
    (let aged := s.rd F.HK_CAL.PER ≠ 0 ∧ s.hk.lastCal + s.rd F.HK_CAL.PER * 60_000_000_000 ≤ s.now
     let warm := ∃ d, s.dieTemp = some d ∧ s.rd F.HK_CAL.DT ≠ 0 ∧ 100 * s.rd F.HK_CAL.DT ≤ (d - s.hk.calTemp).natAbs
     (s.rd F.HK_CAL.AUTOCAL = 1 → s.idleSt = 0 → (aged ∨ warm) → ∃ t, exec .hkAutocalRequest s = .next t ∧ keeps [.regs, .hk] s t ∧
       keepsRegs [R.HK_STAT] s t ∧ t.idleSt = 1 ∧ t.hk = { s.hk with calAt := some s.now, calIntr := false, mismatch := 0 }) ∧
     (s.rd F.HK_CAL.AUTOCAL = 0 ∨ s.idleSt ≠ 0 ∨ ¬ (aged ∨ warm) → exec .hkAutocalRequest s = .next s)) ∧
    (∀ (pass : Bool) (gain : Fin 65536) (ofs : Int),
      let go := Instr.hkCalComplete pass gain ofs
      let has (t : State) (c : Nat) : Prop :=
        (c = 0 → t.rd F.HK_COEF_A.GAIN = gain ∧ t.rd F.HK_COEF_A.OFS = unsgn 16 ofs) ∧
        (c ≠ 0 → t.rd F.HK_COEF_B.GAIN = gain ∧ t.rd F.HK_COEF_B.OFS = unsgn 16 ofs)
      (∀ a, s.hk.calAt = some a → s.now < a + 2_000_000 → exec go s = .next s) ∧
      (∀ a, s.hk.calAt = some a → a + 2_000_000 ≤ s.now → ∃ t, exec go s = .next t ∧ keeps (.hk :: eventParts) s t ∧
        t.hk.calAt = none ∧ t.hk.calIntr = false ∧ t.hk.lastCal = s.now ∧ t.hkActive = s.hkActive ∧
        (s.hk.calIntr = false → pass = true → has t (1 - s.hkActive) ∧ t.idleSt = 2 ∧ t.rd F.HK_CAL.RESULT = 2) ∧
        (s.hk.calIntr = false → pass = false → t.idleSt = 3 ∧ t.rd F.HK_CAL.RESULT = 4 ∧
          reported t 0x0B01 .fault (0x50 + (1 - s.hkActive)) 0 0 0) ∧
        (s.hk.calIntr = true → pass = true → has t s.hkActive ∧ t.idleSt = s.idleSt ∧ t.rd F.HK_CAL.RESULT = 6 ∧
          t.hk.calSlots = List.range 40) ∧
        (s.hk.calIntr = true → pass = false → t.idleSt = s.idleSt ∧ t.rd F.HK_CAL.RESULT = 4)) ∧
      (∀ a, s.hk.calAt = none → s.hk.testAt = some a → a + 2_000_000 ≤ s.now → ∃ t, exec go s = .next t ∧
        keeps (.hk :: eventParts) s t ∧ t.hk.testAt = none ∧
        (pass = true → s.unitHeld (0x50 + (1 - s.hkActive)) = false → t.idleSt = 0 ∧ has t (1 - s.hkActive)) ∧
        (pass = false → t.idleSt = 3)) ∧
      (s.hk.calAt = none → s.hk.testAt = none → exec go s = .next s)) ∧
    (let want := s.idleSt = 2 ∨ (s.hk.resetReq = true ∧ s.idleSt = 0)
     (want → s.hkBoundary = true → ∃ t, exec .hkSwap s = .next t ∧ keeps [.regs, .hk] s t ∧ keepsRegs [R.HK_STAT, R.HK_CAL] s t ∧
       t.hkActive = 1 - s.hkActive ∧ t.rd F.HK_CAL.RESULT = 1 ∧ t.hk.calSlots = List.range 40 ∧ t.hk.resetReq = false ∧
       t.hk.free = max s.hk.free (hkEdge s.now) + 100 ∧ t.idleSt = (if s.hk.resetReq then 1 else 0)) ∧
     (¬ want ∨ s.hkBoundary = false → exec .hkSwap s = .next s))

/-- Tests of inputs and the sensor channels (R361, R363–R367). HK_TEST.GO tests an input that some sequence converts, BUSY while one runs,
REFUSED for another; the rotation takes the least testable input not before its place. A write of SEN_EXC that changes an excitation
discards the next 16 conversions of the channel. A check begins for an enabled channel as it falls due, the first whatever CHKPER (the
model's reading, assumption 102); it ends after 5 ms with ZMEAS, and RMEAS of a 3-wire channel, which its next 16 conversions follow ERASED,
and an impedance outside its limits, or a clipped conversion, is a fault of the channel. -/
def Obligations.HkTestsAndSensors : Prop :=
  ∀ s : State,
    let begun (t : State) (k : Nat) : Prop := t.rd F.HK_TEST.BUSY = 1 ∧ t.hk.lastTest = s.now ∧
      t.hk.eyelet = some { input := k, pre := 0, taken := 0, bad := false } ∧ (s.now, ConvFor.eyelet) ∈ t.hk.placed
    (∀ k : Fin 64, ∃ t, exec (.hkTestGo k) s = .next t ∧ keeps [.regs, .hk, .status] s t ∧ keepsRegs [R.HK_TEST] s t ∧
      (s.rd F.HK_TEST.BUSY = 1 → t.status = .busy ∧ t.hk = s.hk ∧ t.regs = s.regs) ∧
      (s.rd F.HK_TEST.BUSY = 0 → k.val ∉ s.testable → t.status = .refused ∧ t.hk = s.hk ∧ t.regs = s.regs) ∧
      (s.rd F.HK_TEST.BUSY = 0 → k.val ∈ s.testable → t.status = .ok ∧ t.rd F.HK_TEST.INPUT = k ∧ begun t k)) ∧
    (let due := s.rd F.HK_TEST.TPER ≠ 0 ∧ s.rd F.HK_TEST.BUSY = 0 ∧ s.hk.lastTest + s.rd F.HK_TEST.TPER * 10_000_000 ≤ s.now
     (due → s.testable ≠ [] → ∃ t k, exec .hkTestAuto s = .next t ∧ keeps [.regs, .hk] s t ∧ keepsRegs [R.HK_TEST] s t ∧
       k ∈ s.testable ∧ begun t k ∧ t.hk.rotate = (k + 1) % 32 ∧
       (∀ j ∈ s.testable, s.hk.rotate ≤ j → s.hk.rotate ≤ k ∧ k ≤ j)) ∧
     (¬ due ∨ s.testable = [] → exec .hkTestAuto s = .next s)) ∧
    (∀ (n : Fin 8) (w : Word),
      let same := wordField 11 1 w = s.rd (F.SEN_EXC.EXON n) ∧ wordField 8 3 w = s.rd (F.SEN_EXC.GAIN n) ∧
        wordField 3 1 w = s.rd (F.SEN_EXC.POL n) ∧ wordField 0 3 w = s.rd (F.SEN_EXC.ISEL n)
      ∃ t, exec (.senExcWrite n w) s = .next t ∧ t.status = .ok ∧
        t.rd (F.SEN_EXC.EXON n) = wordField 11 1 w ∧ t.rd (F.SEN_EXC.GAIN n) = wordField 8 3 w ∧
        t.rd (F.SEN_EXC.POL n) = wordField 3 1 w ∧ t.rd (F.SEN_EXC.ISEL n) = wordField 0 3 w ∧
        (same → keeps [.regs, .status] s t ∧ keepsRegs [] s t) ∧
        (¬ same → t.rd (F.SEN_STAT.DISC n) = 1 ∧
          t.sensor n = { s.sensor n with discard := 16, from_ := hkEdge (s.now + 1), kept := none } ∧
          (∀ j, j ≠ n.val → t.sensor j = s.sensor j) ∧
          (s.rd (F.SEN_EXC.EXON n) = 0 → wordField 11 1 w = 1 → t.rd (F.SEN_STAT.PROV n) = 1))) ∧
    (∀ n : Fin 8,
      let v := s.sensor n
      let per := s.rd F.SEN_CHK.CHKPER
      let due := (∃ a, v.first = some a ∧ a ≤ s.now) ∨ (per ≠ 0 ∧ ∃ a, v.due = some a ∧ a ≤ s.now)
      let may := v.check = none ∧ s.rd (F.SEN_CFG.EN n) = 1 ∧ s.rd (F.SEN_CFG.CHKEN n) = 1
      (may → due → ∃ t, exec (.sensorCheckStart n) s = .next t ∧ keeps [.regs, .sensors] s t ∧ keepsRegs [R.SEN_STAT n] s t ∧
        t.rd (F.SEN_STAT.CHK n) = 1 ∧
        (∀ a, v.first = some a → a ≤ s.now → (t.sensor n).check = some a ∧ (t.sensor n).first = none) ∧
        ((∀ a, v.first = some a → s.now < a) → (t.sensor n).check = v.due ∧ (t.sensor n).first = v.first) ∧
        (t.sensor n).placed = 0 ∧ (t.sensor n).taken = 0 ∧
        (∀ j, j ≠ n.val → t.sensor j = s.sensor j)) ∧
      (¬ may ∨ ¬ due → exec (.sensorCheckStart n) s = .next s)) ∧
    (∀ (n : Fin 8) (a : Nat), (s.sensor n).check = some a → a + 5_000_000 ≤ s.now → s.checkCount n ≤ (s.sensor n).taken →
      let v := s.sensor n
      let z := satN 16 (max 0 (rndRat (2 * s.sensedOhms n (v.hi - v.lo) / 32))).toNat
      let rm := satN 16 (max 0 (rndRat (1000 * s.sensedOhms n v.lead / 16))).toNat
      let bad := z < s.rd (F.SEN_ZLIM.ZMIN n) ∨ s.rd (F.SEN_ZLIM.ZMAX n) < z ∨ v.clipped = true
      ∃ t, exec (.sensorCheckEnd n) s = .next t ∧ keeps (.sensors :: eventParts) s t ∧
        keepsRegs (R.SEN_STAT n :: R.SEN_LEAD n :: eventRegs) s t ∧ (t.sensor n).check = none ∧
        (t.sensor n).erase = 16 ∧ t.rd (F.SEN_STAT.CHK n) = 0 ∧ t.rd (F.SEN_STAT.ZMEAS n) = z ∧
        t.rd (F.SEN_LEAD.RMEAS n) = (if s.rd (F.SEN_CFG.WIRE n) = 1 then rm else s.rd (F.SEN_LEAD.RMEAS n)) ∧
        t.rd (F.SEN_STAT.PROV n) = (if s.rd (F.SEN_CFG.WIRE n) = 1 ∧ v.kept.isSome = true then 0 else s.rd (F.SEN_STAT.PROV n)) ∧
        (bad → t.rd (F.SEN_STAT.IMPF n) = 1 ∧ raised s t 0x0C01 .warn noUnit none 0 n 0 0) ∧
        (¬ bad → t.rd (F.SEN_STAT.IMPF n) = s.rd (F.SEN_STAT.IMPF n)))

/-! ## Zone alarms and loops (R386–R397) -/

/-- Zones and loops (R386–R390, R392, R393, R397). The sources' released records come in the order of their release, the lower slot first on
one clock, from 32 FAB clocks after it on. Each word of a KIND 0x4 record gives its zone its level, one per FAB clock, and the zone's state
by the thresholds, the counts and the latch of its class; V = 0, a disabled zone, an idle fibre or channels beyond NCH_ACT make it INVALID,
as does the lack of a report. A record of another kind is passed over. Afterwards every loop output and both alert sources follow the zones.
LOOP_ACK clears latches, and a write of LOOP_CUR1 may change FIX alone. -/
def Obligations.ZonesAndLoops : Prop :=
  ∀ s : State,
    let follow (t : State) : Prop := ∀ n, n < 8 → t.rd (F.LOOP_STAT.WORST n) = t.loopWorst n ∧ t.rd (F.LOOP_STAT.NOW n) = t.loopCode n ∧
      (t.rd (F.LOOP_STAT.NOW n) ≠ s.rd (F.LOOP_STAT.NOW n) → (t.readback n).changed = some s.now)
    (∀ (k : Fin 4) (b pos : Nat) (r : Stored), s.alarmBob k = some b → s.readerPos b (.alarmSlot k) = some pos →
      nextRecord (s.bob b) pos false = some r →
      let first := ∀ j b' q, j < 4 → s.alarmNext j = some (b', q) → r.freed < q.freed ∨ (r.freed = q.freed ∧ k.val ≤ j)
      (s.now < r.freed + 80 ∨ ¬ first → exec (.zoneReport k) s = .next s) ∧
      (r.freed + 80 ≤ s.now → first → ∃ t, exec (.zoneReport k) s = .next t ∧
        (r.data.kind ≠ 4 → keeps [.ground] s t) ∧
        (r.data.kind = 4 → follow t ∧ ∀ i w, r.data.payload[i]? = some w → r.data.h1.toNat + i < 1024 →
          let z := r.data.h1.toNat + i
          let c := s.zoneClass z
          let l := wordField 0 16 w
          let at_ := r.freed + 80 + 5 * i / 2
          let was := if (s.zone z).at_ + s.rd (F.LOOP_CTIM.TMO c) * 1_000_000 < at_ then 3 else s.zoneState z
          let st := if was = 3 then (if s.rd (F.LOOP_ZST.LATCHED z) = 1 then 2 else 0) else was
          let up := if was = 3 then 0 else (s.zone z).up
          let dn := if was = 3 then 0 else (s.zone z).dn
          let cand := s.zoneLevel c l true
          let keep := if s.rd (F.LOOP_ZST.LATCHED z) = 1 then 2 else s.zoneLevel c l false
          let valid := wordField 31 1 w = 1 ∧ s.rd (F.LOOP_ZCFG0.EN z) = 1 ∧ s.rd (F.CMT_STAT.STATE (s.zoneFibre z).idx) ≠ 0 ∧
            s.rd (F.LOOP_ZCFG0.FIRST z) + s.rd (F.LOOP_ZCFG1.COUNT z) ≤ s.rd (F.SHOT_GSTAT.NCH_ACT (s.zoneFibre z).idx)
          let goes (q u d : Nat) : Prop := t.zoneState z = q ∧ t.zone z = { up := u, dn := d, at_ := at_ } ∧
            (q = 2 → s.rd (F.LOOP_CTIM.LATCH c) = 1 → t.rd (F.LOOP_ZST.LATCHED z) = 1) ∧
            (q ≠ 2 ∨ s.rd (F.LOOP_CTIM.LATCH c) ≠ 1 → t.rd (F.LOOP_ZST.LATCHED z) = s.rd (F.LOOP_ZST.LATCHED z))
          t.rd (F.LOOP_ZST.LEVEL z) = l ∧ (t.zone z).at_ = at_ ∧
          (¬ valid → t.zoneState z = 3) ∧
          (valid → st < cand → s.rd (F.LOOP_CTIM.ON_CNT c) ≤ up + 1 → goes cand 0 0) ∧
          (valid → st < cand → up + 1 < s.rd (F.LOOP_CTIM.ON_CNT c) → goes st (up + 1) 0) ∧
          (valid → cand ≤ st → keep < st → s.rd (F.LOOP_CTIM.OFF_CNT c) ≤ dn + 1 → goes keep 0 0) ∧
          (valid → cand ≤ st → keep < st → dn + 1 < s.rd (F.LOOP_CTIM.OFF_CNT c) → goes st 0 (dn + 1)) ∧
          (valid → cand ≤ st → st ≤ keep → goes st 0 0)))) ∧
    (∀ z : Fin 1024,
      let overs := s.rd (F.LOOP_ZCFG0.EN z) = 1 ∧ s.zoneState z ≠ 3 ∧
        (s.zone z).at_ + s.rd (F.LOOP_CTIM.TMO (s.zoneClass z)) * 1_000_000 ≤ s.now
      (overs → ∃ t, exec (.zoneTimeout z) s = .next t ∧ keeps [.regs, .alarm] s t ∧ t.zoneState z = 3 ∧ follow t ∧
        (∀ y, y < 1024 → y ≠ z.val → t.zoneState y = s.zoneState y) ∧
        (t.rd F.LOOP_ALERT.ZACT = 1 ↔ ∃ y, y < 1024 ∧ s.rd (F.LOOP_ZCFG0.EN y) = 1 ∧ t.zoneState y = 2 ∧
          s.rd (F.LOOP_CTIM.ALERT (s.zoneClass y)) = 1) ∧
        (t.rd F.LOOP_ALERT.LPACT = 1 ↔ ∃ n, n < 8 ∧ (s.rd (F.LOOP_STAT.OPEN n) = 1 ∨ s.rd (F.LOOP_STAT.DEV n) = 1))) ∧
      (¬ overs → exec (.zoneTimeout z) s = .next s)) ∧
    (let z := s.rd F.LOOP_ZIDX.INDEX
     ∃ t, exec .loopAckOne s = .next t ∧ keeps [.regs, .status] s t ∧ keepsRegs [R.LOOP_ZST z] s t ∧ t.status = .ok ∧
       t.rd (F.LOOP_ZST.LATCHED z) = 0 ∧ t.zoneState z = s.zoneState z ∧ t.rd (F.LOOP_ZST.LEVEL z) = s.rd (F.LOOP_ZST.LEVEL z)) ∧
    (∃ t, exec .loopAckAll s = .next t ∧ keeps [.regs, .status] s t ∧ t.status = .ok ∧
      (∀ z, z < 1024 → t.rd (F.LOOP_ZST.LATCHED z) = 0 ∧ t.zoneState z = s.zoneState z) ∧
      (∀ k, (∀ z, z < 1024 → k ≠ R.LOOP_ZST z) → t.reg k = s.reg k)) ∧
    (∀ (n : Fin 8) (w : Word),
      (wordField 0 16 w ≠ s.rd (F.LOOP_CUR1.I_A n) → exec (.loopFixWrite n w) s = .next (s.answer .denied)) ∧
      (wordField 0 16 w = s.rd (F.LOOP_CUR1.I_A n) → ∃ t, exec (.loopFixWrite n w) s = .next t ∧ keeps [.regs, .alarm, .status] s t ∧
        keepsRegs [R.LOOP_CUR1 n, R.LOOP_STAT n] s t ∧ t.status = .ok ∧ t.rd (F.LOOP_CUR1.FIX n) = wordField 16 16 w ∧
        t.rd (F.LOOP_STAT.NOW n) = t.loopCode n ∧
        (t.rd (F.LOOP_STAT.NOW n) ≠ s.rd (F.LOOP_STAT.NOW n) → (t.readback n).changed = some s.now)))

/-! ## Network ports, PTP and streams (R41, R467–R490) -/

/-- Links and protection (R41, R468–R474, R487). A link comes up and goes down with its MKA state, LINKDN and the event 0x1001, both with
NET_LOCK. A port's transmitter sends one frame at a time as the line is free, one that is no stream's first, under its PN and its VLAN's
tag. A received frame that fails the port's rules is counted in NET_PDROP, one that fails its protection in NET_PMSEC, one with a bad UDP
checksum is dropped, and an accepted one is counted and waits in its queue. The key server, of the lower priority value and then the lower
SCI, installs and distributes SAKs as the DRBG allows; the other end installs what it receives. -/
def Obligations.LinksAndProtection : Prop :=
  ∀ (s : State) (p : Fin 2),
    let v := (s.port p).sec
    let start := if s.msec p = 2 then 1 else 0
    (s.rd F.CLK_STAT.NET_LOCK = 1 → ∃ t, exec .netPllLockLost s = .next t ∧ keeps (.net :: eventParts) s t ∧ t.rd F.CLK_STAT.NET_LOCK = 0 ∧
      t.rd F.CLK_STAT.NET_LOST = 1 ∧ t.linkUp p = false ∧ (s.linkUp p = true → t.rd (F.NET_PSTAT.LINKDN p) = 1) ∧
      raised s t 0x0101 .warn noUnit none 0 0 0 0) ∧
    (s.rd F.CLK_STAT.NET_LOCK = 0 → exec .netPllLockLost s = .next s) ∧
    (∀ (held : Nat) (fec : Bool),
      let may := s.rd (F.NET_PCFG.EN p) = 1 ∧ s.linkUp p = false ∧ s.rd F.CLK_STAT.NET_LOCK = 1 ∧ 1_000_000 ≤ held ∧
        (s.rd (F.NET_PCFG.FEC p) = 1 → fec = true)
      (may → ∃ t, exec (.linkUp p held fec) s = .next t ∧ keeps (.net :: eventParts) s t ∧ t.linkUp p = true ∧
        t.rd (F.NET_PSTAT.FECLOCK p) = s.rd (F.NET_PCFG.FEC p) ∧ t.rd (F.NET_PSTAT.MKA p) = start ∧
        (t.port p).sec.hello = s.now ∧ raised s t 0x1001 .clear noUnit none 0 p 1 0) ∧
      (¬ may → exec (.linkUp p held fec) s = .next s)) ∧
    (s.linkUp p = true → ∃ t, exec (.linkDown p) s = .next t ∧ keeps (.net :: eventParts) s t ∧ t.linkUp p = false ∧
      t.rd (F.NET_PSTAT.LINKDN p) = 1 ∧ t.rd (F.NET_PSTAT.MKA p) = start ∧ (t.port p).txq = [] ∧ (s.msec p = 2 → (t.port p).sec.saks = []) ∧
      raised s t 0x1001 .warn noUnit none 0 p 0 0) ∧
    (s.linkUp p = false → exec (.linkDown p) s = .next s) ∧
    (∀ w, s.mayCarry p w = true ↔ s.maySend p w) ∧
    (s.now < (s.port p).txAt ∨ (s.port p).txq = [] → lineClock p s = s) ∧
    ((s.port p).txAt ≤ s.now → (s.port p).txq ≠ [] → ∃ i w, (i, w) ∈ (s.port p).txq ∧
      ((∃ f ∈ (s.port p).txq, f.1 = none) → i = none) ∧
      let t := lineClock p s
      keeps [.net, .regs] s t ∧ (t.port p).txq = (s.port p).txq.erase (i, w) ∧
      (s.mayCarry p w = false → t.net.sent = s.net.sent ∧ keepsRegs [] s t) ∧
      (s.mayCarry p w = true → t.net.sent = s.net.sent ++ [s.frameOf p w] ∧ counted (F.NET_PTX.COUNT p) s t ∧
        keepsRegs [R.NET_PTX p] s t ∧ (t.port p).txAt = max (s.port p).txAt (s.now - 3) + s.lineNs p w ∧
        (t.port p).sec.txPn = v.txPn + (if (s.frameOf p w).pn.isSome then 1 else 0) ∧
        (∀ k, w = .delayReq k → t.net.ptp.req = some (k, (s.tbNs : Int))))) ∧
    (∀ f : RxFrame,
      let go := Instr.frameReceive p f
      let up := s.rd (F.NET_PCFG.EN p) = 1 ∧ s.linkUp p = true
      let refused := f.fcs = false ∨ (s.rd (F.NET_PVLAN.VLAN p) = 1 ∧ f.vid ≠ some (s.rd (F.NET_PVLAN.VID p))) ∨
        s.rd (F.NET_PCFG.MTU p) < f.len ∨ f.body = .pause ∨ (s.msec p = 0 ∧ f.sec.isSome = true)
      let plain := s.msec p = 0 ∨ isEapol f.body = true
      let safe := (plain → f.sec = none) ∧ (¬ plain → s.secured p = true ∧ ∃ g, f.sec = some g ∧ g.icv = true ∧
        (∃ k ∈ v.saks, k.1 = g.an) ∧ ((v.rxPn.find? (fun r => r.1 == g.an)).map (·.2)).getD 1 ≤ g.pn + (s.port p).window)
      (¬ up → exec go s = .next s) ∧
      (up → refused → ∃ t, exec go s = .next t ∧ keeps [.regs] s t ∧ keepsRegs [R.NET_PDROP p] s t ∧
        counted (F.NET_PDROP.COUNT p) s t) ∧
      (up → ¬ refused → ¬ safe → ∃ t, exec go s = .next t ∧ keeps [.regs] s t ∧ keepsRegs [R.NET_PMSEC p] s t ∧
        counted (F.NET_PMSEC.COUNT p) s t) ∧
      (up → ¬ refused → safe → badSum f.body = true → ∃ t, exec go s = .next t ∧ keeps [.net] s t) ∧
      (up → ¬ refused → safe → badSum f.body = false →
        let taken (t : State) : Prop := exec go s = .next t ∧ keeps [.net, .regs] s t ∧ counted (F.NET_PRX.COUNT p) s t
        (∀ m, f.body = .mka m → s.msec p = 2 → ∃ t, taken t ∧ (t.port p).mkaIn = (s.port p).mkaIn ++ [m]) ∧
        (∀ m, f.body = .arp m → (s.port p).ip4.isSome = true → ∃ t, taken t ∧ (t.port p).arpIn = (s.port p).arpIn ++ [m]) ∧
        (∀ m, f.body = .neighbour m → (s.port p).ip6.isSome = true → ∃ t, taken t ∧ (t.port p).ndIn = (s.port p).ndIn ++ [m]) ∧
        (∀ dst m, f.body = .echo true dst m → s.ownAddr p m.v6 dst = true → ∃ t, taken t ∧
          (t.port p).echoIn = (s.port p).echoIn ++ [m]) ∧
        (∀ sum m, f.body = .ptp true sum m → s.ptpPort = some p.val → m.transport = s.rd F.NET_PTPCFG.TRANSPORT → ∃ t, taken t ∧
          (t.port p).ptpIn = (s.port p).ptpIn ++ [m]) ∧
        (∀ v6 src dst sport dport sum m, f.body = .udp v6 true src dst sport dport sum m → s.rd F.NET_MGMT.EN = 1 →
          dport = s.rd F.NET_MGMT.PORT → s.ownAddr p v6 dst = true → ∃ t, taken t ∧
            (s.rd F.NET_MGMT.ACLEN = 0 → dgGood m = true → s.net.queue.length < 16 →
              t.net.queue = s.net.queue ++ [{ port := p, v6 := v6, src := src, sport := sport, bytes := m }]) ∧
            (s.rd F.NET_MGMT.ACLEN = 0 → dgGood m = true → 16 ≤ s.net.queue.length → t.net.queue = s.net.queue ∧
              counted F.NET_MGMTSTAT.QDROP s t)) ∧
        (f.body = .other → ∃ t, exec go s = .next t ∧ keeps [.net, .regs] s t ∧ counted (F.NET_PDROP.COUNT p) s t))) ∧
    (s.msec p = 1 → s.rd (F.NET_PSTAT.PNEXH p) = 0 → 2 ^ 64 - 2 ^ 20 ≤ v.txPn → ∃ t, exec (.pnExhausted p) s = .next t ∧
      keeps eventParts s t ∧ t.rd (F.NET_PSTAT.PNEXH p) = 1 ∧ raised s t 0x1001 .warn noUnit none 0 p 2 0) ∧
    (let fresh (s t : State) (an : Nat) : Prop := keeps [.net, .regs, .fresh, .secu] s t ∧
       (s.rd F.SEC_STAT.DRBGERR = 1 → t.rd (F.NET_PSTAT.MKA p) = 3) ∧
       (s.rd F.SEC_STAT.DRBGERR = 0 → ∃ key, (an, key) ∈ (t.port p).sec.saks ∧ t.rd (F.NET_PSTAT.AN p) = an ∧
         t.rd (F.NET_PSTAT.MKA p) = 2 ∧ (t.port p).sec.txPn = 1 ∧ sends p (mkpdu s p (some (an, key))) s t)
     let next := if v.saks = [] then 0 else (s.rd (F.NET_PSTAT.AN p) + 1) % 4
     (∀ m q, (s.port p).mkaIn = m :: q →
       let mine := v.priority < m.priority ∨ (v.priority = m.priority ∧ s.sci p < m.sci)
       ∃ t, exec (.mkaFrame p) s = .next t ∧ keeps [.net, .regs, .fresh, .secu] s t ∧ (t.port p).mkaIn = q ∧
         (s.msec p ≠ 2 ∨ m.valid = false → keeps [.net] s t ∧ (t.port p).sec = v) ∧
         (s.msec p = 2 → m.valid = true → (t.port p).sec.lastSeen = some s.now ∧
           ((t.port p).sec.server = true ↔ mine) ∧
           (mine → s.rd (F.NET_PSTAT.MKA p) = 2 → keeps [.net] s t ∧ (t.port p).sec.saks = v.saks) ∧
           (mine → s.rd (F.NET_PSTAT.MKA p) ≠ 2 → fresh s t next) ∧
           (¬ mine → m.sak = none → keeps [.net] s t ∧ (t.port p).sec.saks = v.saks) ∧
           (∀ an key, ¬ mine → m.sak = some (an, key) → (an % 4, key) ∈ (t.port p).sec.saks ∧ (t.port p).sec.saks.length ≤ 2 ∧
             t.rd (F.NET_PSTAT.AN p) = an % 4 ∧ t.rd (F.NET_PSTAT.MKA p) = 2))) ∧
     (s.msec p = 2 → v.server = true → s.rd (F.NET_PSTAT.MKA p) = 2 →
       (if s.rd (F.NET_PCFG.SUITE p) = 1 then 2 ^ 62 else 0xC000_0000) ≤ v.txPn → ∃ t, exec (.sakRekey p) s = .next t ∧ fresh s t next)) ∧
    (s.msec p = 2 → s.linkUp p = true → v.hello ≤ s.now → ∃ t, exec (.mkaHello p) s = .next t ∧ keeps [.net, .regs] s t ∧
      (t.port p).sec.hello = s.now + 2_000_000_000 ∧ sends p (mkpdu s p none) s t) ∧
    (∀ a, v.lastSeen = some a → s.msec p = 2 → a + 6_000_000_000 ≤ s.now → ∃ t, exec (.mkaLifeTimeout p) s = .next t ∧
      keeps [.net, .regs] s t ∧ t.rd (F.NET_PSTAT.MKA p) = 1 ∧ (t.port p).sec.saks = [] ∧ (t.port p).sec.server = false)

/-- Next hops and PTP (R46, R475, R476, R489, R490). An ARP or neighbour message teaches the port the sender's MAC where it asked for it,
what waited for that hop goes to the transmitter, and a request for the port's own address is answered; of the echo requests, 100 in a
second. Next hops are asked for again after 60 s, and count as unresolved after 3 s without an answer, when what waited for them is lost
(that a datagram waits for its hop is the model's choice, assumption 107). The ordinary clock follows the best qualified master; a Sync,
with its Follow_Up where it has two steps, and the delay that Delay_Resp gives make an offset for the servo. -/
def Obligations.HopsAndPtp : Prop :=
  ∀ (s : State) (p : Fin 2),
    let queued (l : List Out) (t : State) : Prop := (t.port p).txq = (s.port p).txq ++ (l.filter (s.mayCarry p)).map (fun w => (none, w))
    let taught (v6 : Bool) (a mac : Nat) (reply : List Out) (t : State) : Prop :=
      let mine (w : Bool × Nat × Out) : Bool := w.1 == v6 && w.2.1 == a
      let known := (s.port p).hops.any (fun h => h.v6 == v6 && h.addr == a)
      (t.port p).hops = (s.port p).hops.map (fun h => if h.v6 = v6 ∧ h.addr = a then
        { h with mac := some mac, failed := false, refresh := s.now + 60_000_000_000 } else h) ∧
      (t.port p).held = (s.port p).held.filter (fun w => !(known && mine w)) ∧ t.net.sent = s.net.sent ∧
      queued ((if known then ((s.port p).held.filter mine).map (·.2.2) else []) ++ reply) t
    (∀ m q, (s.port p).arpIn = m :: q → ∃ t, exec (.arpFrame p) s = .next t ∧ keeps [.net, .regs] s t ∧ (t.port p).arpIn = q ∧
      (∀ i, (s.port p).ip4 = some i → m.answer = false → m.target = i.addr →
        taught false m.sender m.mac [.arpReply m.sender m.mac] t) ∧
      ((∀ i, (s.port p).ip4 = some i → m.answer = true ∨ m.target ≠ i.addr) → taught false m.sender m.mac [] t)) ∧
    (∀ m q, (s.port p).ndIn = m :: q → ∃ t, exec (.neighbourFrame p) s = .next t ∧ keeps [.net, .regs] s t ∧ (t.port p).ndIn = q ∧
      (∀ i, (s.port p).ip6 = some i → m.answer = false → m.target = i.addr →
        taught true m.sender m.mac [.neighbourAdvert m.sender m.mac] t) ∧
      ((∀ i, (s.port p).ip6 = some i → m.answer = true ∨ m.target ≠ i.addr) → taught true m.sender m.mac [] t)) ∧
    (∀ m q, (s.port p).echoIn = m :: q →
      let n := if (s.port p).echoAt + 1_000_000_000 ≤ s.now then 0 else (s.port p).echoes
      ∃ t, exec (.echoRequest p) s = .next t ∧ keeps [.net, .regs] s t ∧ (t.port p).echoIn = q ∧
        (n < 100 → (t.port p).echoes = n + 1 ∧
          (s.resolved p m.v6 m.src = true → sends p (.echoReply m.v6 m.src m.payload) s t ∧ (t.port p).held = (s.port p).held) ∧
          (s.resolved p m.v6 m.src = false →
            (t.port p).held = (s.port p).held ++ [(m.v6, s.hopAddr p m.v6 m.src, .echoReply m.v6 m.src m.payload)])) ∧
        (100 ≤ n → (t.port p).echoes = n ∧ queued [] t ∧ (t.port p).held = (s.port p).held)) ∧
    (let due := (s.port p).hops.filter (fun h => h.mac.isSome && decide (h.refresh ≤ s.now))
     let ask (h : Hop) : Out := if h.v6 then .neighbourSolicit h.addr else .arpRequest h.addr
     ∃ t, exec (.nextHopRefresh p) s = .next t ∧ keeps [.net, .regs] s t ∧
       (t.port p).hops = (s.port p).hops.map (fun h =>
         if h.mac.isSome = true ∧ h.refresh ≤ s.now then { h with refresh := h.refresh + 60_000_000_000 } else h) ∧
       t.net.sent = s.net.sent ∧ queued (due.map ask) t) ∧
    (∃ t, exec (.resolveTimeout p) s = .next t ∧ keeps [.net, .regs] s t ∧ queued [] t ∧
      (∀ w, w ∈ (t.port p).held ↔ w ∈ (s.port p).held ∧
        ∀ h ∈ (s.port p).hops, h.mac = none → h.asked + 3_000_000_000 ≤ s.now → ¬ (h.v6 = w.1 ∧ h.addr = w.2.1)) ∧
      (t.port p).hops = (s.port p).hops.map (fun h =>
        if h.mac = none ∧ h.asked + 3_000_000_000 ≤ s.now then { h with failed := true } else h)) ∧
    (let v := s.net.ptp
     let chosen (t : State) : Prop := t.net.ptp.chosen = (bestMaster t.net.ptp.masters).map (·.ident) ∧
       (t.net.ptp.chosen ≠ v.chosen → t.net.ptp.t1 = none ∧ t.net.ptp.t2 = none ∧ t.net.ptp.delay = none ∧ t.net.ptp.req = none ∧
         t.rd F.NET_PTPSTAT.PSTATE = (if t.net.ptp.chosen.isSome then 8 else 4)) ∧
       (t.net.ptp.chosen = v.chosen → t.net.ptp.t1 = v.t1 ∧ t.net.ptp.delay = v.delay)
     let offset (go : Instr) (u : State) (t1 t2 : Int) : Prop :=
       (v.delay = none → exec go s = .next u) ∧
       (∀ d, v.delay = some d → exec go s = .next
         ((servoUpdate (t2 - t1 - d - s.rdI F.NET_PTPCFG.ASYM)
           (if s.tb.first then logSeconds u.net.ptp.syncInt else s.now - s.tb.lastValid) u).wr F.NET_PTPSTAT.PSTATE 9))
     (∀ m q, (s.port p).ptpIn = m :: q →
       let go := Instr.ptpMessage p
       let ours := s.ptpPort = some p.val ∧ m.domain = s.rd F.NET_PTPCFG.DOMAIN
       let idle (t : State) : Prop := keeps [.net] s t ∧ (t.port p).ptpIn = q ∧ t.net.ptp = v
       (¬ ours → ∃ t, exec go s = .next t ∧ idle t) ∧
       (ours → m.kind = .other → ∃ t, exec go s = .next t ∧ idle t) ∧
       (∀ rank interval, ours → m.kind = .announce rank interval → ∃ t, exec go s = .next t ∧ keeps [.net, .regs] s t ∧ chosen t ∧
         ((∃ c ∈ v.masters, c.ident = m.sender) → t.net.ptp.masters = v.masters.map (fun c => if c.ident = m.sender then
           { c with rank := rank, last := s.now, interval := interval,
                    count := if s.now ≤ c.last + 4 * logSeconds c.interval then c.count + 1 else 1 } else c)) ∧
         ((∀ c ∈ v.masters, c.ident ≠ m.sender) → v.masters.length < 8 → t.net.ptp.masters = v.masters ++
           [{ ident := m.sender, rank := rank, last := s.now, count := 1, interval := interval, delayInterval := 0 }]) ∧
         ((∀ c ∈ v.masters, c.ident ≠ m.sender) → 8 ≤ v.masters.length → t.net.ptp.masters = v.masters)) ∧
       (∀ two origin corr interval, ours → m.kind = .sync two origin corr interval →
         (v.chosen ≠ some m.sender → ∃ t, exec go s = .next t ∧ idle t) ∧
         (v.chosen = some m.sender → ∃ u, keeps [.net, .regs] s u ∧ keepsRegs [R.NET_PTPSTAT] s u ∧ (u.port p).ptpIn = q ∧
           u.rd F.NET_PTPSTAT.TWOSTEP = two.toNat ∧
           u.net.ptp = { v with t1 := if two then none else some (origin + corr), t2 := some m.at_, syncInt := interval,
                                waiting := if two then some (m.seq, corr) else none } ∧
           (two = true → exec go s = .next u) ∧ (two = false → offset go u (origin + corr) m.at_))) ∧
       (∀ origin corr seq c t2, ours → m.kind = .followUp origin corr → v.waiting = some (seq, c) → v.t2 = some t2 →
         (v.chosen = some m.sender → m.seq = seq → ∃ u, keeps [.net] s u ∧ (u.port p).ptpIn = q ∧
           u.net.ptp = { v with t1 := some (origin + corr + c), waiting := none } ∧ offset go u (origin + corr + c) t2) ∧
         (v.chosen ≠ some m.sender ∨ m.seq ≠ seq → ∃ t, exec go s = .next t ∧ idle t)) ∧
       (∀ rx corr interval seq t1 t2 t3, ours → m.kind = .delayResp rx corr interval → v.req = some (seq, t3) → v.t1 = some t1 →
         v.t2 = some t2 →
         (v.chosen = some m.sender → m.seq = seq → ∃ t, exec go s = .next t ∧ keeps [.net] s t ∧ t.net.ptp.req = none ∧
           t.net.ptp.delay = some ((t2 - t1 + (rx - corr - t3)) / 2)) ∧
         (v.chosen ≠ some m.sender ∨ m.seq ≠ seq → ∃ t, exec go s = .next t ∧ idle t))) ∧
     (∀ m t1, s.ptpPort = some p.val → v.masters.find? (fun c => some c.ident == v.chosen) = some m → v.t1 = some t1 →
       (s.now < v.reqAt → exec .delayReq s = .next s) ∧
       (v.reqAt ≤ s.now → ∃ t, exec .delayReq s = .next t ∧ keeps [.net, .regs] s t ∧ sends p (.delayReq v.reqSeq) s t ∧
         t.net.ptp = { v with req := none, reqSeq := (v.reqSeq + 1) % 65536,
                              reqAt := s.now + logSeconds m.delayInterval })) ∧
     (∃ t, exec .announceTimeout s = .next t ∧ keeps [.net, .regs] s t ∧ chosen t ∧
       t.net.ptp.masters = v.masters.filter (fun m => decide (s.now < m.last + 3 * logSeconds m.interval))))

/-- Streams (R478–R488, R498). A group that a record completes or that the next record cannot join, or whose oldest record has waited 100 ms
since it could be read, goes to the transmitters of the stream's ports as its frames, in order, each with the next SEQ and the first with
GAP after a discontinuity; the descriptor goes out every second. Before its next hops are asked for a stream waits. A stream that no port
can carry holds its records, or moves past them. FAILOVER leaves NET0 after 1 ms without it and returns after 10 s with it. Enabling a
stream is refused with ERR beyond the network budget, and begins with a descriptor and GAP. -/
def Obligations.Streams : Prop :=
  ∀ (s : State) (i : Fin 256),
    let v := s.stream i
    let b := s.rd (F.NET_SCFG.BOBBIN i)
    let fmt := s.rd (F.NET_SCFG.FORMAT i)
    let epoch := s.rd (F.NET_SSTAT.EPOCH i)
    let handedAll (l : List Out) (t : State) : Prop := t.net.sent = s.net.sent ∧ ∀ p, p < 2 →
      (p ∈ s.streamPorts i → s.maySend p (.arpRequest 0) → (t.port p).txq = (s.port p).txq ++ l.map (fun w => (some i.val, w))) ∧
      (p ∉ s.streamPorts i ∨ ¬ s.maySend p (.arpRequest 0) → (t.port p).txq = (s.port p).txq)
    let known := v.needDesc = false ∧ v.desc = s.descBody i
    let datagram (d : Dest) (k : Nat) (f : FrameBody) : Out := .udp d.v6 d.addr d.sport d.dport (s.rd (F.NET_SCFG2.DSCP i))
      (fspHeader i ((s.rd (F.NET_SSEQ.SEQ i) + k) % 2 ^ 32) f.label epoch f.first f.format f.count f.flags f.spc f.qofs ++ f.body)
    let descriptor : FrameBody := { label := s.tbNs, first := 0, format := 0xFF, count := 0, flags := 0, spc := 1, qofs := 0,
                                    body := leBytes 2 epoch ++ s.descBody i }
    let goesOut (d : Dest) (g : List Taken) (last : Nat) (gap : Bool) (t : State) : Prop :=
      let lim := s.frameLimit i d.v6
      let src := s.source485 b
      let frames := if formatWidth fmt = 0 then g.flatMap (byteFrames fmt lim)
        else sampleFrames src fmt (s.rd (F.NET_SCFG.QMODE i)) lim src.chans g
      (t.stream i).group = [] ∧ (t.stream i).last = last ∧ t.rd (F.NET_SSEQ.SEQ i) = (s.rd (F.NET_SSEQ.SEQ i) + frames.length) % 2 ^ 32 ∧
      (gap = true → frames ≠ [] → t.rd (F.NET_SSTAT.GAPSEEN i) = 1 ∧ (t.stream i).gap = false) ∧
      handedAll (frames.zipIdx.map (fun q =>
        datagram d q.2 { q.1 with flags := q.1.flags + (if q.2 = 0 ∧ gap = true then 4 else 0) })) t
    (s.rd (F.NET_SCFG.EN i) = 0 ∨ s.dest i = none → exec (.streamGroupReady i) s = .next s) ∧
    (∀ d, s.dest i = some d → s.rd (F.NET_SCFG.EN i) = 1 → s.unavailable i = true →
      (s.rd (F.NET_SCFG.LINKPOL i) = 1 → exec (.streamGroupReady i) s = .next s) ∧
      (s.rd (F.NET_SCFG.LINKPOL i) = 0 → ∃ t, exec (.streamGroupReady i) s = .next t ∧ keeps [.net, .ground] s t ∧
        (t.stream i).group = [] ∧ v.last ≤ (t.stream i).last ∧
        (∀ r ∈ (s.bob b).recs, r.st ≠ .spec → r.idx < (t.stream i).last) ∧
        (v.group ≠ [] ∨ v.last < (t.stream i).last → (t.stream i).gap = true))) ∧
    (∀ d r, s.dest i = some d → s.rd (F.NET_SCFG.EN i) = 1 → s.unavailable i = false →
      (∀ p ∈ s.streamPorts i, s.availFor i p = true → s.resolved p d.v6 d.addr = true) → v.cut = false → known →
      nextRecord (s.bob b) v.last false = some r → (v.group = [] ∨ s.splits i r = false) → s.groupSize i ≤ v.group.length + 1 →
      (∃ pos, s.readerPos b (.stream i) = some pos ∧ pos ≤ r.idx ∧ ∀ q ∈ v.group, pos ≤ q.idx) →
      ∃ t, exec (.streamGroupReady i) s = .next t ∧
        goesOut d (v.group ++ [{ idx := r.idx, data := r.data, at_ := r.freed, tb := r.tb }]) (r.idx + 1)
          (v.gap || decide (v.last < r.idx)) t) ∧
    (∀ d, s.dest i = some d → s.rd (F.NET_SCFG.EN i) = 1 → s.unavailable i = false → known → v.group ≠ [] →
      (∀ p ∈ s.streamPorts i, s.availFor i p = true → s.resolved p d.v6 d.addr = true) →
      (v.cut = true ∨ ∃ r, nextRecord (s.bob b) v.last false = some r ∧ s.splits i r = true) →
      (∃ pos, s.readerPos b (.stream i) = some pos ∧ ∀ q ∈ v.group, pos ≤ q.idx) →
      ∃ t, exec (.streamGroupReady i) s = .next t ∧ goesOut d v.group v.last v.gap t) ∧
    (∀ d, s.dest i = some d → s.rd (F.NET_SCFG.EN i) = 1 → s.unavailable i = false →
      (∃ p ∈ s.streamPorts i, s.availFor i p = true ∧ s.resolved p d.v6 d.addr = false) →
      ∃ t, exec (.streamGroupReady i) s = .next t ∧ keeps [.net] s t ∧ t.stream i = v ∧
        ∀ p ∈ s.streamPorts i, isMulticast d.v6 d.addr = true ∨ (t.hop p d.v6 d.addr).isSome = true) ∧
    (∀ d h g, s.dest i = some d → v.group = h :: g → known →
      (s.unavailable i = true ∨ s.now < h.at_ + 100_000_000 → exec (.groupTimeout i) s = .next s) ∧
      (s.unavailable i = false → h.at_ + 100_000_000 ≤ s.now →
        (∃ pos, s.readerPos b (.stream i) = some pos ∧ ∀ q ∈ v.group, pos ≤ q.idx) →
        ∃ t, exec (.groupTimeout i) s = .next t ∧ goesOut d v.group v.last v.gap t)) ∧
    (∀ d, s.dest i = some d → s.rd (F.NET_SCFG.EN i) = 1 → v.descAt ≤ s.now →
      (s.unavailable i = true → ∃ t, exec (.descriptorTimer i) s = .next t ∧ keeps [.net] s t ∧
        t.stream i = { v with descAt := v.descAt + 1_000_000_000 } ∧ handedAll [] t) ∧
      (s.unavailable i = false → v.desc = s.descBody i → ∃ t, exec (.descriptorTimer i) s = .next t ∧ keeps [.net, .regs] s t ∧
        t.stream i = { v with descAt := v.descAt + 1_000_000_000, needDesc := false } ∧
        t.rd (F.NET_SSEQ.SEQ i) = (s.rd (F.NET_SSEQ.SEQ i) + 1) % 2 ^ 32 ∧
        handedAll [datagram d 0 descriptor] t)) ∧
    (s.rd (F.NET_SCFG.PORTSEL i) = 3 →
      (s.rd (F.NET_SSTAT.ONNET1 i) = 0 → v.n0 = false → v.n0At + 1_000_000 ≤ s.now → ∃ t, exec (.failoverSwitch i) s = .next t ∧
        keeps [.regs] s t ∧ keepsRegs [R.NET_SSTAT i] s t ∧ t.rd (F.NET_SSTAT.ONNET1 i) = 1) ∧
      (s.rd (F.NET_SSTAT.ONNET1 i) = 1 → v.n0 = true → v.n0At + 10_000_000_000 ≤ s.now → ∃ t, exec (.failoverReturn i) s = .next t ∧
        keeps [.regs] s t ∧ keepsRegs [R.NET_SSTAT i] s t ∧ t.rd (F.NET_SSTAT.ONNET1 i) = 0)) ∧
    (s.rd (F.NET_SCFG.PORTSEL i) ≠ 3 → exec (.failoverSwitch i) s = .next s ∧ exec (.failoverReturn i) s = .next s) ∧
    (let e := s.netErr { s.liveView with extra := [i.val] }
     (e ≠ 0 → ∃ t, exec (.netScfgEnWrite i true) s = .next t ∧ keeps [.regs, .status] s t ∧ keepsRegs [R.NET_BUDGET] s t ∧
       t.status = .refused) ∧
     (e = 0 → ∃ t, exec (.netScfgEnWrite i true) s = .next t ∧ t.status = .ok ∧ t.rd (F.NET_SCFG.EN i) = 1 ∧
       (t.stream i).enabled = true ∧ (v.enabled = false → (t.stream i).group = [] ∧ (t.stream i).gap = true ∧
         (t.stream i).needDesc = true ∧ (t.stream i).descAt = s.now + 1_000_000_000)) ∧
     (∃ t, exec (.netScfgEnWrite i false) s = .next t ∧ t.status = .ok ∧ t.rd (F.NET_SCFG.EN i) = 0 ∧ (t.stream i).enabled = false))

/-! ## Compression and hash chains (R507–R519, R544–R546) -/

/-- The compressors (R510–R519, R544–R546). A record joins the open block, which closes before it after a discontinuity or for want of room,
and with it when it is full; a block also closes after BLKTMO. A closed block becomes a KIND 0x6 record, which a deferring output without
room makes wait with STALL; a link of the hash chain that is due closes before it (the model's reading, assumption 56); an uncorrectable
error discards the open block. Each second closes a link of the hash chain over what was written, which the digest record then carries.
Enabling starts a chain and is refused beyond capacity. The decompressor shows its result, and counts and reports a failure. -/
def Obligations.Compression : Prop :=
  ∀ (s : State) (n : Fin 2),
    let c := s.comp n
    let inB := s.rd (F.DFL_CFG.INBOB n)
    let outB := s.rd (F.DFL_CFG.OUTBOB n)
    let block (l : List Record) (gap : Bool) : Block := { recs := l, gap := gap, at_ := s.tbNs }
    let shut := if c.recs = [] then [] else [block c.recs c.gap]
    (s.rd (F.DFL_CFG.EN n) = 0 ∨ s.rd (F.DFL_STAT.STALL n) = 1 → exec (.compressRecord n) s = .next s) ∧
    (∀ pos st, s.rd (F.DFL_CFG.EN n) = 1 → s.rd (F.DFL_STAT.STALL n) = 0 → s.readerPos inB (.comp n) = some pos →
      nextRecord (s.bob inB) pos false = some st →
      let len := recBytes st.data
      let lim := s.rd (F.DFL_BLK.BLKSIZE n) * 1024
      let cut := decide (c.last < st.idx) || (decide (c.src ≠ []) && decide (c.src ≠ (s.source485 inB).bytes))
      let close := cut || decide (c.recs ≠ [] ∧ lim < c.bytes + len)
      let recs := (if close then [] else c.recs) ++ [st.data]
      let gap := cut || (!(close && decide (c.recs ≠ [])) && c.gap)
      let total := sumN (recs.map recBytes)
      let done := decide (lim ≤ total ∨ lim - total < len)
      ∃ t, exec (.compressRecord n) s = .next t ∧ keeps [.regs, .comps, .ground] s t ∧
        keepsRegs [R.DFL_STAT n, (F.DFL_INB.COUNT n).reg] s t ∧
        (t.comp n).recs = (if done then [] else recs) ∧ (t.comp n).gap = (if done then false else gap) ∧
        (t.comp n).closed = c.closed ++ (if close then shut else []) ++ (if done then [block recs gap] else []) ∧
        (recs.length = 1 → done = false → (t.comp n).openAt = st.freed) ∧ (t.comp n).last = st.idx + 1 ∧ (t.rd (F.DFL_STAT.OPEN n) = 1 ↔ done = false) ∧
        t.rd (F.DFL_INB.COUNT n) = satN (F.DFL_INB.COUNT n).w (s.rd (F.DFL_INB.COUNT n) + len)) ∧
    (let overs := c.recs ≠ [] ∧ c.openAt + s.rd (F.DFL_BLK.BLKTMO n) * 1_000_000 ≤ s.now
     (overs → ∃ t, exec (.blockTimeout n) s = .next t ∧ keeps [.regs, .comps] s t ∧ keepsRegs [R.DFL_STAT n] s t ∧
       t.rd (F.DFL_STAT.OPEN n) = 0 ∧
       t.comp n = { c with recs := [], gap := false, closed := c.closed ++ [block c.recs c.gap] }) ∧
     (¬ overs → exec (.blockTimeout n) s = .next s)) ∧
    (∀ b q, c.closed = b :: q → b.recs ≠ [] → ∃ r, compressedRecord s n c.index b = some r ∧ r.kind = 6 ∧
      wordAt r.payload 0 = w32 (blockBytes (s.rd (F.DFL_CFG.PRECODE n)) none b.recs).length ∧
      wordAt r.payload 1 = w32 b.recs.length ∧ wordAt r.payload 2 = w32 c.index ∧
      ∃ t, exec (.compressedRecordWrite n) s = .next t ∧
        (bobPages (s.bob outB) + recPages r ≤ s.rd (F.GND_BCFG.QUOTA outB) →
          keeps [.regs, .comps, .ground] s t ∧ (∃ e, (t.bob outB).recs = (s.bob outB).recs ++ [e] ∧ e.data = r ∧ e.st = .queued) ∧
          (t.comp n).closed = q ∧ (t.comp n).index = (c.index + 1) % 2 ^ 32 ∧ (t.comp n).recs = c.recs ∧
          (∀ h, ((linkClose n s).comp n).chain = some h → ∃ h', (t.comp n).chain = some h' ∧ h'.bytes = h.bytes ++ recordBytes r ∧ h'.count = h.count + 1) ∧
          counted (F.DFL_NBLK.COUNT n) s t ∧ t.rd (F.DFL_STAT.STALL n) = 0 ∧ (b.gap = true → t.rd (F.DFL_STAT.GAPSEEN n) = 1)) ∧
        (s.rd (F.GND_BCFG.QUOTA outB) < bobPages (s.bob outB) + recPages r → s.rd (F.GND_BCFG.POLICY outB) = 1 →
          keeps [.regs, .comps] s t ∧ keepsRegs [R.DFL_STAT n] s t ∧ t.comp n = (linkClose n s).comp n ∧
          t.rd (F.DFL_STAT.STALL n) = 1)) ∧
    (c.recs ≠ [] → ∃ t, exec (.compressorEccError n) s = .next t ∧ keeps (.comps :: eventParts) s t ∧ (t.comp n).recs = [] ∧
      (t.comp n).gap = true ∧ (t.comp n).closed = c.closed ∧ t.rd (F.DFL_STAT.OPEN n) = 0 ∧ t.rd (F.DFL_STAT.ECCDISC n) = 1 ∧
      raised s t 0x1101 .warn noUnit none 0 n 0 0) ∧
    (c.recs = [] → exec (.compressorEccError n) s = .next s) ∧
    (∀ h, c.chain = some h →
      (s.now < h.due → exec (.digestLinkClose n) s = .next s) ∧
      (h.due ≤ s.now → ∃ t, exec (.digestLinkClose n) s = .next t ∧ keeps [.comps] s t ∧
        let d := hash384 (h.value ++ h.bytes)
        let l : Link := { i := h.i, at_ := s.tbNs, first := if h.count = 0 then 0 else h.first, count := h.count, flags := h.flags,
                          prev := h.value, value := d }
        t.comp n = { c with chain := some {
          i := h.i + 1, due := h.due + 1_000_000_000, value := d, first := 0, count := 0, bytes := [], flags := 0,
          links := h.links ++ [l] } }) ∧
      (∀ l q, h.links = l :: q →
        let r := digestRecord s l
        r.kind = 7 ∧ wordAt r.payload 1 = w32 l.i ∧
        (bobPages (s.bob outB) + recPages r ≤ s.rd (F.GND_BCFG.QUOTA outB) → ∃ t, exec (.digestRecordWrite n) s = .next t ∧
          keeps [.comps, .ground] s t ∧ (∃ e, (t.bob outB).recs = (s.bob outB).recs ++ [e] ∧ e.data = r ∧ e.st = .queued) ∧
          t.comp n = { c with chain := some { h with links := q } }) ∧
        (s.rd (F.GND_BCFG.QUOTA outB) < bobPages (s.bob outB) + recPages r → s.rd (F.GND_BCFG.POLICY outB) = 1 →
          exec (.digestRecordWrite n) s = .next s))) ∧
    (s.compOver s.liveView n = true → ∃ t, exec (.dflEnWrite n true) s = .next t ∧ keeps [.regs, .status] s t ∧
      keepsRegs [R.DFL_STAT n] s t ∧ t.status = .refused ∧ t.rd (F.DFL_STAT.ERR n) = 1) ∧
    (s.compOver s.liveView n = false → ∃ t, exec (.dflEnWrite n true) s = .next t ∧ t.status = .ok ∧ t.rd (F.DFL_CFG.EN n) = 1 ∧
      t.rd (F.DFL_STAT.ERR n) = 0 ∧ (s.rd (F.DFL_CFG.EN n) = 0 → ∃ h l, (t.comp n).chain = some h ∧ h.i = 1 ∧
        h.due = s.now + 1_000_000_000 ∧ h.links = [l] ∧ l.i = 0 ∧ l.prev = List.replicate 48 0 ∧ l.value = h.value)) ∧
    (s.rd (F.DFL_CFG.EN n) = 1 → ∃ t, exec (.dflEnWrite n false) s = .next t ∧ t.status = .ok ∧ t.rd (F.DFL_CFG.EN n) = 0 ∧
      (t.comp n).chain = none ∧ (t.comp n).recs = [] ∧ (t.comp n).closed = c.closed ++ shut ∧ (t.comp n).gap = true) ∧
    (∀ (ulen : Nat) (data : List Byte),
      let failed (t : State) (code ofs : Nat) : Prop := keeps eventParts s t ∧ t.rd F.DFL_DSTAT.RESULT = code % 16 ∧
        t.rd F.DFL_DOFS.OFS = ofs % 2 ^ 32 ∧ counted F.DFL_DCNT.COUNT s t ∧ raised s t 0x1101 .warn noUnit none 0 code ofs 0
      (∀ l, decompress ulen data = .ok l → ∃ t, exec (.decompressObject ulen data false) s = .next t ∧ keeps [.regs] s t ∧
        keepsRegs [R.DFL_DSTAT] s t ∧ t.rd F.DFL_DSTAT.RESULT = 1) ∧
      (∀ code ofs, decompress ulen data = .error (code, ofs) → ∃ t, exec (.decompressObject ulen data false) s = .next t ∧
        failed t code ofs) ∧
      (∃ t ofs, exec (.decompressObject ulen data true) s = .next t ∧ failed t 6 ofs ∧ ofs ≤ ulen))

/-! ## Identity, keys and trust (R526–R547) -/

/-- Fuse operations (R526, R534–R537). One that is requested while another runs is BUSY, one without authority outside BLANK is AUTH, one
that its rule forbids is REFUSED with the RESULT of that rule, and else it runs. It ends with the fuses that it blows and RESULT 1, or with
RESULT 5 and the event 0x1201, a key target of which a fuse is blown then being SPOILED. The anti-rollback counter follows the running image
once a round is committed, or after 60 s. -/
def Obligations.FuseOperations : Prop :=
  ∀ s : State,
    let free := s.rd F.SEC_FPSTAT.BUSY = 0
    let allowed := s.life = lifeBlank ∨ s.sessionSlot ≠ none
    let starts (i : Instr) (op slot : Nat) : Prop := ∃ t, exec i s = .next t ∧ keeps [.regs, .secu, .status] s t ∧
      keepsRegs [R.SEC_FPCMD, R.SEC_FPSTAT] s t ∧ t.status = .ok ∧ t.rd F.SEC_FPSTAT.BUSY = 1 ∧ t.rd F.SEC_FPSTAT.RESULT = 0 ∧
      t.secu = { s.secu with fuseOp := some { op := op, slot := slot, data := s.secu.fpdata } }
    let refused (i : Instr) (res : Nat) : Prop := ∃ t, exec i s = .next t ∧ keeps [.regs, .status] s t ∧
      keepsRegs [R.SEC_FPCMD, R.SEC_FPSTAT] s t ∧ t.status = .refused ∧ t.rd F.SEC_FPSTAT.RESULT = res ∧ t.rd F.SEC_FPSTAT.BUSY = 0
    let till := (wordAt s.secu.fpdata 0).toNat % 128
    let lower := s.life = lifeBlank ∨ till ≤ s.rd F.FUSE_SEC.ARB ∨ (match s.boot.image with | some i => i.svn < till | none => 0 < till)
    (∀ (k : Fin 4), ∀ i ∈ [Instr.progkey k, .revoke k, .advance, .fleetkey, .lockjtag],
      (s.rd F.SEC_FPSTAT.BUSY = 1 → exec i s = .next (s.answer .busy)) ∧
      (free → ¬ allowed → exec i s = .next (s.answer .auth))) ∧
    (free → allowed →
      (∀ k : Fin 4,
        ((s.slotValid k = true ∨ nthBit (s.rd F.FUSE_SEC.SPOILED) k = true) → refused (.progkey k) 3) ∧
        (s.slotValid k = false → nthBit (s.rd F.FUSE_SEC.SPOILED) k = false → starts (.progkey k) 1 k) ∧
        (s.life = lifeBlank → refused (.revoke k) 2) ∧
        (s.life ≠ lifeBlank → (s.sessionSlot = some k.val ∨ ∀ j, j < 4 → j ≠ k.val → s.slotValid j = true → s.slotRevoked j = true) →
          refused (.revoke k) 4) ∧
        (s.life ≠ lifeBlank → s.sessionSlot ≠ some k.val → (∃ j, j < 4 ∧ j ≠ k.val ∧ s.slotValid j = true ∧ s.slotRevoked j = false) →
          starts (.revoke k) 2 k)) ∧
      (lower → refused .advance 2) ∧ (¬ lower → starts .advance 3 0) ∧
      ((s.rd F.FUSE_SEC.FLEET = 1 ∨ s.secu.fleetSpoiled = true) → refused .fleetkey 6) ∧
      (s.rd F.FUSE_SEC.FLEET = 0 → s.secu.fleetSpoiled = false → starts .fleetkey 4 0) ∧
      (s.life = lifeBlank → refused .lockjtag 2) ∧ (s.life ≠ lifeBlank → starts .lockjtag 5 0)) ∧
    (∀ o, s.secu.fuseOp = some o → 1 ≤ o.op → o.op ≤ 5 → o.slot < 4 →
      (∃ t, exec (.fuseOpComplete true) s = .next t ∧ keeps [.regs, .secu] s t ∧ t.secu.fuseOp = none ∧ t.rd F.SEC_FPSTAT.BUSY = 0 ∧
        t.rd F.SEC_FPSTAT.RESULT = 1 ∧
        (o.op = 1 → t.slotValid o.slot = true ∧ ∀ j, j < 12 → t.reg (R.FUSE_KEYH o.slot j) = wordAt o.data j) ∧
        (o.op = 2 → t.slotRevoked o.slot = true ∧ (s.sessionSlot = some o.slot → t.secu.session = none)) ∧
        (o.op = 3 → t.rd F.FUSE_SEC.ARB = max (s.rd F.FUSE_SEC.ARB) ((wordAt o.data 0).toNat % 128)) ∧
        (o.op = 4 → t.rd F.FUSE_SEC.FLEET = 1 ∧ t.secu.fleetKey = o.data.take 8) ∧ (o.op = 5 → t.rd F.FUSE_SEC.JTAG_LOCK = 1) ∧
        (s.life ≠ lifeFault → t.life = t.lifeOf)) ∧
      (∃ t, exec (.fuseOpComplete false) s = .next t ∧ keeps (.secu :: eventParts) s t ∧ t.secu.fuseOp = none ∧
        t.rd F.SEC_FPSTAT.BUSY = 0 ∧ t.rd F.SEC_FPSTAT.RESULT = 5 ∧ raised s t 0x1201 .fault noUnit none 0 o.op o.slot 0 ∧
        (o.op = 1 → (∃ w ∈ o.data, w ≠ 0) → nthBit (t.rd F.FUSE_SEC.SPOILED) o.slot = true) ∧
        (o.op = 4 → (∃ w ∈ o.data.take 8, w ≠ 0) → t.secu.fleetSpoiled = true))) ∧
    (s.secu.fuseOp = none → exec (.fuseOpComplete true) s = .next s ∧ exec (.fuseOpComplete false) s = .next s) ∧
    (let due := s.rd F.SEC_STAT.ARBPEND = 1 ∧ (s.boot.committed = true ∨ s.boot.appliedAt + 60_000_000_000 ≤ s.now)
     (due → ∃ t, exec .arbAutoAdvance s = .next t ∧ keeps [.regs] s t ∧ keepsRegs [R.FUSE_SEC, R.SEC_STAT] s t ∧
       t.rd F.FUSE_SEC.ARB = max (s.rd F.FUSE_SEC.ARB) (s.rd F.SEC_IMGSTAT.SVN) ∧ t.rd F.SEC_STAT.ARBPEND = 0) ∧
     (¬ due → exec .arbAutoAdvance s = .next s))

/-- The DRBG, challenges, sessions, identity and JTAG (R529–R532, R540, R542, R547). The DRBG reseeds after 65,536 requests or an hour; a
failed health test is DRBGERR with the event 0x1201 and a retry every second. A challenge expires after 60 s and a session after 600 s
without a command. The identity key is shown once it is derived. A debug instruction of the JTAG port sets DBGUSED, until JTAG_LOCK is
blown. -/
def Obligations.TrustTimers : Prop :=
  ∀ s : State,
    let err := s.rd F.SEC_STAT.DRBGERR
    (err = 0 → (65_536 ≤ s.secu.drbgReqs ∨ s.secu.drbgAt + 3_600_000_000_000 ≤ s.now) → ∃ t, exec .drbgReseed s = .next t ∧
      keeps [.secu] s t ∧ t.secu = { s.secu with drbgReqs := 0, drbgAt := s.now }) ∧
    (err = 1 ∨ s.secu.drbgReqs < 65_536 ∧ s.now < s.secu.drbgAt + 3_600_000_000_000 → exec .drbgReseed s = .next s) ∧
    (err = 0 → ∃ t, exec .drbgHealthFail s = .next t ∧ keeps (.secu :: eventParts) s t ∧ t.rd F.SEC_STAT.DRBGERR = 1 ∧
      t.secu = { s.secu with retryAt := s.now + 1_000_000_000 } ∧ raised s t 0x1201 .fault noUnit none 0 0 0 0) ∧
    (err = 1 → s.secu.retryAt ≤ s.now →
      (∃ t, exec (.drbgRetry true) s = .next t ∧ keeps (.secu :: eventParts) s t ∧ t.rd F.SEC_STAT.DRBGERR = 0 ∧
        t.secu = { s.secu with drbgReqs := 0, drbgAt := s.now } ∧ raised s t 0x1201 .clear noUnit none 0 0 0 0) ∧
      (∃ t, exec (.drbgRetry false) s = .next t ∧ keeps [.secu] s t ∧
        t.secu = { s.secu with retryAt := s.now + 1_000_000_000 })) ∧
    (err = 0 ∨ s.now < s.secu.retryAt → ∀ ok, exec (.drbgRetry ok) s = .next s) ∧
    (∀ nonce till, s.secu.challenge = some (nonce, till) →
      (s.now < till → exec .challengeExpire s = .next s) ∧
      (till ≤ s.now → ∃ t, exec .challengeExpire s = .next t ∧ keeps [.regs, .secu] s t ∧ keepsRegs [R.SEC_STAT] s t ∧
        t.secu = { s.secu with challenge := none } ∧ t.rd F.SEC_STAT.CHAL = 0)) ∧
    (∀ k at_, s.secu.session = some (k, at_) →
      (s.now < at_ + 600_000_000_000 → exec .sessionTimeout s = .next s) ∧
      (at_ + 600_000_000_000 ≤ s.now → ∃ t, exec .sessionTimeout s = .next t ∧ keeps [.regs, .secu] s t ∧
        keepsRegs [R.SEC_STAT] s t ∧ t.secu = { s.secu with session := none } ∧ t.rd F.SEC_STAT.MONSESS = 0)) ∧
    (2 ≤ s.rd F.SYS_BOOT.PHASE → s.secu.identity = false → ∃ t, exec .identityKeyDerived s = .next t ∧ keeps [.regs, .secu] s t ∧
      t.secu = { s.secu with identity := true } ∧ t.reg R.SEC_DEVID_LO = w32 (leNat deviceId) ∧
      t.reg R.SEC_DEVID_HI = w32 (leNat deviceId / 2 ^ 32) ∧
      (∀ k, k < 24 → t.reg (R.SEC_IDPUB k) = wordAt (bytesToWords identityQ) k)) ∧
    (s.rd F.SYS_BOOT.PHASE < 2 ∨ s.secu.identity = true → exec .identityKeyDerived s = .next s) ∧
    (∀ (ins : Fin 6) (src : Fin 9) (code : Fin 8),
      let go := Instr.jtagInstruction ins src code
      (s.rd F.FUSE_SEC.JTAG_LOCK = 1 ∨ ins.val ≤ 2 → exec go s = .next s) ∧
      (s.rd F.FUSE_SEC.JTAG_LOCK = 0 → (ins.val = 3 ∨ ins.val = 4) → ∃ t, exec go s = .next t ∧ keeps [.regs] s t ∧
        keepsRegs [R.SEC_STAT] s t ∧ t.rd F.SEC_STAT.DBGUSED = 1) ∧
      (s.rd F.FUSE_SEC.JTAG_LOCK = 0 → ins.val = 5 → 1 ≤ src.val → code.val ≠ 0 → (∀ q ∈ s.secu.reach, q.1 ≠ src.val) →
        ∃ t, exec go s = .next t ∧ keeps [.secu] s t ∧ t.secu = { s.secu with reach := s.secu.reach ++ [(src.val, code.val)] }) ∧
      (ins.val = 5 → (src.val = 0 ∨ code.val = 0 ∨ ∃ q ∈ s.secu.reach, q.1 = src.val) → exec go s = .next s))

/-! ## Redundancy, health and the stores (R233, R302, R558–R571, R620–R623) -/

/-- Lane redundancy (R235, R560–R564). A lane whose heartbeat is late is counted, and one that has retired nothing for 10 µs without waiting
sends none; the third in succession, a residue or a double-bit error fences it for its built-in test with the event 0x0801, and the logical
lane goes to the spare, or is unserved with 0x0805. Heartbeats that several lanes miss on one path alone are that path's fault; the path
returns after 1 s without a miss. The restore of a takeover is complete after 5,320 ns: the spare serves the logical lane from its restore
point. A logical lane unserved for 100 ms loses its checkpoints. A single-bit error is corrected and counted; a flipped accumulator bit
changes that one alone. -/
def Obligations.LaneRedundancy : Prop :=
  ∀ s : State,
    let serving (n : Nat) : Prop := s.laneMode n = 1 ∨ s.laneMode n = 4
    let standing (n : Nat) : Prop := s.laneMode n ≠ 0 ∧ s.laneMode n ≠ 5 ∧ s.laneMode n ≠ 6
    let fenced (t : State) (n code : Nat) : Prop := keeps (.lanes :: eventParts) s t ∧ t.laneMode n = 6 ∧
      t.rd (F.LANE_STAT.FAULT n) = code ∧ (n, s.now) ∈ t.lanes.tests ∧ raised s t 0x0801 .fault (0x20 + n) none 0 (s.laneLL n) code 0 ∧
      (serving n → s.spareLane < 33 → t.laneMode s.spareLane = 4 ∧ t.laneLL s.spareLane = s.laneLL n ∧ t.spareLane = 0x3F ∧
        (∃ k ∈ t.lanes.takes, k.lane = s.spareLane ∧ k.ll = s.laneLL n ∧ k.at_ = s.now)) ∧
      (serving n → 33 ≤ s.spareLane → (t.logical (s.laneLL n)).unserved = some s.now ∧
        reported t 0x0805 .fault noUnit (s.laneLL n) 0 0)
    (∀ (n : Fin 33) (e : LaneError) (code : Nat), (e, code) ∈ [(LaneError.resid, 1), (.double, 2)] →
      (standing n → (serving n → s.spareLane ≠ n) → ∃ t, exec (.laneFault n e) s = .next t ∧ fenced t n code) ∧
      (¬ standing n → exec (.laneFault n e) s = .next s)) ∧
    (∀ n : Fin 33, ∃ t, exec (.laneFault n .single) s = .next t ∧ keeps [.regs] s t ∧ keepsRegs [R.LANE_ECC n] s t ∧
      counted (F.LANE_ECC.CORR n) s t) ∧
    (∀ (n : Fin 33) i k, (s.laneMode n ≠ 1 → exec (.laneFault n (.upset i k)) s = .next s) ∧
      (s.laneMode n = 1 → ∃ t, exec (.laneFault n (.upset i k)) s = .next t ∧ keeps [.lanes] s t ∧
        t.laneOf n = { s.laneOf n with core := { s.laneCore n with ac := (t.laneCore n).ac } } ∧
        ∀ j, j ≠ i.val → (t.laneCore n).acc j = (s.laneCore n).acc j)) ∧
    (∀ (n : Fin 33) (p : Fin 2) (got : Option Nat) (others : Bool),
      let go := Instr.heartbeatDeadline n p got others
      let b := s.beat n p
      let met := ∃ ago, got = some ago ∧ s.withholds n (s.now - ago) = false ∧ s.now - ago ≤ b.deadline
      let missed (t : State) : Prop := exec go s = .next t ∧
        counted (if p = 0 then F.HLTH_HBMISS.FABRIC else F.HLTH_HBMISS.BRIDE) s t ∧ t.beat n p = ⟨b.deadline + 10_000, b.missed + 1⟩
      (¬ standing n ∨ s.now < b.deadline → exec go s = .next s) ∧
      (standing n → b.deadline ≤ s.now →
        (∀ u, s.withholds n u = true ↔ s.laneMode n = 1 ∧ (s.laneOf n).prog ≠ [] ∧ (s.laneCore n).trap = 0 ∧ (s.laneOf n).wait = false ∧
          (s.laneOf n).retired + 10_000 ≤ u) ∧
        (∀ ago, got = some ago → s.withholds n (s.now - ago) = false → s.now - ago ≤ b.deadline → ∃ t, exec go s = .next t ∧ keeps [.health] s t ∧
          t.beat n p = ⟨s.now - ago + 10_500, 0⟩) ∧
        (¬ met → s.pathFaulted p = true → ∃ t, missed t ∧ keeps [.regs, .health] s t ∧ t.health.pathClean.at p = some s.now) ∧
        (¬ met → s.pathFaulted p = false → others = true → ∃ t, missed t ∧ keeps eventParts s t ∧ t.pathFaulted p = true ∧
          t.health.pathClean.at p = some s.now ∧ raised s t 0x1301 .fault 0x70 none 0 p 0 0) ∧
        (¬ met → s.pathFaulted p = false → others = false → b.missed + 1 < 3 → ∃ t, missed t ∧ keeps [.regs, .health] s t ∧
          keepsRegs [R.HLTH_HBMISS] s t) ∧
        (¬ met → s.pathFaulted p = false → others = false → 3 ≤ b.missed + 1 → (serving n → s.spareLane ≠ n) →
          ∃ t, missed t ∧ fenced t n 3))) ∧
    (∀ (p : Fin 2) (a : Nat), s.health.pathClean.at p = some a → s.pathFaulted p = true →
      (s.now < a + 1_000_000_000 → exec (.pathRestore p) s = .next s) ∧
      (a + 1_000_000_000 ≤ s.now → ∃ t, exec (.pathRestore p) s = .next t ∧ keeps eventParts s t ∧ t.pathFaulted p = false ∧
        t.health.pathClean.at p = none ∧ (∀ n, n < 33 → (t.beat n p).missed = 0) ∧
        raised s t 0x1301 .clear 0x70 none 0 p 0 0)) ∧
    (∀ k, s.lanes.takes.find? (fun t => decide (t.at_ + 5320 ≤ s.now)) = some k → k.lane < 33 → k.ll < 32 →
      ∃ t, exec .takeoverRestoreComplete s = .next t ∧ keeps [.regs, .lanes, .ground] s t ∧ t.laneMode k.lane = 1 ∧
        t.laneLL k.lane = k.ll ∧ t.lanes.takes = s.lanes.takes.filter (fun u => u.lane ≠ k.lane) ∧
        (t.logical k.ll).bumps = [0, 1, 2, 3] ∧ (t.logical k.ll).lapsed = false ∧
        (∀ ck, restorePoint s (s.logical k.ll) = some ck → (t.logical k.ll).core = ck.core) ∧
        (∀ j, j ≠ k.ll → t.logical j = s.logical j)) ∧
    (s.lanes.takes.find? (fun t => decide (t.at_ + 5320 ≤ s.now)) = none → exec .takeoverRestoreComplete s = .next s) ∧
    (∀ (ll : Fin 32) (a : Nat), (s.logical ll).unserved = some a → (s.logical ll).lapsed = false →
      (s.now < a + 100_000_000 → exec (.unservedTimeout ll) s = .next s) ∧
      (a + 100_000_000 ≤ s.now → ∃ t, exec (.unservedTimeout ll) s = .next t ∧ keeps [.lanes, .ground] s t ∧
        t.logical ll = { s.logical ll with cks := [], lapsed := true }))

/-- Shadowing, residues, and a lane's own parameters and checkpoints (R233, R302, R566–R569). A shadow window begins on its target 5,120 ns
after the spare takes it up; a difference in it fences the target with SHADOW; one that matches for SHDWIN rounds ends with the planned swap
where it was aimed. Sixteen residues of a front pipeline within a second are reported with 0x1304; those of its late stages mark the
channel's newest sample. A write of LANE_K waits for the next checkpoint, and a logical lane without a governing fibre takes one each ms. -/
def Obligations.LaneShadowing : Prop :=
  ∀ s : State,
    let n := s.spareLane
    let at_ := s.rd F.HLTH_LANE.SHLL
    let running := s.rd F.HLTH_LANE.SHADOW = 1
    let open_ := running ∧ s.lanes.winAt ≤ s.now ∧ s.lanes.swap = false
    (∀ (mismatch : Bool) (ll : Nat), ¬ running → n < 33 → s.laneMode n = 2 → s.lanes.swap = false → s.shadowTarget = some ll → ll < 32 →
      ∃ t, exec (.shadowWindowClose mismatch) s = .next t ∧ keeps [.regs, .lanes] s t ∧
        keepsRegs [R.HLTH_LANE, R.LANE_STAT n] s t ∧ t.rd F.HLTH_LANE.SHADOW = 1 ∧ t.rd F.HLTH_LANE.SHLL = ll ∧ t.laneMode n = 3 ∧
        t.laneLL n = ll ∧ t.lanes.winAt = s.now + 5120) ∧
    (∀ mismatch : Bool, ¬ running → (33 ≤ n ∨ s.laneMode n ≠ 2 ∨ s.lanes.swap = true ∨ s.shadowTarget = none) →
      exec (.shadowWindowClose mismatch) s = .next s) ∧
    (∀ mismatch : Bool, running → (s.now < s.lanes.winAt ∨ s.lanes.swap = true) → exec (.shadowWindowClose mismatch) s = .next s) ∧
    (∀ m, open_ → s.servedBy at_ = some m → n ≠ m → n < 33 → ∃ t, exec (.shadowWindowClose true) s = .next t ∧
      keeps (.lanes :: eventParts) s t ∧ t.laneMode m = 6 ∧ t.rd (F.LANE_STAT.FAULT m) = 4 ∧ (m, s.now) ∈ t.lanes.tests ∧
      t.laneMode n = 4 ∧ t.laneLL n = at_ ∧ t.lanes.aim = none ∧
      (s.lanes.suspect = none → t.lanes.suspect = some (at_, m, n)) ∧ raised s t 0x0801 .fault (0x20 + m) none 0 at_ 4 0) ∧
    (open_ → s.windowLength < max 16 (s.rd F.HLTH_CFG.SHDWIN) → exec (.shadowWindowClose false) s = .next s) ∧
    (open_ → max 16 (s.rd F.HLTH_CFG.SHDWIN) ≤ s.windowLength → s.lanes.aim = some at_ → ∃ t,
      exec (.shadowWindowClose false) s = .next t ∧ keeps [.lanes] s t ∧ t.lanes.swap = true ∧ t.lanes.aim = none ∧
      t.lanes.ll = s.lanes.ll) ∧
    (open_ → max 16 (s.rd F.HLTH_CFG.SHDWIN) ≤ s.windowLength → s.lanes.aim = none → s.rd F.HLTH_CFG.LSHEN = 0 → n < 33 → ∃ t,
      exec (.shadowWindowClose false) s = .next t ∧ keeps [.regs, .lanes] s t ∧ t.rd F.HLTH_LANE.SHADOW = 0 ∧ t.laneMode n = 2) ∧
    (∀ (x : Fibre) (c t0 t1 : Nat),
      let recent := s.now :: (s.health.residues.at x.idx).filter (fun t => decide (s.now < t + 1_000_000_000))
      ∃ t, exec (.frontResidueMismatch x false c t0 t1) s = .next t ∧ keeps (.slices :: eventParts) s t ∧
        t.slices = { s.slices with spans := s.slices.spans ++ [(4 * x.idx, { t0 := t0, t1 := t1, ref := false })] } ∧
        (recent.length < 16 → keeps [.slices, .health] s t ∧ t.health.residues.at x.idx = recent) ∧
        (16 ≤ recent.length → t.health.residues.at x.idx = [] ∧ raised s t 0x1304 .fault 0x60 (some x) 0 recent.length 0 0)) ∧
    (∀ (x : Fibre) (c t0 t1 : Nat) (e : Entry), ((s.cmt x).chan c).entries.getLast? = some e →
      ∃ t, exec (.frontResidueMismatch x true c t0 t1) s = .next t ∧ keeps (.commit :: eventParts) s t ∧
        ((t.cmt x).chan c).entries = ((s.cmt x).chan c).entries.dropLast ++ [{ e with fault := true }] ∧
        (∀ k, k ≠ c → (t.cmt x).chan k = (s.cmt x).chan k)) ∧
    (∀ (m : Fin 33) (j : Fin 8) (w : Word),
      let serves := s.laneMode m = 1 ∨ s.laneMode m = 4
      (serves → ∃ t, exec (.laneKWrite m j w) s = .next t ∧ keeps [.lanes, .status] s t ∧ t.status = .ok ∧
        t.laneOf m = { s.laneOf m with pendK := (s.laneOf m).pendK.filter (·.1 ≠ j.val) ++ [(j.val, w)], pendAt := s.now }) ∧
      (¬ serves → exec (.laneKWrite m j w) s = .next (s.answer .refused))) ∧
    (∀ (ll : Fin 32) (m : Nat),
      let l := s.logical ll
      s.servedBy ll = some m → s.governs l = 2 → l.core.trap = 0 → s.lanes.swap = false →
      (s.now < l.ckAt + 1_000_000 → exec (.laneCheckpointTimer ll) s = .next s) ∧
      (l.ckAt + 1_000_000 ≤ s.now → ∃ (t : State) (r : Nat), exec (.laneCheckpointTimer ll) s = .next t ∧
        keeps [.lanes, .fresh] s t ∧ (t.logical ll).ckAt = s.now ∧
        (t.logical ll).cks.getLast? = some { round := r, core := (t.logical ll).core } ∧
        ((l.pendK = [] ∨ s.now < l.pendAt + 4000) → (t.logical ll).core = l.core) ∧
        (∀ q, l.pendK = [q] → l.pendAt + 4000 ≤ s.now → (t.logical ll).core = { l.core with k := setAt l.core.k q.1 q.2 } ∧
          (t.logical ll).pendK = []) ∧
        (∀ j, j ≠ ll.val → t.logical j = s.logical j)))

/-- Test requests and the stores (R562, R563, R570, R571, R622, R623). HLTH_TCMD.GO of a code that names no testable unit is REFUSED with
RESULT 5, and BUSY with 4 while a request runs; a shared unit is tested at once where no fibre acquires, and else waits if the test may be
intrusive and is BUSY with 3 if it may not; a fenced lane or slice begins its test, and an active lane waits for the planned swap. A test
that ends shows RESULT 1 or 6 and the event 0x1303; a lane that passes is the spare, or takes an unserved logical lane, and one that fails
stays fenced, a held unit with the fault code that it has. In its turn at the flash (R612) the calibration store writes its other copy, and
the event log takes the oldest waiting record. -/
def Obligations.TestsAndStores : Prop :=
  ∀ s : State,
    (∀ (u : Fin 256) (intr : Bool),
      let go := Instr.hlthTestGo u intr
      let n := u.val - 0x20
      let turned (st : Status) (res : Nat) : Prop := ∃ t, exec go s = .next t ∧ keeps [.regs, .status] s t ∧
        keepsRegs [R.HLTH_TCMD, R.HLTH_TSTAT] s t ∧ t.status = st ∧ t.rd F.HLTH_TSTAT.RESULT = res
      let runs (t : State) (start : Option Nat) (may : Bool) : Prop := exec go s = .next t ∧ t.status = .ok ∧
        t.rd F.HLTH_TSTAT.UNIT = u ∧ t.rd F.HLTH_TSTAT.BUSY = 1 ∧ t.rd F.HLTH_TSTAT.RESULT = 0 ∧
        t.health.test = some { unit := u, intrusive := may, startAt := start, goAt := s.now }
      (unitTestable u = false → turned .refused 5 ∧ ∀ t, exec go s = .next t → t.reg R.HLTH_TCMD = s.reg R.HLTH_TCMD) ∧
      (unitTestable u = true → s.health.test ≠ none → turned .busy 4) ∧
      (unitTestable u = true → s.health.test = none →
        (0x60 ≤ u.val → s.anyAcquiring = false → ∃ t, runs t (some s.now) false ∧
          (u.val = 0x62 → t.memc.train = some .test ∧ t.rd F.MEMC_STAT.TRAIN = 1)) ∧
        (0x60 ≤ u.val → s.anyAcquiring = true → intr = true → ∃ t, runs t none true) ∧
        (0x60 ≤ u.val → s.anyAcquiring = true → intr = false → turned .busy 3) ∧
        (0x20 ≤ u.val → u.val ≤ 0x40 →
          ((s.laneMode n = 5 ∨ s.laneMode n = 6) → ∃ t, runs t none false ∧ ∃ q ∈ t.lanes.tests, q.1 = n) ∧
          (s.laneMode n ≠ 5 → s.laneMode n ≠ 6 → s.spareLane = n → ∃ t, runs t none false ∧ t.laneMode n = 5 ∧ t.spareLane = 0x3F ∧
            ∃ q ∈ t.lanes.tests, q.1 = n) ∧
          (s.laneMode n = 1 → s.spareLane ≠ n → s.spareLane < 33 → ∃ t, runs t none false ∧ t.lanes.aim = some (s.laneLL n)) ∧
          (s.laneMode n ≠ 5 → s.laneMode n ≠ 6 → s.spareLane ≠ n → (33 ≤ s.spareLane ∨ s.laneMode n ≠ 1) → turned .busy 2)) ∧
        (u.val ≤ 0x0E → (s.rd (F.SLC_STAT.MODE u) = 5 ∨ s.rd (F.SLC_STAT.MODE u) = 6) → ∃ t, runs t none false ∧
          (∃ q ∈ t.slices.tests, q.1 = u.val) ∧ (s.slices.tests = [] → t.rd (F.SLC_STAT.MODE u) = 5)) ∧
        (u.val = 0x50 + (1 - s.hkActive) → s.idleSt = 3 → ∃ t, runs t none false ∧ t.idleSt = 4 ∧ t.hk.testAt = some s.now))) ∧
    (∀ (q : TestRun) (a : Nat) (pass : Bool), s.health.test = some q → q.startAt = some a → 0x60 ≤ q.unit → q.unit < 256 →
      let overs := a + (if q.unit = 0x60 then 30_000_000 else if q.unit = 0x61 then 5_000_000 else 150_000_000) ≤ s.now
      let ends (go : Instr) : Prop := ∃ t, exec go s = .next t ∧ keeps (.memc :: eventParts) s t ∧
        t.rd F.HLTH_TSTAT.RESULT = (if pass then 1 else 6) ∧ t.rd F.HLTH_TSTAT.BUSY = 0 ∧ t.health.test = none ∧
        raised s t 0x1303 (if pass then .info else .fault) q.unit none 0 (if pass then 1 else 0) 0 0 ∧
        (q.unit = 0x62 → t.memc.train = none ∧ (pass = true → t.rd F.MEMC_STAT.VALID = 7))
      (overs → q.intrusive = true → ends (.intrusiveTestEnd pass)) ∧
      (¬ overs ∨ q.intrusive = false → exec (.intrusiveTestEnd pass) s = .next s) ∧
      (∀ (u : Fin 256) m gain ofs, u.val = q.unit → overs → q.intrusive = false → ends (.unitTestComplete u pass m gain ofs))) ∧
    (∀ (u : Fin 256) (pass : Bool) m gain ofs (a : Nat), 0x20 ≤ u.val → u.val ≤ 0x40 →
      let go := Instr.unitTestComplete u pass m gain ofs
      let n := u.val - 0x20
      (n, a) ∈ s.lanes.tests → a + 20_000_000 ≤ s.now → ∃ t, exec go s = .next t ∧ (∀ q ∈ t.lanes.tests, q.1 ≠ n) ∧
        (pass = false → t.laneMode n = 6 ∧ t.rd (F.LANE_STAT.FAULT n) = (if s.unitHeld u then s.rd (F.LANE_STAT.FAULT n) else 5)) ∧
        (pass = true → s.unitHeld u = false → t.rd (F.LANE_STAT.FAULT n) = 0 ∧
          (s.firstUnserved = none → t.spareLane = n ∧ (t.laneMode n = 2 ∨ t.laneMode n = 3)) ∧
          (∀ ll, s.firstUnserved = some ll → t.laneMode n = 4 ∧ t.laneLL n = ll ∧ (t.logical ll).unserved = none)) ∧
        raised s t 0x1303 (if pass then .info else .fault) u none 0 (if pass then 1 else 0) 0 0) ∧
    (∀ (u : Fin 256) (pass : Bool) m gain ofs (a : Nat), u.val ≤ 0x0E → (u.val, a) ∈ s.slices.tests → a + 20_000_000 ≤ s.now →
      s.slices.cal = none ∨ s.slices.suspect = none →
      ∃ t, exec (.unitTestComplete u pass m gain ofs) s = .next t ∧ (∀ q ∈ t.slices.tests, q.1 ≠ u.val) ∧
        (coefsOk m = false → t.rd (F.SLC_STAT.MODE u) = 6 ∧
          t.rd (F.SLC_STAT.FAULT u) = (if s.unitHeld u then s.rd (F.SLC_STAT.FAULT u) else 5)) ∧
        raised s t 0x1303 (if coefsOk m then .info else .fault) u none 0 (if coefsOk m then 1 else 0) 0 0) ∧
    (s.flash.calDirty = true → s.hasFlash = true → s.flashTurn .cal = true →
      let dst := match s.calCopy with | some c => 1 - c | none => 0
      let seq := match s.calCopy with | some c => (wordAt (s.flash.cals.at c) 1).toNat | none => 0
      let put := s.flash.cals.upd dst (s.calImage (seq + 1))
      ∃ t, exec .calStoreWrite s = .next t ∧ keeps [.regs, .flash] s t ∧ keepsRegs [R.SYS_FLASH] s t ∧
        t.flash = { s.flash with cals := put, calDirty := false, jobs := s.flash.jobs.erase .cal }) ∧
    ((s.flash.calDirty = false ∨ s.hasFlash = false ∨ s.flashTurn .cal = false) → exec .calStoreWrite s = .next s) ∧
    (s.boot.image = none → s.flashTurn .cal = false) ∧
    (∀ r q, s.flash.logQueue = r :: q → s.hasFlash = true → s.flashTurn .log = true → ∃ t, exec .eventLogWrite s = .next t ∧ keeps [.flash] s t ∧
      t.flash = { s.flash with
        logQueue := q, jobs := s.flash.jobs.erase .log, logSeq := (s.flash.logSeq + 1) % 2 ^ 32,
        log := (if s.flash.logPlaces ≤ s.flash.log.length then s.flash.log.drop 1024 else s.flash.log) ++
          [logEntry s.flash.logSeq s.flash.coldCount r] }) ∧
    ((s.flash.logQueue = [] ∨ s.hasFlash = false ∨ s.flashTurn .log = false) → exec .eventLogWrite s = .next s)

/-! ## The monitor (R631–R640) -/

/-- Lines and the commands open to all (R542, R631–R639). A character joins the line, or waits while a command runs; CR or LF enters it; a
backspace removes the last. A line that failed is MALFORMED, an unknown name UNKNOWN, in FAULT all but three commands REFUSED, wrong
arguments MALFORMED; any other line is the command that runs, and keeps the session. Each command ends with its lines, its status line and
the prompt; the texts of the lines are the model's own (assumption 41). A PEEK may pause between two registers, for a management request to
run (R640; the model's choice of when, assumption 108). -/
def Obligations.MonitorReads : Prop :=
  ∀ s : State,
    let cmd (c : MonCmd) : Prop := s.mon.cmd = some c
    let prints (i : Instr) (u : State) (ls : List (List Byte)) (st : Status) : Prop := ∃ t, exec i s = .next t ∧ said u t ls st
    (∀ (c : Byte) (framing : Bool),
      let go := Instr.monCharacter c framing
      let idle := s.inReset = false ∧ s.monBusy = false
      let echoed (m : Mon) : Prop := ∃ t, exec go s = .next t ∧ keeps [.mon] s t ∧ t.mon = { m with out := s.mon.out ++ [c] }
      (s.inReset = true → exec go s = .next s) ∧
      (s.inReset = false → s.monBusy = true → s.mon.buffer.length < 1024 → ∃ t, exec go s = .next t ∧ keeps [.mon] s t ∧
        t.mon = { s.mon with buffer := s.mon.buffer ++ [(c, framing)] }) ∧
      (idle → framing = true → ∃ t, exec go s = .next t ∧ keeps [.mon] s t ∧ t.mon = { s.mon with cr := false, bad := true }) ∧
      (idle → framing = false →
        (c = 10 → s.mon.cr = true → echoed { s.mon with cr := false }) ∧
        ((c = 13 ∨ c = 10 ∧ s.mon.cr = false) → echoed { s.mon with
          cr := decide (c = 13), line := [], bad := false,
          entered := if s.mon.line = [] ∧ s.mon.bad = false then none else some (s.mon.line, s.mon.bad) }) ∧
        ((c = 8 ∨ c = 127) → echoed { s.mon with cr := false, line := s.mon.line.dropLast }) ∧
        (c ∉ [8, 10, 13, 127] → s.mon.line.length < 1024 → echoed { s.mon with cr := false, line := s.mon.line ++ [c] }) ∧
        (c ∉ [8, 10, 13, 127] → 1024 ≤ s.mon.line.length → echoed { s.mon with cr := false, bad := true }))) ∧
    (∀ line bad, s.mon.entered = some (line, bad) →
      let u := s.modMon (fun m => { m with entered := none })
      (bad = true → prints .monLine u [] .malformed) ∧
      (∀ name ws, bad = false → wordsOf (upper line) = name :: ws →
        ((∀ p ∈ commandTable, text p.1 ≠ name) → prints .monLine u [] .unknown) ∧
        ((∃ p ∈ commandTable, text p.1 = name) →
          (s.life = lifeFault → name ∉ [text "ID", text "STAT", text "HEALTH"] → prints .monLine u [] .refused) ∧
          (s.life ≠ lifeFault ∨ name ∈ [text "ID", text "STAT", text "HEALTH"] →
            (parseArgs name ws = none → prints .monLine u [] .malformed) ∧
            (∀ c, parseArgs name ws = some c → ∃ t, exec .monLine s = .next t ∧ keeps [.mon, .secu] s t ∧
              t.mon = { s.mon with entered := none, cmd := some c } ∧
              t.secu = { s.secu with session := s.secu.session.map (fun p => (p.1, s.now)) }))))) ∧
    (cmd (.help none) → prints .help s (commandTable.map (fun p => text p.1)) .ok) ∧
    (∀ p ∈ commandTable, cmd (.help (some (text p.1))) → prints .help s [text p.2] .ok) ∧
    (cmd .id → prints .id s (idLines s) .ok) ∧ (cmd .stat → prints .stat s (statLines s) .ok) ∧
    (∀ n, cmd (.health n) → prints .health s (healthLines n s) .ok) ∧
    (∀ n, cmd (.log n) → prints .log s ((s.flash.log.reverse.take n).map (fun e => wordLine (bytesToWords e))) .ok) ∧
    (cmd .slot → prints .slot s (slotLines s) .ok) ∧
    (∀ a n got pause, cmd (.peek a n got) → ∃ (l : List Word) (v : State),
      let left := n - got.length
      let k := min left (pause.getD left)
      let first := busRead ((a + 4 * got.length) % 2 ^ 32) (s.answer .ok)
      l.length ≤ k ∧ (v.status = .ok ↔ l.length = k) ∧ (1 ≤ k → l.head? = if first.2.status = .ok then some first.1 else none) ∧
      (k = 1 → v = first.2) ∧
      (v.status = .ok → k < left → exec (.peek pause) s = .next (v.modMon (fun m => { m with cmd := some (.peek a n (got ++ l)) }))) ∧
      (v.status ≠ .ok ∨ k = left → prints (.peek pause) v ((List.range (got ++ l).length).map (fun i =>
        hexWord ((a + 4 * i) % 2 ^ 32) ++ text " " ++ hexWord (wordAt (got ++ l) i).toNat)) v.status)) ∧
    (∀ f x a n, cmd (.trace f x a n) →
      let y : Fibre := if x = 0 then .a else .b
      (s.acquiring y = false → prints .trace s [] .refused) ∧
      (s.acquiring y = true → s.lpts y + s.rd (F.SHOT_GUARD.GUARD x) < a + n → prints .trace s [] .malformed) ∧
      (s.acquiring y = true → a + n ≤ s.lpts y + s.rd (F.SHOT_GUARD.GUARD x) → f = 15 → s.spareReady = false →
        prints .trace s [] .busy) ∧
      (s.acquiring y = true → a + n ≤ s.lpts y + s.rd (F.SHOT_GUARD.GUARD x) → (f = 15 → s.spareReady = true) →
        ∃ t h, exec .trace s = .next t ∧ keeps [.mon] s t ∧ t.mon = { s.mon with
          cmd := none,
          trace := some { func := f, fibre := x, start := a, count := n, at_ := s.now, from_ := s.now, held := h } } ∧
          (f ≠ 15 → h = true))) ∧
    (∀ (k : Trace) (ws : List (Int × Bool)), s.mon.trace = some k →
      (∀ sl, s.tracedShot k = some sl → ws.length = k.count →
        sl.tL + s.rd (F.SHOT_LRP.DELAY k.fibre) + k.start + k.count ≤ s.now + 1 →
        prints (.traceCapture ws) s ((sixteens ws.length ws).map (fun g => spaced (g.map sampleText))) .ok) ∧
      (s.tracedShot k = none → exec (.traceCapture ws) s = .next s) ∧
      (s.tracedShot k = none → k.at_ + 10_000_000_000 ≤ s.now → prints .traceTimeout s [] .refused) ∧
      (s.now < k.at_ + 10_000_000_000 ∨ s.tracedShot k ≠ none → exec .traceTimeout s = .next s))

/-- Sessions and the commands that need one (R540, R542, R635–R639). AUTH answers a challenge, or opens a session with a trailer that
verifies, and a success and a failure are counted; outside BLANK every other command here is AUTH without a session. With one, POKE writes
as a bus write with the session's authority does, CAL, TEST and SLOT do what the command of the same name does and answer its status, and
RESET raises the source MON once its status line is out. -/
def Obligations.MonitorActs : Prop :=
  ∀ s : State,
    let cmd (c : MonCmd) : Prop := s.mon.cmd = some c
    let prints (i : Instr) (u : State) (ls : List (List Byte)) (st : Status) : Prop := ∃ t, exec i s = .next t ∧ said u t ls st
    (cmd .challenge → s.rd F.SEC_STAT.DRBGERR = 0 → ∃ (nonce : List Byte) (v : State), nonce.length = 48 ∧
      keeps [.secu, .fresh, .regs] s v ∧ keepsRegs [R.SEC_STAT] s v ∧ v.secu.challenge = some (nonce, s.now + 60_000_000_000) ∧
      v.rd F.SEC_STAT.CHAL = 1 ∧ prints .authChallenge v [wordLine (bytesToWords nonce), idText] .ok) ∧
    (cmd .challenge → s.rd F.SEC_STAT.DRBGERR = 1 → prints .authChallenge s [] .refused) ∧
    (∀ trailer, cmd (.auth trailer) → ∃ v : State, keeps [.secu, .regs] s v ∧ keepsRegs [R.SEC_STAT, F.SEC_AUTH.MONF.reg] s v ∧
      v.rd F.SEC_STAT.CHAL = 0 ∧
      match s.trailerSlot [2] trailer with
      | some k => prints .auth v [text "SLOT " ++ decOf k] .ok ∧ v.rd F.SEC_STAT.MONSESS = 1 ∧ counted F.SEC_AUTH.MONOK s v ∧
          v.secu = { s.secu with challenge := none, session := some (k, s.now) }
      | none => prints .auth v [] .auth ∧ counted F.SEC_AUTH.MONF s v ∧ v.secu = { s.secu with challenge := none }) ∧
    (let closed := s.life ≠ lifeBlank ∧ s.secu.session = none
     let opened := s.life = lifeBlank ∨ s.secu.session ≠ none
     (closed →
       (∀ a w, cmd (.poke a w) → prints .poke s [] .auth) ∧ (∀ u k j, cmd (.cal u k j) → prints .cal s [] .auth) ∧
       (∀ u j, cmd (.test u j) → prints .test s [] .auth) ∧ (∀ d l, cmd (.slotOpen d l) → prints .slotOpen s [] .auth) ∧
       (∀ o ws, cmd (.slotData o ws) → prints .slotData s [] .auth) ∧ (cmd .slotClose → prints .slotClose s [] .auth) ∧
       (cmd .slotAbort → prints .slotAbort s [] .auth) ∧ (∀ k, cmd (.slotClear k) → prints .slotClear s [] .auth) ∧
       (cmd .reset → prints .monReset s [] .auth) ∧ (∀ u, cmd (.resetUnit u) → prints .monResetUnit s [] .auth)) ∧
     (opened →
       (∀ a w, cmd (.poke a w) → ∃ k, (∀ q, s.sessionSlot = some q → k = q) ∧
         prints .poke (busWrite (some k) a w s) [] (busWrite (some k) a w s).status) ∧
       (∀ (n : Fin 16) k j v, n.val ≤ 0x0E → cmd (.cal n k j) → exec (.sliceCalStart n k j) s = .next v → prints .cal v [] v.status) ∧
       (∀ u j v, 0x0E < u → cmd (.cal u false j) → exec (.hkCalStart j) s = .next v → prints .cal v [] v.status) ∧
       (∀ (u : Fin 256) j v, cmd (.test u j) → exec (.hlthTestGo u j) s = .next v → prints .test v [] v.status) ∧
       (∀ d l, cmd (.slotOpen d l) → prints .slotOpen (xferOpen d l s) [] (xferOpen d l s).status) ∧
       (∀ o ws, cmd (.slotData o ws) → prints .slotData (xferData o ws s) [] (xferData o ws s).status) ∧
       (cmd .slotClose → ∃ k, (∀ q, s.sessionSlot = some q → k = q) ∧
         prints .slotClose (xferClose (some k) s) [] (xferClose (some k) s).status) ∧
       (cmd .slotAbort → prints .slotAbort (xferAbort s) [] (xferAbort s).status) ∧
       (∀ k, k < 2 → cmd (.slotClear k) → ∃ v, keeps [.regs, .status] s v ∧ keepsRegs [R.SYS_IMG] s v ∧ v.rd (markFld k) = 0 ∧
         prints .slotClear v [] .ok) ∧
       (cmd .reset → ∃ v, exec .monReset s = .next (pulseSource srMon v) ∧ said s v [] .ok) ∧
       (∀ u, cmd (.resetUnit u) → prints .monResetUnit (unitReset u s) [] (unitReset u s).status)))

/-! ## The invariant -/

/-- Every step keeps the register file and the Ground in canonical form, whatever waits in the queue. -/
def Obligations.StepsKeepCanonical : Prop :=
  ∀ s t : State, s.canonical → step s = .next t → t.canonical

/-- The machine is in canonical form at reset, with nothing listed, an empty queue and idle fibres (R38). -/
def Obligations.ResetCanonical : Prop :=
  State.reset.canonical ∧ State.reset.regs = [] ∧ State.reset.ground.bobs = [] ∧ State.reset.pending = [] ∧
    State.reset.acquiring .a = false ∧ State.reset.acquiring .b = false
end

