-- ==== Sys2Proof/Laws/Maps.lean ====
section
/-!
SUPPORT. Laws of the sparse maps: reading after a write, and that every operation keeps the canonical form.
-/
namespace Sys2Proof.Machine

variable {α : Type}

/-! ## Erasing -/

theorem mapGet_mapErase_same (d : Nat → α) (m : List (Nat × α)) (k : Nat) : mapGet d (mapErase k m) k = d k := by
  induction m with
  | nil => rfl
  | cons p t ih =>
    by_cases h : p.1 = k
    · simpa [mapErase, h] using ih
    · have : mapErase k (p :: t) = p :: mapErase k t := by simp [mapErase, h]
      rw [this]
      simp only [mapGet, h, if_false]
      exact ih

theorem mapGet_mapErase_ne (d : Nat → α) (m : List (Nat × α)) {k j : Nat} (h : j ≠ k) :
    mapGet d (mapErase k m) j = mapGet d m j := by
  induction m with
  | nil => rfl
  | cons p t ih =>
    by_cases hp : p.1 = k
    · have hj : p.1 ≠ j := fun e => h (e ▸ hp)
      have : mapErase k (p :: t) = mapErase k t := by simp [mapErase, hp]
      rw [this, ih]
      simp [mapGet, hj]
    · have : mapErase k (p :: t) = p :: mapErase k t := by simp [mapErase, hp]
      rw [this]
      simp only [mapGet, ih]

theorem mapErase_keys (m : List (Nat × α)) (k : Nat) : ∀ p ∈ mapErase k m, p.1 ≠ k := by
  intro p hp
  simpa [mapErase] using (List.mem_filter.mp hp).2

/-! ## Inserting -/

theorem mapGet_mapInsert_same (d : Nat → α) (m : List (Nat × α)) (k : Nat) (v : α) (h : ∀ p ∈ m, p.1 ≠ k) :
    mapGet d (mapInsert k v m) k = v := by
  induction m with
  | nil => simp [mapInsert, mapGet]
  | cons p t ih =>
    unfold mapInsert
    split
    · simp [mapGet]
    · have hp : p.1 ≠ k := h p (by simp)
      simp only [mapGet, hp, if_false]
      exact ih (fun q hq => h q (by simp [hq]))

theorem mapGet_mapInsert_ne (d : Nat → α) (m : List (Nat × α)) {k j : Nat} (v : α) (h : j ≠ k) :
    mapGet d (mapInsert k v m) j = mapGet d m j := by
  induction m with
  | nil => simp [mapInsert, mapGet, Ne.symm h]
  | cons p t ih =>
    unfold mapInsert
    split
    · simp [mapGet, Ne.symm h]
    · simp only [mapGet, ih]

/-! ## Writing -/

/-- A read after a write to the same key gives the value written. -/
theorem mapGet_mapSet_same [DecidableEq α] (d : Nat → α) (m : List (Nat × α)) (k : Nat) (v : α) :
    mapGet d (mapSet d m k v) k = v := by
  unfold mapSet
  split
  · rename_i h
    rw [mapGet_mapErase_same, h]
  · exact mapGet_mapInsert_same d _ k v (mapErase_keys m k)

/-- A write leaves every other key alone. -/
theorem mapGet_mapSet_ne [DecidableEq α] (d : Nat → α) (m : List (Nat × α)) {k j : Nat} (v : α) (h : j ≠ k) :
    mapGet d (mapSet d m k v) j = mapGet d m j := by
  unfold mapSet
  split
  · exact mapGet_mapErase_ne d m h
  · rw [mapGet_mapInsert_ne d _ v h, mapGet_mapErase_ne d m h]

/-! ## The canonical form -/

/-- Keys rise strictly, in the form that induction uses. -/
theorem mapSorted_iff (m : List (Nat × α)) : mapSorted m = true ↔ m.Pairwise (fun p q => p.1 < q.1) := by
  induction m with
  | nil => simp [mapSorted]
  | cons p t ih =>
    cases t with
    | nil => simp [mapSorted]
    | cons q u =>
      rw [mapSorted, Bool.and_eq_true, ih, List.pairwise_cons (a := p), decide_eq_true_iff]
      constructor
      · rintro ⟨h, hp⟩
        refine ⟨?_, hp⟩
        intro r hr
        rcases List.mem_cons.mp hr with rfl | hr
        · exact h
        · exact lt_trans h ((List.pairwise_cons.mp hp).1 r hr)
      · rintro ⟨h, hp⟩
        exact ⟨h q (by simp), hp⟩

theorem mapInsert_mem (m : List (Nat × α)) (k : Nat) (v : α) {r : Nat × α} (h : r ∈ mapInsert k v m) :
    r = (k, v) ∨ r ∈ m := by
  induction m with
  | nil => simpa [mapInsert] using h
  | cons p t ih =>
    unfold mapInsert at h
    split at h
    · simpa using h
    · rcases List.mem_cons.mp h with rfl | h
      · simp
      · rcases ih h with h | h
        · exact Or.inl h
        · exact Or.inr (by simp [h])

theorem mapInsert_sorted (m : List (Nat × α)) (k : Nat) (v : α) (hs : m.Pairwise (fun p q => p.1 < q.1))
    (hk : ∀ p ∈ m, p.1 ≠ k) : (mapInsert k v m).Pairwise (fun p q => p.1 < q.1) := by
  induction m with
  | nil => simp [mapInsert]
  | cons p t ih =>
    have ⟨h1, h2⟩ := List.pairwise_cons.mp hs
    unfold mapInsert
    split
    · rename_i hlt
      refine List.pairwise_cons.mpr ⟨?_, hs⟩
      intro r hr
      rcases List.mem_cons.mp hr with rfl | hr
      · exact hlt
      · exact lt_trans hlt (h1 r hr)
    · rename_i hge
      have hp : p.1 < k := lt_of_le_of_ne (not_lt.mp hge) (hk p (by simp))
      refine List.pairwise_cons.mpr ⟨?_, ih h2 (fun q hq => hk q (by simp [hq]))⟩
      intro r hr
      rcases mapInsert_mem t k v hr with rfl | hr
      · exact hp
      · exact h1 r hr

theorem mapWf_iff [DecidableEq α] (d : Nat → α) (m : List (Nat × α)) :
    mapWf d m = true ↔ m.Pairwise (fun p q => p.1 < q.1) ∧ ∀ p ∈ m, p.2 ≠ d p.1 := by
  simp [mapWf, mapSorted_iff]

/-- Keeping some entries keeps the canonical form. -/
theorem mapWf_filter [DecidableEq α] (d : Nat → α) (m : List (Nat × α)) (f : Nat × α → Bool) (h : mapWf d m = true) :
    mapWf d (m.filter f) = true := by
  rw [mapWf_iff] at h ⊢
  exact ⟨h.1.filter f, fun p hp => h.2 p (List.mem_filter.mp hp).1⟩

theorem mapWf_mapErase [DecidableEq α] (d : Nat → α) (m : List (Nat × α)) (k : Nat) (h : mapWf d m = true) :
    mapWf d (mapErase k m) = true := mapWf_filter d m _ h

/-- A write keeps the canonical form. -/
theorem mapWf_mapSet [DecidableEq α] (d : Nat → α) (m : List (Nat × α)) (k : Nat) (v : α) (h : mapWf d m = true) :
    mapWf d (mapSet d m k v) = true := by
  unfold mapSet
  split
  · exact mapWf_mapErase d m k h
  · rename_i hv
    have he := (mapWf_iff d _).mp (mapWf_mapErase d m k h)
    rw [mapWf_iff]
    refine ⟨mapInsert_sorted _ k v he.1 (mapErase_keys m k), ?_⟩
    intro p hp
    rcases mapInsert_mem _ k v hp with rfl | hp
    · exact hv
    · exact he.2 p hp

/-- Two canonical maps that read alike at every key are equal. -/
theorem mapGet_of_mem [DecidableEq α] (d : Nat → α) (m : List (Nat × α)) (h : mapWf d m = true) {p : Nat × α} (hp : p ∈ m) :
    mapGet d m p.1 = p.2 := by
  have hs := ((mapWf_iff d m).mp h).1
  clear h
  induction m with
  | nil => cases hp
  | cons q t ih =>
    have ⟨h1, h2⟩ := List.pairwise_cons.mp hs
    rcases List.mem_cons.mp hp with rfl | hp
    · simp [mapGet]
    · have : q.1 ≠ p.1 := ne_of_lt (h1 p hp)
      simp only [mapGet, this, if_false]
      exact ih hp h2

end Sys2Proof.Machine
end

