-- ==== Sys2Proof/Laws/State.lean ====
section
/-!
SUPPORT. What the named updates of the state leave unchanged, field by field, and the part that each one changes.
-/
namespace Sys2Proof.Machine

/-! ## State.setReg -/

@[simp] theorem State.setReg_holding (s : State) (k : Nat) (v : Word) : (s.setReg k v).holding = s.holding := (rfl)
@[simp] theorem State.setReg_now (s : State) (k : Nat) (v : Word) : (s.setReg k v).now = s.now := (rfl)
@[simp] theorem State.setReg_fresh (s : State) (k : Nat) (v : Word) : (s.setReg k v).fresh = s.fresh := (rfl)
@[simp] theorem State.setReg_status (s : State) (k : Nat) (v : Word) : (s.setReg k v).status = s.status := (rfl)
@[simp] theorem State.setReg_value (s : State) (k : Nat) (v : Word) : (s.setReg k v).value = s.value := (rfl)
@[simp] theorem State.setReg_tb (s : State) (k : Nat) (v : Word) : (s.setReg k v).tb = s.tb := (rfl)
@[simp] theorem State.setReg_sched (s : State) (k : Nat) (v : Word) : (s.setReg k v).sched = s.sched := (rfl)
@[simp] theorem State.setReg_commit (s : State) (k : Nat) (v : Word) : (s.setReg k v).commit = s.commit := (rfl)
@[simp] theorem State.setReg_aux (s : State) (k : Nat) (v : Word) : (s.setReg k v).aux = s.aux := (rfl)
@[simp] theorem State.setReg_src (s : State) (k : Nat) (v : Word) : (s.setReg k v).src = s.src := (rfl)
@[simp] theorem State.setReg_slices (s : State) (k : Nat) (v : Word) : (s.setReg k v).slices = s.slices := (rfl)
@[simp] theorem State.setReg_cord (s : State) (k : Nat) (v : Word) : (s.setReg k v).cord = s.cord := (rfl)
@[simp] theorem State.setReg_dts (s : State) (k : Nat) (v : Word) : (s.setReg k v).dts = s.dts := (rfl)
@[simp] theorem State.setReg_flash (s : State) (k : Nat) (v : Word) : (s.setReg k v).flash = s.flash := (rfl)
@[simp] theorem State.setReg_lanes (s : State) (k : Nat) (v : Word) : (s.setReg k v).lanes = s.lanes := (rfl)
@[simp] theorem State.setReg_ground (s : State) (k : Nat) (v : Word) : (s.setReg k v).ground = s.ground := (rfl)
@[simp] theorem State.setReg_health (s : State) (k : Nat) (v : Word) : (s.setReg k v).health = s.health := (rfl)
@[simp] theorem State.setReg_hk (s : State) (k : Nat) (v : Word) : (s.setReg k v).hk = s.hk := (rfl)
@[simp] theorem State.setReg_sensors (s : State) (k : Nat) (v : Word) : (s.setReg k v).sensors = s.sensors := (rfl)
@[simp] theorem State.setReg_alarm (s : State) (k : Nat) (v : Word) : (s.setReg k v).alarm = s.alarm := (rfl)
@[simp] theorem State.setReg_memc (s : State) (k : Nat) (v : Word) : (s.setReg k v).memc = s.memc := (rfl)
@[simp] theorem State.setReg_comps (s : State) (k : Nat) (v : Word) : (s.setReg k v).comps = s.comps := (rfl)
@[simp] theorem State.setReg_secu (s : State) (k : Nat) (v : Word) : (s.setReg k v).secu = s.secu := (rfl)
@[simp] theorem State.setReg_boot (s : State) (k : Nat) (v : Word) : (s.setReg k v).boot = s.boot := (rfl)
@[simp] theorem State.setReg_mon (s : State) (k : Nat) (v : Word) : (s.setReg k v).mon = s.mon := (rfl)
@[simp] theorem State.setReg_net (s : State) (k : Nat) (v : Word) : (s.setReg k v).net = s.net := (rfl)
@[simp] theorem State.setReg_pins (s : State) (k : Nat) (v : Word) : (s.setReg k v).pins = s.pins := (rfl)
@[simp] theorem State.setReg_pending (s : State) (k : Nat) (v : Word) : (s.setReg k v).pending = s.pending := (rfl)

/-! ## State.wr -/

@[simp] theorem State.wr_holding (s : State) (f : Fld) (v : Nat) : (s.wr f v).holding = s.holding := (rfl)
@[simp] theorem State.wr_now (s : State) (f : Fld) (v : Nat) : (s.wr f v).now = s.now := (rfl)
@[simp] theorem State.wr_fresh (s : State) (f : Fld) (v : Nat) : (s.wr f v).fresh = s.fresh := (rfl)
@[simp] theorem State.wr_status (s : State) (f : Fld) (v : Nat) : (s.wr f v).status = s.status := (rfl)
@[simp] theorem State.wr_value (s : State) (f : Fld) (v : Nat) : (s.wr f v).value = s.value := (rfl)
@[simp] theorem State.wr_tb (s : State) (f : Fld) (v : Nat) : (s.wr f v).tb = s.tb := (rfl)
@[simp] theorem State.wr_sched (s : State) (f : Fld) (v : Nat) : (s.wr f v).sched = s.sched := (rfl)
@[simp] theorem State.wr_commit (s : State) (f : Fld) (v : Nat) : (s.wr f v).commit = s.commit := (rfl)
@[simp] theorem State.wr_aux (s : State) (f : Fld) (v : Nat) : (s.wr f v).aux = s.aux := (rfl)
@[simp] theorem State.wr_src (s : State) (f : Fld) (v : Nat) : (s.wr f v).src = s.src := (rfl)
@[simp] theorem State.wr_slices (s : State) (f : Fld) (v : Nat) : (s.wr f v).slices = s.slices := (rfl)
@[simp] theorem State.wr_cord (s : State) (f : Fld) (v : Nat) : (s.wr f v).cord = s.cord := (rfl)
@[simp] theorem State.wr_dts (s : State) (f : Fld) (v : Nat) : (s.wr f v).dts = s.dts := (rfl)
@[simp] theorem State.wr_flash (s : State) (f : Fld) (v : Nat) : (s.wr f v).flash = s.flash := (rfl)
@[simp] theorem State.wr_lanes (s : State) (f : Fld) (v : Nat) : (s.wr f v).lanes = s.lanes := (rfl)
@[simp] theorem State.wr_ground (s : State) (f : Fld) (v : Nat) : (s.wr f v).ground = s.ground := (rfl)
@[simp] theorem State.wr_health (s : State) (f : Fld) (v : Nat) : (s.wr f v).health = s.health := (rfl)
@[simp] theorem State.wr_hk (s : State) (f : Fld) (v : Nat) : (s.wr f v).hk = s.hk := (rfl)
@[simp] theorem State.wr_sensors (s : State) (f : Fld) (v : Nat) : (s.wr f v).sensors = s.sensors := (rfl)
@[simp] theorem State.wr_alarm (s : State) (f : Fld) (v : Nat) : (s.wr f v).alarm = s.alarm := (rfl)
@[simp] theorem State.wr_memc (s : State) (f : Fld) (v : Nat) : (s.wr f v).memc = s.memc := (rfl)
@[simp] theorem State.wr_comps (s : State) (f : Fld) (v : Nat) : (s.wr f v).comps = s.comps := (rfl)
@[simp] theorem State.wr_secu (s : State) (f : Fld) (v : Nat) : (s.wr f v).secu = s.secu := (rfl)
@[simp] theorem State.wr_boot (s : State) (f : Fld) (v : Nat) : (s.wr f v).boot = s.boot := (rfl)
@[simp] theorem State.wr_mon (s : State) (f : Fld) (v : Nat) : (s.wr f v).mon = s.mon := (rfl)
@[simp] theorem State.wr_net (s : State) (f : Fld) (v : Nat) : (s.wr f v).net = s.net := (rfl)
@[simp] theorem State.wr_pins (s : State) (f : Fld) (v : Nat) : (s.wr f v).pins = s.pins := (rfl)
@[simp] theorem State.wr_pending (s : State) (f : Fld) (v : Nat) : (s.wr f v).pending = s.pending := (rfl)

/-! ## State.wrI -/

@[simp] theorem State.wrI_holding (s : State) (f : Fld) (v : Int) : (s.wrI f v).holding = s.holding := (rfl)
@[simp] theorem State.wrI_now (s : State) (f : Fld) (v : Int) : (s.wrI f v).now = s.now := (rfl)
@[simp] theorem State.wrI_fresh (s : State) (f : Fld) (v : Int) : (s.wrI f v).fresh = s.fresh := (rfl)
@[simp] theorem State.wrI_status (s : State) (f : Fld) (v : Int) : (s.wrI f v).status = s.status := (rfl)
@[simp] theorem State.wrI_value (s : State) (f : Fld) (v : Int) : (s.wrI f v).value = s.value := (rfl)
@[simp] theorem State.wrI_tb (s : State) (f : Fld) (v : Int) : (s.wrI f v).tb = s.tb := (rfl)
@[simp] theorem State.wrI_sched (s : State) (f : Fld) (v : Int) : (s.wrI f v).sched = s.sched := (rfl)
@[simp] theorem State.wrI_commit (s : State) (f : Fld) (v : Int) : (s.wrI f v).commit = s.commit := (rfl)
@[simp] theorem State.wrI_aux (s : State) (f : Fld) (v : Int) : (s.wrI f v).aux = s.aux := (rfl)
@[simp] theorem State.wrI_src (s : State) (f : Fld) (v : Int) : (s.wrI f v).src = s.src := (rfl)
@[simp] theorem State.wrI_slices (s : State) (f : Fld) (v : Int) : (s.wrI f v).slices = s.slices := (rfl)
@[simp] theorem State.wrI_cord (s : State) (f : Fld) (v : Int) : (s.wrI f v).cord = s.cord := (rfl)
@[simp] theorem State.wrI_dts (s : State) (f : Fld) (v : Int) : (s.wrI f v).dts = s.dts := (rfl)
@[simp] theorem State.wrI_flash (s : State) (f : Fld) (v : Int) : (s.wrI f v).flash = s.flash := (rfl)
@[simp] theorem State.wrI_lanes (s : State) (f : Fld) (v : Int) : (s.wrI f v).lanes = s.lanes := (rfl)
@[simp] theorem State.wrI_ground (s : State) (f : Fld) (v : Int) : (s.wrI f v).ground = s.ground := (rfl)
@[simp] theorem State.wrI_health (s : State) (f : Fld) (v : Int) : (s.wrI f v).health = s.health := (rfl)
@[simp] theorem State.wrI_hk (s : State) (f : Fld) (v : Int) : (s.wrI f v).hk = s.hk := (rfl)
@[simp] theorem State.wrI_sensors (s : State) (f : Fld) (v : Int) : (s.wrI f v).sensors = s.sensors := (rfl)
@[simp] theorem State.wrI_alarm (s : State) (f : Fld) (v : Int) : (s.wrI f v).alarm = s.alarm := (rfl)
@[simp] theorem State.wrI_memc (s : State) (f : Fld) (v : Int) : (s.wrI f v).memc = s.memc := (rfl)
@[simp] theorem State.wrI_comps (s : State) (f : Fld) (v : Int) : (s.wrI f v).comps = s.comps := (rfl)
@[simp] theorem State.wrI_secu (s : State) (f : Fld) (v : Int) : (s.wrI f v).secu = s.secu := (rfl)
@[simp] theorem State.wrI_boot (s : State) (f : Fld) (v : Int) : (s.wrI f v).boot = s.boot := (rfl)
@[simp] theorem State.wrI_mon (s : State) (f : Fld) (v : Int) : (s.wrI f v).mon = s.mon := (rfl)
@[simp] theorem State.wrI_net (s : State) (f : Fld) (v : Int) : (s.wrI f v).net = s.net := (rfl)
@[simp] theorem State.wrI_pins (s : State) (f : Fld) (v : Int) : (s.wrI f v).pins = s.pins := (rfl)
@[simp] theorem State.wrI_pending (s : State) (f : Fld) (v : Int) : (s.wrI f v).pending = s.pending := (rfl)

/-! ## State.bumpBy -/

@[simp] theorem State.bumpBy_holding (s : State) (f : Fld) (n : Nat) : (s.bumpBy f n).holding = s.holding := (rfl)
@[simp] theorem State.bumpBy_now (s : State) (f : Fld) (n : Nat) : (s.bumpBy f n).now = s.now := (rfl)
@[simp] theorem State.bumpBy_fresh (s : State) (f : Fld) (n : Nat) : (s.bumpBy f n).fresh = s.fresh := (rfl)
@[simp] theorem State.bumpBy_status (s : State) (f : Fld) (n : Nat) : (s.bumpBy f n).status = s.status := (rfl)
@[simp] theorem State.bumpBy_value (s : State) (f : Fld) (n : Nat) : (s.bumpBy f n).value = s.value := (rfl)
@[simp] theorem State.bumpBy_tb (s : State) (f : Fld) (n : Nat) : (s.bumpBy f n).tb = s.tb := (rfl)
@[simp] theorem State.bumpBy_sched (s : State) (f : Fld) (n : Nat) : (s.bumpBy f n).sched = s.sched := (rfl)
@[simp] theorem State.bumpBy_commit (s : State) (f : Fld) (n : Nat) : (s.bumpBy f n).commit = s.commit := (rfl)
@[simp] theorem State.bumpBy_aux (s : State) (f : Fld) (n : Nat) : (s.bumpBy f n).aux = s.aux := (rfl)
@[simp] theorem State.bumpBy_src (s : State) (f : Fld) (n : Nat) : (s.bumpBy f n).src = s.src := (rfl)
@[simp] theorem State.bumpBy_slices (s : State) (f : Fld) (n : Nat) : (s.bumpBy f n).slices = s.slices := (rfl)
@[simp] theorem State.bumpBy_cord (s : State) (f : Fld) (n : Nat) : (s.bumpBy f n).cord = s.cord := (rfl)
@[simp] theorem State.bumpBy_dts (s : State) (f : Fld) (n : Nat) : (s.bumpBy f n).dts = s.dts := (rfl)
@[simp] theorem State.bumpBy_flash (s : State) (f : Fld) (n : Nat) : (s.bumpBy f n).flash = s.flash := (rfl)
@[simp] theorem State.bumpBy_lanes (s : State) (f : Fld) (n : Nat) : (s.bumpBy f n).lanes = s.lanes := (rfl)
@[simp] theorem State.bumpBy_ground (s : State) (f : Fld) (n : Nat) : (s.bumpBy f n).ground = s.ground := (rfl)
@[simp] theorem State.bumpBy_health (s : State) (f : Fld) (n : Nat) : (s.bumpBy f n).health = s.health := (rfl)
@[simp] theorem State.bumpBy_hk (s : State) (f : Fld) (n : Nat) : (s.bumpBy f n).hk = s.hk := (rfl)
@[simp] theorem State.bumpBy_sensors (s : State) (f : Fld) (n : Nat) : (s.bumpBy f n).sensors = s.sensors := (rfl)
@[simp] theorem State.bumpBy_alarm (s : State) (f : Fld) (n : Nat) : (s.bumpBy f n).alarm = s.alarm := (rfl)
@[simp] theorem State.bumpBy_memc (s : State) (f : Fld) (n : Nat) : (s.bumpBy f n).memc = s.memc := (rfl)
@[simp] theorem State.bumpBy_comps (s : State) (f : Fld) (n : Nat) : (s.bumpBy f n).comps = s.comps := (rfl)
@[simp] theorem State.bumpBy_secu (s : State) (f : Fld) (n : Nat) : (s.bumpBy f n).secu = s.secu := (rfl)
@[simp] theorem State.bumpBy_boot (s : State) (f : Fld) (n : Nat) : (s.bumpBy f n).boot = s.boot := (rfl)
@[simp] theorem State.bumpBy_mon (s : State) (f : Fld) (n : Nat) : (s.bumpBy f n).mon = s.mon := (rfl)
@[simp] theorem State.bumpBy_net (s : State) (f : Fld) (n : Nat) : (s.bumpBy f n).net = s.net := (rfl)
@[simp] theorem State.bumpBy_pins (s : State) (f : Fld) (n : Nat) : (s.bumpBy f n).pins = s.pins := (rfl)
@[simp] theorem State.bumpBy_pending (s : State) (f : Fld) (n : Nat) : (s.bumpBy f n).pending = s.pending := (rfl)

/-! ## State.bump -/

@[simp] theorem State.bump_holding (s : State) (f : Fld) : (s.bump f).holding = s.holding := (rfl)
@[simp] theorem State.bump_now (s : State) (f : Fld) : (s.bump f).now = s.now := (rfl)
@[simp] theorem State.bump_fresh (s : State) (f : Fld) : (s.bump f).fresh = s.fresh := (rfl)
@[simp] theorem State.bump_status (s : State) (f : Fld) : (s.bump f).status = s.status := (rfl)
@[simp] theorem State.bump_value (s : State) (f : Fld) : (s.bump f).value = s.value := (rfl)
@[simp] theorem State.bump_tb (s : State) (f : Fld) : (s.bump f).tb = s.tb := (rfl)
@[simp] theorem State.bump_sched (s : State) (f : Fld) : (s.bump f).sched = s.sched := (rfl)
@[simp] theorem State.bump_commit (s : State) (f : Fld) : (s.bump f).commit = s.commit := (rfl)
@[simp] theorem State.bump_aux (s : State) (f : Fld) : (s.bump f).aux = s.aux := (rfl)
@[simp] theorem State.bump_src (s : State) (f : Fld) : (s.bump f).src = s.src := (rfl)
@[simp] theorem State.bump_slices (s : State) (f : Fld) : (s.bump f).slices = s.slices := (rfl)
@[simp] theorem State.bump_cord (s : State) (f : Fld) : (s.bump f).cord = s.cord := (rfl)
@[simp] theorem State.bump_dts (s : State) (f : Fld) : (s.bump f).dts = s.dts := (rfl)
@[simp] theorem State.bump_flash (s : State) (f : Fld) : (s.bump f).flash = s.flash := (rfl)
@[simp] theorem State.bump_lanes (s : State) (f : Fld) : (s.bump f).lanes = s.lanes := (rfl)
@[simp] theorem State.bump_ground (s : State) (f : Fld) : (s.bump f).ground = s.ground := (rfl)
@[simp] theorem State.bump_health (s : State) (f : Fld) : (s.bump f).health = s.health := (rfl)
@[simp] theorem State.bump_hk (s : State) (f : Fld) : (s.bump f).hk = s.hk := (rfl)
@[simp] theorem State.bump_sensors (s : State) (f : Fld) : (s.bump f).sensors = s.sensors := (rfl)
@[simp] theorem State.bump_alarm (s : State) (f : Fld) : (s.bump f).alarm = s.alarm := (rfl)
@[simp] theorem State.bump_memc (s : State) (f : Fld) : (s.bump f).memc = s.memc := (rfl)
@[simp] theorem State.bump_comps (s : State) (f : Fld) : (s.bump f).comps = s.comps := (rfl)
@[simp] theorem State.bump_secu (s : State) (f : Fld) : (s.bump f).secu = s.secu := (rfl)
@[simp] theorem State.bump_boot (s : State) (f : Fld) : (s.bump f).boot = s.boot := (rfl)
@[simp] theorem State.bump_mon (s : State) (f : Fld) : (s.bump f).mon = s.mon := (rfl)
@[simp] theorem State.bump_net (s : State) (f : Fld) : (s.bump f).net = s.net := (rfl)
@[simp] theorem State.bump_pins (s : State) (f : Fld) : (s.bump f).pins = s.pins := (rfl)
@[simp] theorem State.bump_pending (s : State) (f : Fld) : (s.bump f).pending = s.pending := (rfl)

/-! ## State.copyReg -/

@[simp] theorem State.copyReg_holding (s : State) (a b : Nat) : (s.copyReg a b).holding = s.holding := (rfl)
@[simp] theorem State.copyReg_now (s : State) (a b : Nat) : (s.copyReg a b).now = s.now := (rfl)
@[simp] theorem State.copyReg_fresh (s : State) (a b : Nat) : (s.copyReg a b).fresh = s.fresh := (rfl)
@[simp] theorem State.copyReg_status (s : State) (a b : Nat) : (s.copyReg a b).status = s.status := (rfl)
@[simp] theorem State.copyReg_value (s : State) (a b : Nat) : (s.copyReg a b).value = s.value := (rfl)
@[simp] theorem State.copyReg_tb (s : State) (a b : Nat) : (s.copyReg a b).tb = s.tb := (rfl)
@[simp] theorem State.copyReg_sched (s : State) (a b : Nat) : (s.copyReg a b).sched = s.sched := (rfl)
@[simp] theorem State.copyReg_commit (s : State) (a b : Nat) : (s.copyReg a b).commit = s.commit := (rfl)
@[simp] theorem State.copyReg_aux (s : State) (a b : Nat) : (s.copyReg a b).aux = s.aux := (rfl)
@[simp] theorem State.copyReg_src (s : State) (a b : Nat) : (s.copyReg a b).src = s.src := (rfl)
@[simp] theorem State.copyReg_slices (s : State) (a b : Nat) : (s.copyReg a b).slices = s.slices := (rfl)
@[simp] theorem State.copyReg_cord (s : State) (a b : Nat) : (s.copyReg a b).cord = s.cord := (rfl)
@[simp] theorem State.copyReg_dts (s : State) (a b : Nat) : (s.copyReg a b).dts = s.dts := (rfl)
@[simp] theorem State.copyReg_flash (s : State) (a b : Nat) : (s.copyReg a b).flash = s.flash := (rfl)
@[simp] theorem State.copyReg_lanes (s : State) (a b : Nat) : (s.copyReg a b).lanes = s.lanes := (rfl)
@[simp] theorem State.copyReg_ground (s : State) (a b : Nat) : (s.copyReg a b).ground = s.ground := (rfl)
@[simp] theorem State.copyReg_health (s : State) (a b : Nat) : (s.copyReg a b).health = s.health := (rfl)
@[simp] theorem State.copyReg_hk (s : State) (a b : Nat) : (s.copyReg a b).hk = s.hk := (rfl)
@[simp] theorem State.copyReg_sensors (s : State) (a b : Nat) : (s.copyReg a b).sensors = s.sensors := (rfl)
@[simp] theorem State.copyReg_alarm (s : State) (a b : Nat) : (s.copyReg a b).alarm = s.alarm := (rfl)
@[simp] theorem State.copyReg_memc (s : State) (a b : Nat) : (s.copyReg a b).memc = s.memc := (rfl)
@[simp] theorem State.copyReg_comps (s : State) (a b : Nat) : (s.copyReg a b).comps = s.comps := (rfl)
@[simp] theorem State.copyReg_secu (s : State) (a b : Nat) : (s.copyReg a b).secu = s.secu := (rfl)
@[simp] theorem State.copyReg_boot (s : State) (a b : Nat) : (s.copyReg a b).boot = s.boot := (rfl)
@[simp] theorem State.copyReg_mon (s : State) (a b : Nat) : (s.copyReg a b).mon = s.mon := (rfl)
@[simp] theorem State.copyReg_net (s : State) (a b : Nat) : (s.copyReg a b).net = s.net := (rfl)
@[simp] theorem State.copyReg_pins (s : State) (a b : Nat) : (s.copyReg a b).pins = s.pins := (rfl)
@[simp] theorem State.copyReg_pending (s : State) (a b : Nat) : (s.copyReg a b).pending = s.pending := (rfl)

/-! ## State.answer -/

@[simp] theorem State.answer_regs (s : State) (st : Status) : (s.answer st).regs = s.regs := (rfl)
@[simp] theorem State.answer_holding (s : State) (st : Status) : (s.answer st).holding = s.holding := (rfl)
@[simp] theorem State.answer_now (s : State) (st : Status) : (s.answer st).now = s.now := (rfl)
@[simp] theorem State.answer_fresh (s : State) (st : Status) : (s.answer st).fresh = s.fresh := (rfl)
@[simp] theorem State.answer_value (s : State) (st : Status) : (s.answer st).value = s.value := (rfl)
@[simp] theorem State.answer_tb (s : State) (st : Status) : (s.answer st).tb = s.tb := (rfl)
@[simp] theorem State.answer_sched (s : State) (st : Status) : (s.answer st).sched = s.sched := (rfl)
@[simp] theorem State.answer_commit (s : State) (st : Status) : (s.answer st).commit = s.commit := (rfl)
@[simp] theorem State.answer_aux (s : State) (st : Status) : (s.answer st).aux = s.aux := (rfl)
@[simp] theorem State.answer_src (s : State) (st : Status) : (s.answer st).src = s.src := (rfl)
@[simp] theorem State.answer_slices (s : State) (st : Status) : (s.answer st).slices = s.slices := (rfl)
@[simp] theorem State.answer_cord (s : State) (st : Status) : (s.answer st).cord = s.cord := (rfl)
@[simp] theorem State.answer_dts (s : State) (st : Status) : (s.answer st).dts = s.dts := (rfl)
@[simp] theorem State.answer_flash (s : State) (st : Status) : (s.answer st).flash = s.flash := (rfl)
@[simp] theorem State.answer_lanes (s : State) (st : Status) : (s.answer st).lanes = s.lanes := (rfl)
@[simp] theorem State.answer_ground (s : State) (st : Status) : (s.answer st).ground = s.ground := (rfl)
@[simp] theorem State.answer_health (s : State) (st : Status) : (s.answer st).health = s.health := (rfl)
@[simp] theorem State.answer_hk (s : State) (st : Status) : (s.answer st).hk = s.hk := (rfl)
@[simp] theorem State.answer_sensors (s : State) (st : Status) : (s.answer st).sensors = s.sensors := (rfl)
@[simp] theorem State.answer_alarm (s : State) (st : Status) : (s.answer st).alarm = s.alarm := (rfl)
@[simp] theorem State.answer_memc (s : State) (st : Status) : (s.answer st).memc = s.memc := (rfl)
@[simp] theorem State.answer_comps (s : State) (st : Status) : (s.answer st).comps = s.comps := (rfl)
@[simp] theorem State.answer_secu (s : State) (st : Status) : (s.answer st).secu = s.secu := (rfl)
@[simp] theorem State.answer_boot (s : State) (st : Status) : (s.answer st).boot = s.boot := (rfl)
@[simp] theorem State.answer_mon (s : State) (st : Status) : (s.answer st).mon = s.mon := (rfl)
@[simp] theorem State.answer_net (s : State) (st : Status) : (s.answer st).net = s.net := (rfl)
@[simp] theorem State.answer_pins (s : State) (st : Status) : (s.answer st).pins = s.pins := (rfl)
@[simp] theorem State.answer_pending (s : State) (st : Status) : (s.answer st).pending = s.pending := (rfl)
@[simp] theorem State.answer_reg (s : State) (st : Status) (j : Nat) : (s.answer st).reg j = s.reg j := (rfl)
@[simp] theorem State.answer_rd (s : State) (st : Status) (f2 : Fld) : (s.answer st).rd f2 = s.rd f2 := (rfl)

/-! ## State.setBob -/

@[simp] theorem State.setBob_regs (s : State) (b : Nat) (v : Bobbin) : (s.setBob b v).regs = s.regs := (rfl)
@[simp] theorem State.setBob_holding (s : State) (b : Nat) (v : Bobbin) : (s.setBob b v).holding = s.holding := (rfl)
@[simp] theorem State.setBob_now (s : State) (b : Nat) (v : Bobbin) : (s.setBob b v).now = s.now := (rfl)
@[simp] theorem State.setBob_fresh (s : State) (b : Nat) (v : Bobbin) : (s.setBob b v).fresh = s.fresh := (rfl)
@[simp] theorem State.setBob_status (s : State) (b : Nat) (v : Bobbin) : (s.setBob b v).status = s.status := (rfl)
@[simp] theorem State.setBob_value (s : State) (b : Nat) (v : Bobbin) : (s.setBob b v).value = s.value := (rfl)
@[simp] theorem State.setBob_tb (s : State) (b : Nat) (v : Bobbin) : (s.setBob b v).tb = s.tb := (rfl)
@[simp] theorem State.setBob_sched (s : State) (b : Nat) (v : Bobbin) : (s.setBob b v).sched = s.sched := (rfl)
@[simp] theorem State.setBob_commit (s : State) (b : Nat) (v : Bobbin) : (s.setBob b v).commit = s.commit := (rfl)
@[simp] theorem State.setBob_aux (s : State) (b : Nat) (v : Bobbin) : (s.setBob b v).aux = s.aux := (rfl)
@[simp] theorem State.setBob_src (s : State) (b : Nat) (v : Bobbin) : (s.setBob b v).src = s.src := (rfl)
@[simp] theorem State.setBob_slices (s : State) (b : Nat) (v : Bobbin) : (s.setBob b v).slices = s.slices := (rfl)
@[simp] theorem State.setBob_cord (s : State) (b : Nat) (v : Bobbin) : (s.setBob b v).cord = s.cord := (rfl)
@[simp] theorem State.setBob_dts (s : State) (b : Nat) (v : Bobbin) : (s.setBob b v).dts = s.dts := (rfl)
@[simp] theorem State.setBob_flash (s : State) (b : Nat) (v : Bobbin) : (s.setBob b v).flash = s.flash := (rfl)
@[simp] theorem State.setBob_lanes (s : State) (b : Nat) (v : Bobbin) : (s.setBob b v).lanes = s.lanes := (rfl)
@[simp] theorem State.setBob_health (s : State) (b : Nat) (v : Bobbin) : (s.setBob b v).health = s.health := (rfl)
@[simp] theorem State.setBob_hk (s : State) (b : Nat) (v : Bobbin) : (s.setBob b v).hk = s.hk := (rfl)
@[simp] theorem State.setBob_sensors (s : State) (b : Nat) (v : Bobbin) : (s.setBob b v).sensors = s.sensors := (rfl)
@[simp] theorem State.setBob_alarm (s : State) (b : Nat) (v : Bobbin) : (s.setBob b v).alarm = s.alarm := (rfl)
@[simp] theorem State.setBob_memc (s : State) (b : Nat) (v : Bobbin) : (s.setBob b v).memc = s.memc := (rfl)
@[simp] theorem State.setBob_comps (s : State) (b : Nat) (v : Bobbin) : (s.setBob b v).comps = s.comps := (rfl)
@[simp] theorem State.setBob_secu (s : State) (b : Nat) (v : Bobbin) : (s.setBob b v).secu = s.secu := (rfl)
@[simp] theorem State.setBob_boot (s : State) (b : Nat) (v : Bobbin) : (s.setBob b v).boot = s.boot := (rfl)
@[simp] theorem State.setBob_mon (s : State) (b : Nat) (v : Bobbin) : (s.setBob b v).mon = s.mon := (rfl)
@[simp] theorem State.setBob_net (s : State) (b : Nat) (v : Bobbin) : (s.setBob b v).net = s.net := (rfl)
@[simp] theorem State.setBob_pins (s : State) (b : Nat) (v : Bobbin) : (s.setBob b v).pins = s.pins := (rfl)
@[simp] theorem State.setBob_pending (s : State) (b : Nat) (v : Bobbin) : (s.setBob b v).pending = s.pending := (rfl)
@[simp] theorem State.setBob_reg (s : State) (b : Nat) (v : Bobbin) (j : Nat) : (s.setBob b v).reg j = s.reg j := (rfl)
@[simp] theorem State.setBob_rd (s : State) (b : Nat) (v : Bobbin) (f2 : Fld) : (s.setBob b v).rd f2 = s.rd f2 := (rfl)

/-! ## State.modNet -/

@[simp] theorem State.modNet_regs (s : State) (f : Net → Net) : (s.modNet f).regs = s.regs := (rfl)
@[simp] theorem State.modNet_holding (s : State) (f : Net → Net) : (s.modNet f).holding = s.holding := (rfl)
@[simp] theorem State.modNet_now (s : State) (f : Net → Net) : (s.modNet f).now = s.now := (rfl)
@[simp] theorem State.modNet_fresh (s : State) (f : Net → Net) : (s.modNet f).fresh = s.fresh := (rfl)
@[simp] theorem State.modNet_status (s : State) (f : Net → Net) : (s.modNet f).status = s.status := (rfl)
@[simp] theorem State.modNet_value (s : State) (f : Net → Net) : (s.modNet f).value = s.value := (rfl)
@[simp] theorem State.modNet_tb (s : State) (f : Net → Net) : (s.modNet f).tb = s.tb := (rfl)
@[simp] theorem State.modNet_sched (s : State) (f : Net → Net) : (s.modNet f).sched = s.sched := (rfl)
@[simp] theorem State.modNet_commit (s : State) (f : Net → Net) : (s.modNet f).commit = s.commit := (rfl)
@[simp] theorem State.modNet_aux (s : State) (f : Net → Net) : (s.modNet f).aux = s.aux := (rfl)
@[simp] theorem State.modNet_src (s : State) (f : Net → Net) : (s.modNet f).src = s.src := (rfl)
@[simp] theorem State.modNet_slices (s : State) (f : Net → Net) : (s.modNet f).slices = s.slices := (rfl)
@[simp] theorem State.modNet_cord (s : State) (f : Net → Net) : (s.modNet f).cord = s.cord := (rfl)
@[simp] theorem State.modNet_dts (s : State) (f : Net → Net) : (s.modNet f).dts = s.dts := (rfl)
@[simp] theorem State.modNet_flash (s : State) (f : Net → Net) : (s.modNet f).flash = s.flash := (rfl)
@[simp] theorem State.modNet_lanes (s : State) (f : Net → Net) : (s.modNet f).lanes = s.lanes := (rfl)
@[simp] theorem State.modNet_ground (s : State) (f : Net → Net) : (s.modNet f).ground = s.ground := (rfl)
@[simp] theorem State.modNet_health (s : State) (f : Net → Net) : (s.modNet f).health = s.health := (rfl)
@[simp] theorem State.modNet_hk (s : State) (f : Net → Net) : (s.modNet f).hk = s.hk := (rfl)
@[simp] theorem State.modNet_sensors (s : State) (f : Net → Net) : (s.modNet f).sensors = s.sensors := (rfl)
@[simp] theorem State.modNet_alarm (s : State) (f : Net → Net) : (s.modNet f).alarm = s.alarm := (rfl)
@[simp] theorem State.modNet_memc (s : State) (f : Net → Net) : (s.modNet f).memc = s.memc := (rfl)
@[simp] theorem State.modNet_comps (s : State) (f : Net → Net) : (s.modNet f).comps = s.comps := (rfl)
@[simp] theorem State.modNet_secu (s : State) (f : Net → Net) : (s.modNet f).secu = s.secu := (rfl)
@[simp] theorem State.modNet_boot (s : State) (f : Net → Net) : (s.modNet f).boot = s.boot := (rfl)
@[simp] theorem State.modNet_mon (s : State) (f : Net → Net) : (s.modNet f).mon = s.mon := (rfl)
@[simp] theorem State.modNet_pins (s : State) (f : Net → Net) : (s.modNet f).pins = s.pins := (rfl)
@[simp] theorem State.modNet_pending (s : State) (f : Net → Net) : (s.modNet f).pending = s.pending := (rfl)
@[simp] theorem State.modNet_reg (s : State) (f : Net → Net) (j : Nat) : (s.modNet f).reg j = s.reg j := (rfl)
@[simp] theorem State.modNet_rd (s : State) (f : Net → Net) (f2 : Fld) : (s.modNet f).rd f2 = s.rd f2 := (rfl)

/-! ## State.modFlash -/

@[simp] theorem State.modFlash_regs (s : State) (f : Flash → Flash) : (s.modFlash f).regs = s.regs := (rfl)
@[simp] theorem State.modFlash_holding (s : State) (f : Flash → Flash) : (s.modFlash f).holding = s.holding := (rfl)
@[simp] theorem State.modFlash_now (s : State) (f : Flash → Flash) : (s.modFlash f).now = s.now := (rfl)
@[simp] theorem State.modFlash_fresh (s : State) (f : Flash → Flash) : (s.modFlash f).fresh = s.fresh := (rfl)
@[simp] theorem State.modFlash_status (s : State) (f : Flash → Flash) : (s.modFlash f).status = s.status := (rfl)
@[simp] theorem State.modFlash_value (s : State) (f : Flash → Flash) : (s.modFlash f).value = s.value := (rfl)
@[simp] theorem State.modFlash_tb (s : State) (f : Flash → Flash) : (s.modFlash f).tb = s.tb := (rfl)
@[simp] theorem State.modFlash_sched (s : State) (f : Flash → Flash) : (s.modFlash f).sched = s.sched := (rfl)
@[simp] theorem State.modFlash_commit (s : State) (f : Flash → Flash) : (s.modFlash f).commit = s.commit := (rfl)
@[simp] theorem State.modFlash_aux (s : State) (f : Flash → Flash) : (s.modFlash f).aux = s.aux := (rfl)
@[simp] theorem State.modFlash_src (s : State) (f : Flash → Flash) : (s.modFlash f).src = s.src := (rfl)
@[simp] theorem State.modFlash_slices (s : State) (f : Flash → Flash) : (s.modFlash f).slices = s.slices := (rfl)
@[simp] theorem State.modFlash_cord (s : State) (f : Flash → Flash) : (s.modFlash f).cord = s.cord := (rfl)
@[simp] theorem State.modFlash_dts (s : State) (f : Flash → Flash) : (s.modFlash f).dts = s.dts := (rfl)
@[simp] theorem State.modFlash_lanes (s : State) (f : Flash → Flash) : (s.modFlash f).lanes = s.lanes := (rfl)
@[simp] theorem State.modFlash_ground (s : State) (f : Flash → Flash) : (s.modFlash f).ground = s.ground := (rfl)
@[simp] theorem State.modFlash_health (s : State) (f : Flash → Flash) : (s.modFlash f).health = s.health := (rfl)
@[simp] theorem State.modFlash_hk (s : State) (f : Flash → Flash) : (s.modFlash f).hk = s.hk := (rfl)
@[simp] theorem State.modFlash_sensors (s : State) (f : Flash → Flash) : (s.modFlash f).sensors = s.sensors := (rfl)
@[simp] theorem State.modFlash_alarm (s : State) (f : Flash → Flash) : (s.modFlash f).alarm = s.alarm := (rfl)
@[simp] theorem State.modFlash_memc (s : State) (f : Flash → Flash) : (s.modFlash f).memc = s.memc := (rfl)
@[simp] theorem State.modFlash_comps (s : State) (f : Flash → Flash) : (s.modFlash f).comps = s.comps := (rfl)
@[simp] theorem State.modFlash_secu (s : State) (f : Flash → Flash) : (s.modFlash f).secu = s.secu := (rfl)
@[simp] theorem State.modFlash_boot (s : State) (f : Flash → Flash) : (s.modFlash f).boot = s.boot := (rfl)
@[simp] theorem State.modFlash_mon (s : State) (f : Flash → Flash) : (s.modFlash f).mon = s.mon := (rfl)
@[simp] theorem State.modFlash_net (s : State) (f : Flash → Flash) : (s.modFlash f).net = s.net := (rfl)
@[simp] theorem State.modFlash_pins (s : State) (f : Flash → Flash) : (s.modFlash f).pins = s.pins := (rfl)
@[simp] theorem State.modFlash_pending (s : State) (f : Flash → Flash) : (s.modFlash f).pending = s.pending := (rfl)
@[simp] theorem State.modFlash_reg (s : State) (f : Flash → Flash) (j : Nat) : (s.modFlash f).reg j = s.reg j := (rfl)
@[simp] theorem State.modFlash_rd (s : State) (f : Flash → Flash) (f2 : Fld) : (s.modFlash f).rd f2 = s.rd f2 := (rfl)

/-! ## State.modMon -/

@[simp] theorem State.modMon_regs (s : State) (f : Mon → Mon) : (s.modMon f).regs = s.regs := (rfl)
@[simp] theorem State.modMon_holding (s : State) (f : Mon → Mon) : (s.modMon f).holding = s.holding := (rfl)
@[simp] theorem State.modMon_now (s : State) (f : Mon → Mon) : (s.modMon f).now = s.now := (rfl)
@[simp] theorem State.modMon_fresh (s : State) (f : Mon → Mon) : (s.modMon f).fresh = s.fresh := (rfl)
@[simp] theorem State.modMon_status (s : State) (f : Mon → Mon) : (s.modMon f).status = s.status := (rfl)
@[simp] theorem State.modMon_value (s : State) (f : Mon → Mon) : (s.modMon f).value = s.value := (rfl)
@[simp] theorem State.modMon_tb (s : State) (f : Mon → Mon) : (s.modMon f).tb = s.tb := (rfl)
@[simp] theorem State.modMon_sched (s : State) (f : Mon → Mon) : (s.modMon f).sched = s.sched := (rfl)
@[simp] theorem State.modMon_commit (s : State) (f : Mon → Mon) : (s.modMon f).commit = s.commit := (rfl)
@[simp] theorem State.modMon_aux (s : State) (f : Mon → Mon) : (s.modMon f).aux = s.aux := (rfl)
@[simp] theorem State.modMon_src (s : State) (f : Mon → Mon) : (s.modMon f).src = s.src := (rfl)
@[simp] theorem State.modMon_slices (s : State) (f : Mon → Mon) : (s.modMon f).slices = s.slices := (rfl)
@[simp] theorem State.modMon_cord (s : State) (f : Mon → Mon) : (s.modMon f).cord = s.cord := (rfl)
@[simp] theorem State.modMon_dts (s : State) (f : Mon → Mon) : (s.modMon f).dts = s.dts := (rfl)
@[simp] theorem State.modMon_flash (s : State) (f : Mon → Mon) : (s.modMon f).flash = s.flash := (rfl)
@[simp] theorem State.modMon_lanes (s : State) (f : Mon → Mon) : (s.modMon f).lanes = s.lanes := (rfl)
@[simp] theorem State.modMon_ground (s : State) (f : Mon → Mon) : (s.modMon f).ground = s.ground := (rfl)
@[simp] theorem State.modMon_health (s : State) (f : Mon → Mon) : (s.modMon f).health = s.health := (rfl)
@[simp] theorem State.modMon_hk (s : State) (f : Mon → Mon) : (s.modMon f).hk = s.hk := (rfl)
@[simp] theorem State.modMon_sensors (s : State) (f : Mon → Mon) : (s.modMon f).sensors = s.sensors := (rfl)
@[simp] theorem State.modMon_alarm (s : State) (f : Mon → Mon) : (s.modMon f).alarm = s.alarm := (rfl)
@[simp] theorem State.modMon_memc (s : State) (f : Mon → Mon) : (s.modMon f).memc = s.memc := (rfl)
@[simp] theorem State.modMon_comps (s : State) (f : Mon → Mon) : (s.modMon f).comps = s.comps := (rfl)
@[simp] theorem State.modMon_secu (s : State) (f : Mon → Mon) : (s.modMon f).secu = s.secu := (rfl)
@[simp] theorem State.modMon_boot (s : State) (f : Mon → Mon) : (s.modMon f).boot = s.boot := (rfl)
@[simp] theorem State.modMon_net (s : State) (f : Mon → Mon) : (s.modMon f).net = s.net := (rfl)
@[simp] theorem State.modMon_pins (s : State) (f : Mon → Mon) : (s.modMon f).pins = s.pins := (rfl)
@[simp] theorem State.modMon_pending (s : State) (f : Mon → Mon) : (s.modMon f).pending = s.pending := (rfl)
@[simp] theorem State.modMon_reg (s : State) (f : Mon → Mon) (j : Nat) : (s.modMon f).reg j = s.reg j := (rfl)
@[simp] theorem State.modMon_rd (s : State) (f : Mon → Mon) (f2 : Fld) : (s.modMon f).rd f2 = s.rd f2 := (rfl)

/-! ## State.modSecu -/

@[simp] theorem State.modSecu_regs (s : State) (f : Secu → Secu) : (s.modSecu f).regs = s.regs := (rfl)
@[simp] theorem State.modSecu_holding (s : State) (f : Secu → Secu) : (s.modSecu f).holding = s.holding := (rfl)
@[simp] theorem State.modSecu_now (s : State) (f : Secu → Secu) : (s.modSecu f).now = s.now := (rfl)
@[simp] theorem State.modSecu_fresh (s : State) (f : Secu → Secu) : (s.modSecu f).fresh = s.fresh := (rfl)
@[simp] theorem State.modSecu_status (s : State) (f : Secu → Secu) : (s.modSecu f).status = s.status := (rfl)
@[simp] theorem State.modSecu_value (s : State) (f : Secu → Secu) : (s.modSecu f).value = s.value := (rfl)
@[simp] theorem State.modSecu_tb (s : State) (f : Secu → Secu) : (s.modSecu f).tb = s.tb := (rfl)
@[simp] theorem State.modSecu_sched (s : State) (f : Secu → Secu) : (s.modSecu f).sched = s.sched := (rfl)
@[simp] theorem State.modSecu_commit (s : State) (f : Secu → Secu) : (s.modSecu f).commit = s.commit := (rfl)
@[simp] theorem State.modSecu_aux (s : State) (f : Secu → Secu) : (s.modSecu f).aux = s.aux := (rfl)
@[simp] theorem State.modSecu_src (s : State) (f : Secu → Secu) : (s.modSecu f).src = s.src := (rfl)
@[simp] theorem State.modSecu_slices (s : State) (f : Secu → Secu) : (s.modSecu f).slices = s.slices := (rfl)
@[simp] theorem State.modSecu_cord (s : State) (f : Secu → Secu) : (s.modSecu f).cord = s.cord := (rfl)
@[simp] theorem State.modSecu_dts (s : State) (f : Secu → Secu) : (s.modSecu f).dts = s.dts := (rfl)
@[simp] theorem State.modSecu_flash (s : State) (f : Secu → Secu) : (s.modSecu f).flash = s.flash := (rfl)
@[simp] theorem State.modSecu_lanes (s : State) (f : Secu → Secu) : (s.modSecu f).lanes = s.lanes := (rfl)
@[simp] theorem State.modSecu_ground (s : State) (f : Secu → Secu) : (s.modSecu f).ground = s.ground := (rfl)
@[simp] theorem State.modSecu_health (s : State) (f : Secu → Secu) : (s.modSecu f).health = s.health := (rfl)
@[simp] theorem State.modSecu_hk (s : State) (f : Secu → Secu) : (s.modSecu f).hk = s.hk := (rfl)
@[simp] theorem State.modSecu_sensors (s : State) (f : Secu → Secu) : (s.modSecu f).sensors = s.sensors := (rfl)
@[simp] theorem State.modSecu_alarm (s : State) (f : Secu → Secu) : (s.modSecu f).alarm = s.alarm := (rfl)
@[simp] theorem State.modSecu_memc (s : State) (f : Secu → Secu) : (s.modSecu f).memc = s.memc := (rfl)
@[simp] theorem State.modSecu_comps (s : State) (f : Secu → Secu) : (s.modSecu f).comps = s.comps := (rfl)
@[simp] theorem State.modSecu_boot (s : State) (f : Secu → Secu) : (s.modSecu f).boot = s.boot := (rfl)
@[simp] theorem State.modSecu_mon (s : State) (f : Secu → Secu) : (s.modSecu f).mon = s.mon := (rfl)
@[simp] theorem State.modSecu_net (s : State) (f : Secu → Secu) : (s.modSecu f).net = s.net := (rfl)
@[simp] theorem State.modSecu_pins (s : State) (f : Secu → Secu) : (s.modSecu f).pins = s.pins := (rfl)
@[simp] theorem State.modSecu_pending (s : State) (f : Secu → Secu) : (s.modSecu f).pending = s.pending := (rfl)
@[simp] theorem State.modSecu_reg (s : State) (f : Secu → Secu) (j : Nat) : (s.modSecu f).reg j = s.reg j := (rfl)
@[simp] theorem State.modSecu_rd (s : State) (f : Secu → Secu) (f2 : Fld) : (s.modSecu f).rd f2 = s.rd f2 := (rfl)

/-! ## State.modBoot -/

@[simp] theorem State.modBoot_regs (s : State) (f : Boot → Boot) : (s.modBoot f).regs = s.regs := (rfl)
@[simp] theorem State.modBoot_holding (s : State) (f : Boot → Boot) : (s.modBoot f).holding = s.holding := (rfl)
@[simp] theorem State.modBoot_now (s : State) (f : Boot → Boot) : (s.modBoot f).now = s.now := (rfl)
@[simp] theorem State.modBoot_fresh (s : State) (f : Boot → Boot) : (s.modBoot f).fresh = s.fresh := (rfl)
@[simp] theorem State.modBoot_status (s : State) (f : Boot → Boot) : (s.modBoot f).status = s.status := (rfl)
@[simp] theorem State.modBoot_value (s : State) (f : Boot → Boot) : (s.modBoot f).value = s.value := (rfl)
@[simp] theorem State.modBoot_tb (s : State) (f : Boot → Boot) : (s.modBoot f).tb = s.tb := (rfl)
@[simp] theorem State.modBoot_sched (s : State) (f : Boot → Boot) : (s.modBoot f).sched = s.sched := (rfl)
@[simp] theorem State.modBoot_commit (s : State) (f : Boot → Boot) : (s.modBoot f).commit = s.commit := (rfl)
@[simp] theorem State.modBoot_aux (s : State) (f : Boot → Boot) : (s.modBoot f).aux = s.aux := (rfl)
@[simp] theorem State.modBoot_src (s : State) (f : Boot → Boot) : (s.modBoot f).src = s.src := (rfl)
@[simp] theorem State.modBoot_slices (s : State) (f : Boot → Boot) : (s.modBoot f).slices = s.slices := (rfl)
@[simp] theorem State.modBoot_cord (s : State) (f : Boot → Boot) : (s.modBoot f).cord = s.cord := (rfl)
@[simp] theorem State.modBoot_dts (s : State) (f : Boot → Boot) : (s.modBoot f).dts = s.dts := (rfl)
@[simp] theorem State.modBoot_flash (s : State) (f : Boot → Boot) : (s.modBoot f).flash = s.flash := (rfl)
@[simp] theorem State.modBoot_lanes (s : State) (f : Boot → Boot) : (s.modBoot f).lanes = s.lanes := (rfl)
@[simp] theorem State.modBoot_ground (s : State) (f : Boot → Boot) : (s.modBoot f).ground = s.ground := (rfl)
@[simp] theorem State.modBoot_health (s : State) (f : Boot → Boot) : (s.modBoot f).health = s.health := (rfl)
@[simp] theorem State.modBoot_hk (s : State) (f : Boot → Boot) : (s.modBoot f).hk = s.hk := (rfl)
@[simp] theorem State.modBoot_sensors (s : State) (f : Boot → Boot) : (s.modBoot f).sensors = s.sensors := (rfl)
@[simp] theorem State.modBoot_alarm (s : State) (f : Boot → Boot) : (s.modBoot f).alarm = s.alarm := (rfl)
@[simp] theorem State.modBoot_memc (s : State) (f : Boot → Boot) : (s.modBoot f).memc = s.memc := (rfl)
@[simp] theorem State.modBoot_comps (s : State) (f : Boot → Boot) : (s.modBoot f).comps = s.comps := (rfl)
@[simp] theorem State.modBoot_secu (s : State) (f : Boot → Boot) : (s.modBoot f).secu = s.secu := (rfl)
@[simp] theorem State.modBoot_mon (s : State) (f : Boot → Boot) : (s.modBoot f).mon = s.mon := (rfl)
@[simp] theorem State.modBoot_net (s : State) (f : Boot → Boot) : (s.modBoot f).net = s.net := (rfl)
@[simp] theorem State.modBoot_pins (s : State) (f : Boot → Boot) : (s.modBoot f).pins = s.pins := (rfl)
@[simp] theorem State.modBoot_pending (s : State) (f : Boot → Boot) : (s.modBoot f).pending = s.pending := (rfl)
@[simp] theorem State.modBoot_reg (s : State) (f : Boot → Boot) (j : Nat) : (s.modBoot f).reg j = s.reg j := (rfl)
@[simp] theorem State.modBoot_rd (s : State) (f : Boot → Boot) (f2 : Fld) : (s.modBoot f).rd f2 = s.rd f2 := (rfl)

/-! ## State.modHk -/

@[simp] theorem State.modHk_regs (s : State) (f : Hk → Hk) : (s.modHk f).regs = s.regs := (rfl)
@[simp] theorem State.modHk_holding (s : State) (f : Hk → Hk) : (s.modHk f).holding = s.holding := (rfl)
@[simp] theorem State.modHk_now (s : State) (f : Hk → Hk) : (s.modHk f).now = s.now := (rfl)
@[simp] theorem State.modHk_fresh (s : State) (f : Hk → Hk) : (s.modHk f).fresh = s.fresh := (rfl)
@[simp] theorem State.modHk_status (s : State) (f : Hk → Hk) : (s.modHk f).status = s.status := (rfl)
@[simp] theorem State.modHk_value (s : State) (f : Hk → Hk) : (s.modHk f).value = s.value := (rfl)
@[simp] theorem State.modHk_tb (s : State) (f : Hk → Hk) : (s.modHk f).tb = s.tb := (rfl)
@[simp] theorem State.modHk_sched (s : State) (f : Hk → Hk) : (s.modHk f).sched = s.sched := (rfl)
@[simp] theorem State.modHk_commit (s : State) (f : Hk → Hk) : (s.modHk f).commit = s.commit := (rfl)
@[simp] theorem State.modHk_aux (s : State) (f : Hk → Hk) : (s.modHk f).aux = s.aux := (rfl)
@[simp] theorem State.modHk_src (s : State) (f : Hk → Hk) : (s.modHk f).src = s.src := (rfl)
@[simp] theorem State.modHk_slices (s : State) (f : Hk → Hk) : (s.modHk f).slices = s.slices := (rfl)
@[simp] theorem State.modHk_cord (s : State) (f : Hk → Hk) : (s.modHk f).cord = s.cord := (rfl)
@[simp] theorem State.modHk_dts (s : State) (f : Hk → Hk) : (s.modHk f).dts = s.dts := (rfl)
@[simp] theorem State.modHk_flash (s : State) (f : Hk → Hk) : (s.modHk f).flash = s.flash := (rfl)
@[simp] theorem State.modHk_lanes (s : State) (f : Hk → Hk) : (s.modHk f).lanes = s.lanes := (rfl)
@[simp] theorem State.modHk_ground (s : State) (f : Hk → Hk) : (s.modHk f).ground = s.ground := (rfl)
@[simp] theorem State.modHk_health (s : State) (f : Hk → Hk) : (s.modHk f).health = s.health := (rfl)
@[simp] theorem State.modHk_sensors (s : State) (f : Hk → Hk) : (s.modHk f).sensors = s.sensors := (rfl)
@[simp] theorem State.modHk_alarm (s : State) (f : Hk → Hk) : (s.modHk f).alarm = s.alarm := (rfl)
@[simp] theorem State.modHk_memc (s : State) (f : Hk → Hk) : (s.modHk f).memc = s.memc := (rfl)
@[simp] theorem State.modHk_comps (s : State) (f : Hk → Hk) : (s.modHk f).comps = s.comps := (rfl)
@[simp] theorem State.modHk_secu (s : State) (f : Hk → Hk) : (s.modHk f).secu = s.secu := (rfl)
@[simp] theorem State.modHk_boot (s : State) (f : Hk → Hk) : (s.modHk f).boot = s.boot := (rfl)
@[simp] theorem State.modHk_mon (s : State) (f : Hk → Hk) : (s.modHk f).mon = s.mon := (rfl)
@[simp] theorem State.modHk_net (s : State) (f : Hk → Hk) : (s.modHk f).net = s.net := (rfl)
@[simp] theorem State.modHk_pins (s : State) (f : Hk → Hk) : (s.modHk f).pins = s.pins := (rfl)
@[simp] theorem State.modHk_pending (s : State) (f : Hk → Hk) : (s.modHk f).pending = s.pending := (rfl)
@[simp] theorem State.modHk_reg (s : State) (f : Hk → Hk) (j : Nat) : (s.modHk f).reg j = s.reg j := (rfl)
@[simp] theorem State.modHk_rd (s : State) (f : Hk → Hk) (f2 : Fld) : (s.modHk f).rd f2 = s.rd f2 := (rfl)

/-! ## State.setSlices -/

@[simp] theorem State.setSlices_regs (s : State) (f : Slices → Slices) : (s.setSlices f).regs = s.regs := (rfl)
@[simp] theorem State.setSlices_holding (s : State) (f : Slices → Slices) : (s.setSlices f).holding = s.holding := (rfl)
@[simp] theorem State.setSlices_now (s : State) (f : Slices → Slices) : (s.setSlices f).now = s.now := (rfl)
@[simp] theorem State.setSlices_fresh (s : State) (f : Slices → Slices) : (s.setSlices f).fresh = s.fresh := (rfl)
@[simp] theorem State.setSlices_status (s : State) (f : Slices → Slices) : (s.setSlices f).status = s.status := (rfl)
@[simp] theorem State.setSlices_value (s : State) (f : Slices → Slices) : (s.setSlices f).value = s.value := (rfl)
@[simp] theorem State.setSlices_tb (s : State) (f : Slices → Slices) : (s.setSlices f).tb = s.tb := (rfl)
@[simp] theorem State.setSlices_sched (s : State) (f : Slices → Slices) : (s.setSlices f).sched = s.sched := (rfl)
@[simp] theorem State.setSlices_commit (s : State) (f : Slices → Slices) : (s.setSlices f).commit = s.commit := (rfl)
@[simp] theorem State.setSlices_aux (s : State) (f : Slices → Slices) : (s.setSlices f).aux = s.aux := (rfl)
@[simp] theorem State.setSlices_src (s : State) (f : Slices → Slices) : (s.setSlices f).src = s.src := (rfl)
@[simp] theorem State.setSlices_cord (s : State) (f : Slices → Slices) : (s.setSlices f).cord = s.cord := (rfl)
@[simp] theorem State.setSlices_dts (s : State) (f : Slices → Slices) : (s.setSlices f).dts = s.dts := (rfl)
@[simp] theorem State.setSlices_flash (s : State) (f : Slices → Slices) : (s.setSlices f).flash = s.flash := (rfl)
@[simp] theorem State.setSlices_lanes (s : State) (f : Slices → Slices) : (s.setSlices f).lanes = s.lanes := (rfl)
@[simp] theorem State.setSlices_ground (s : State) (f : Slices → Slices) : (s.setSlices f).ground = s.ground := (rfl)
@[simp] theorem State.setSlices_health (s : State) (f : Slices → Slices) : (s.setSlices f).health = s.health := (rfl)
@[simp] theorem State.setSlices_hk (s : State) (f : Slices → Slices) : (s.setSlices f).hk = s.hk := (rfl)
@[simp] theorem State.setSlices_sensors (s : State) (f : Slices → Slices) : (s.setSlices f).sensors = s.sensors := (rfl)
@[simp] theorem State.setSlices_alarm (s : State) (f : Slices → Slices) : (s.setSlices f).alarm = s.alarm := (rfl)
@[simp] theorem State.setSlices_memc (s : State) (f : Slices → Slices) : (s.setSlices f).memc = s.memc := (rfl)
@[simp] theorem State.setSlices_comps (s : State) (f : Slices → Slices) : (s.setSlices f).comps = s.comps := (rfl)
@[simp] theorem State.setSlices_secu (s : State) (f : Slices → Slices) : (s.setSlices f).secu = s.secu := (rfl)
@[simp] theorem State.setSlices_boot (s : State) (f : Slices → Slices) : (s.setSlices f).boot = s.boot := (rfl)
@[simp] theorem State.setSlices_mon (s : State) (f : Slices → Slices) : (s.setSlices f).mon = s.mon := (rfl)
@[simp] theorem State.setSlices_net (s : State) (f : Slices → Slices) : (s.setSlices f).net = s.net := (rfl)
@[simp] theorem State.setSlices_pins (s : State) (f : Slices → Slices) : (s.setSlices f).pins = s.pins := (rfl)
@[simp] theorem State.setSlices_pending (s : State) (f : Slices → Slices) : (s.setSlices f).pending = s.pending := (rfl)
@[simp] theorem State.setSlices_reg (s : State) (f : Slices → Slices) (j : Nat) : (s.setSlices f).reg j = s.reg j := (rfl)
@[simp] theorem State.setSlices_rd (s : State) (f : Slices → Slices) (f2 : Fld) : (s.setSlices f).rd f2 = s.rd f2 := (rfl)

/-! ## State.modTb -/

@[simp] theorem State.modTb_regs (s : State) (f : Timebase → Timebase) : (s.modTb f).regs = s.regs := (rfl)
@[simp] theorem State.modTb_holding (s : State) (f : Timebase → Timebase) : (s.modTb f).holding = s.holding := (rfl)
@[simp] theorem State.modTb_now (s : State) (f : Timebase → Timebase) : (s.modTb f).now = s.now := (rfl)
@[simp] theorem State.modTb_fresh (s : State) (f : Timebase → Timebase) : (s.modTb f).fresh = s.fresh := (rfl)
@[simp] theorem State.modTb_status (s : State) (f : Timebase → Timebase) : (s.modTb f).status = s.status := (rfl)
@[simp] theorem State.modTb_value (s : State) (f : Timebase → Timebase) : (s.modTb f).value = s.value := (rfl)
@[simp] theorem State.modTb_sched (s : State) (f : Timebase → Timebase) : (s.modTb f).sched = s.sched := (rfl)
@[simp] theorem State.modTb_commit (s : State) (f : Timebase → Timebase) : (s.modTb f).commit = s.commit := (rfl)
@[simp] theorem State.modTb_aux (s : State) (f : Timebase → Timebase) : (s.modTb f).aux = s.aux := (rfl)
@[simp] theorem State.modTb_src (s : State) (f : Timebase → Timebase) : (s.modTb f).src = s.src := (rfl)
@[simp] theorem State.modTb_slices (s : State) (f : Timebase → Timebase) : (s.modTb f).slices = s.slices := (rfl)
@[simp] theorem State.modTb_cord (s : State) (f : Timebase → Timebase) : (s.modTb f).cord = s.cord := (rfl)
@[simp] theorem State.modTb_dts (s : State) (f : Timebase → Timebase) : (s.modTb f).dts = s.dts := (rfl)
@[simp] theorem State.modTb_flash (s : State) (f : Timebase → Timebase) : (s.modTb f).flash = s.flash := (rfl)
@[simp] theorem State.modTb_lanes (s : State) (f : Timebase → Timebase) : (s.modTb f).lanes = s.lanes := (rfl)
@[simp] theorem State.modTb_ground (s : State) (f : Timebase → Timebase) : (s.modTb f).ground = s.ground := (rfl)
@[simp] theorem State.modTb_health (s : State) (f : Timebase → Timebase) : (s.modTb f).health = s.health := (rfl)
@[simp] theorem State.modTb_hk (s : State) (f : Timebase → Timebase) : (s.modTb f).hk = s.hk := (rfl)
@[simp] theorem State.modTb_sensors (s : State) (f : Timebase → Timebase) : (s.modTb f).sensors = s.sensors := (rfl)
@[simp] theorem State.modTb_alarm (s : State) (f : Timebase → Timebase) : (s.modTb f).alarm = s.alarm := (rfl)
@[simp] theorem State.modTb_memc (s : State) (f : Timebase → Timebase) : (s.modTb f).memc = s.memc := (rfl)
@[simp] theorem State.modTb_comps (s : State) (f : Timebase → Timebase) : (s.modTb f).comps = s.comps := (rfl)
@[simp] theorem State.modTb_secu (s : State) (f : Timebase → Timebase) : (s.modTb f).secu = s.secu := (rfl)
@[simp] theorem State.modTb_boot (s : State) (f : Timebase → Timebase) : (s.modTb f).boot = s.boot := (rfl)
@[simp] theorem State.modTb_mon (s : State) (f : Timebase → Timebase) : (s.modTb f).mon = s.mon := (rfl)
@[simp] theorem State.modTb_net (s : State) (f : Timebase → Timebase) : (s.modTb f).net = s.net := (rfl)
@[simp] theorem State.modTb_pins (s : State) (f : Timebase → Timebase) : (s.modTb f).pins = s.pins := (rfl)
@[simp] theorem State.modTb_pending (s : State) (f : Timebase → Timebase) : (s.modTb f).pending = s.pending := (rfl)
@[simp] theorem State.modTb_reg (s : State) (f : Timebase → Timebase) (j : Nat) : (s.modTb f).reg j = s.reg j := (rfl)
@[simp] theorem State.modTb_rd (s : State) (f : Timebase → Timebase) (f2 : Fld) : (s.modTb f).rd f2 = s.rd f2 := (rfl)

/-! ## State.modGround -/

@[simp] theorem State.modGround_regs (s : State) (f : Ground → Ground) : (s.modGround f).regs = s.regs := (rfl)
@[simp] theorem State.modGround_holding (s : State) (f : Ground → Ground) : (s.modGround f).holding = s.holding := (rfl)
@[simp] theorem State.modGround_now (s : State) (f : Ground → Ground) : (s.modGround f).now = s.now := (rfl)
@[simp] theorem State.modGround_fresh (s : State) (f : Ground → Ground) : (s.modGround f).fresh = s.fresh := (rfl)
@[simp] theorem State.modGround_status (s : State) (f : Ground → Ground) : (s.modGround f).status = s.status := (rfl)
@[simp] theorem State.modGround_value (s : State) (f : Ground → Ground) : (s.modGround f).value = s.value := (rfl)
@[simp] theorem State.modGround_tb (s : State) (f : Ground → Ground) : (s.modGround f).tb = s.tb := (rfl)
@[simp] theorem State.modGround_sched (s : State) (f : Ground → Ground) : (s.modGround f).sched = s.sched := (rfl)
@[simp] theorem State.modGround_commit (s : State) (f : Ground → Ground) : (s.modGround f).commit = s.commit := (rfl)
@[simp] theorem State.modGround_aux (s : State) (f : Ground → Ground) : (s.modGround f).aux = s.aux := (rfl)
@[simp] theorem State.modGround_src (s : State) (f : Ground → Ground) : (s.modGround f).src = s.src := (rfl)
@[simp] theorem State.modGround_slices (s : State) (f : Ground → Ground) : (s.modGround f).slices = s.slices := (rfl)
@[simp] theorem State.modGround_cord (s : State) (f : Ground → Ground) : (s.modGround f).cord = s.cord := (rfl)
@[simp] theorem State.modGround_dts (s : State) (f : Ground → Ground) : (s.modGround f).dts = s.dts := (rfl)
@[simp] theorem State.modGround_flash (s : State) (f : Ground → Ground) : (s.modGround f).flash = s.flash := (rfl)
@[simp] theorem State.modGround_lanes (s : State) (f : Ground → Ground) : (s.modGround f).lanes = s.lanes := (rfl)
@[simp] theorem State.modGround_health (s : State) (f : Ground → Ground) : (s.modGround f).health = s.health := (rfl)
@[simp] theorem State.modGround_hk (s : State) (f : Ground → Ground) : (s.modGround f).hk = s.hk := (rfl)
@[simp] theorem State.modGround_sensors (s : State) (f : Ground → Ground) : (s.modGround f).sensors = s.sensors := (rfl)
@[simp] theorem State.modGround_alarm (s : State) (f : Ground → Ground) : (s.modGround f).alarm = s.alarm := (rfl)
@[simp] theorem State.modGround_memc (s : State) (f : Ground → Ground) : (s.modGround f).memc = s.memc := (rfl)
@[simp] theorem State.modGround_comps (s : State) (f : Ground → Ground) : (s.modGround f).comps = s.comps := (rfl)
@[simp] theorem State.modGround_secu (s : State) (f : Ground → Ground) : (s.modGround f).secu = s.secu := (rfl)
@[simp] theorem State.modGround_boot (s : State) (f : Ground → Ground) : (s.modGround f).boot = s.boot := (rfl)
@[simp] theorem State.modGround_mon (s : State) (f : Ground → Ground) : (s.modGround f).mon = s.mon := (rfl)
@[simp] theorem State.modGround_net (s : State) (f : Ground → Ground) : (s.modGround f).net = s.net := (rfl)
@[simp] theorem State.modGround_pins (s : State) (f : Ground → Ground) : (s.modGround f).pins = s.pins := (rfl)
@[simp] theorem State.modGround_pending (s : State) (f : Ground → Ground) : (s.modGround f).pending = s.pending := (rfl)
@[simp] theorem State.modGround_reg (s : State) (f : Ground → Ground) (j : Nat) : (s.modGround f).reg j = s.reg j := (rfl)
@[simp] theorem State.modGround_rd (s : State) (f : Ground → Ground) (f2 : Fld) : (s.modGround f).rd f2 = s.rd f2 := (rfl)

/-! ## State.modPins -/

@[simp] theorem State.modPins_regs (s : State) (f : Pins → Pins) : (s.modPins f).regs = s.regs := (rfl)
@[simp] theorem State.modPins_holding (s : State) (f : Pins → Pins) : (s.modPins f).holding = s.holding := (rfl)
@[simp] theorem State.modPins_now (s : State) (f : Pins → Pins) : (s.modPins f).now = s.now := (rfl)
@[simp] theorem State.modPins_fresh (s : State) (f : Pins → Pins) : (s.modPins f).fresh = s.fresh := (rfl)
@[simp] theorem State.modPins_status (s : State) (f : Pins → Pins) : (s.modPins f).status = s.status := (rfl)
@[simp] theorem State.modPins_value (s : State) (f : Pins → Pins) : (s.modPins f).value = s.value := (rfl)
@[simp] theorem State.modPins_tb (s : State) (f : Pins → Pins) : (s.modPins f).tb = s.tb := (rfl)
@[simp] theorem State.modPins_sched (s : State) (f : Pins → Pins) : (s.modPins f).sched = s.sched := (rfl)
@[simp] theorem State.modPins_commit (s : State) (f : Pins → Pins) : (s.modPins f).commit = s.commit := (rfl)
@[simp] theorem State.modPins_aux (s : State) (f : Pins → Pins) : (s.modPins f).aux = s.aux := (rfl)
@[simp] theorem State.modPins_src (s : State) (f : Pins → Pins) : (s.modPins f).src = s.src := (rfl)
@[simp] theorem State.modPins_slices (s : State) (f : Pins → Pins) : (s.modPins f).slices = s.slices := (rfl)
@[simp] theorem State.modPins_cord (s : State) (f : Pins → Pins) : (s.modPins f).cord = s.cord := (rfl)
@[simp] theorem State.modPins_dts (s : State) (f : Pins → Pins) : (s.modPins f).dts = s.dts := (rfl)
@[simp] theorem State.modPins_flash (s : State) (f : Pins → Pins) : (s.modPins f).flash = s.flash := (rfl)
@[simp] theorem State.modPins_lanes (s : State) (f : Pins → Pins) : (s.modPins f).lanes = s.lanes := (rfl)
@[simp] theorem State.modPins_ground (s : State) (f : Pins → Pins) : (s.modPins f).ground = s.ground := (rfl)
@[simp] theorem State.modPins_health (s : State) (f : Pins → Pins) : (s.modPins f).health = s.health := (rfl)
@[simp] theorem State.modPins_hk (s : State) (f : Pins → Pins) : (s.modPins f).hk = s.hk := (rfl)
@[simp] theorem State.modPins_sensors (s : State) (f : Pins → Pins) : (s.modPins f).sensors = s.sensors := (rfl)
@[simp] theorem State.modPins_alarm (s : State) (f : Pins → Pins) : (s.modPins f).alarm = s.alarm := (rfl)
@[simp] theorem State.modPins_memc (s : State) (f : Pins → Pins) : (s.modPins f).memc = s.memc := (rfl)
@[simp] theorem State.modPins_comps (s : State) (f : Pins → Pins) : (s.modPins f).comps = s.comps := (rfl)
@[simp] theorem State.modPins_secu (s : State) (f : Pins → Pins) : (s.modPins f).secu = s.secu := (rfl)
@[simp] theorem State.modPins_boot (s : State) (f : Pins → Pins) : (s.modPins f).boot = s.boot := (rfl)
@[simp] theorem State.modPins_mon (s : State) (f : Pins → Pins) : (s.modPins f).mon = s.mon := (rfl)
@[simp] theorem State.modPins_net (s : State) (f : Pins → Pins) : (s.modPins f).net = s.net := (rfl)
@[simp] theorem State.modPins_pending (s : State) (f : Pins → Pins) : (s.modPins f).pending = s.pending := (rfl)
@[simp] theorem State.modPins_reg (s : State) (f : Pins → Pins) (j : Nat) : (s.modPins f).reg j = s.reg j := (rfl)
@[simp] theorem State.modPins_rd (s : State) (f : Pins → Pins) (f2 : Fld) : (s.modPins f).rd f2 = s.rd f2 := (rfl)

/-! ## State.modLanes -/

@[simp] theorem State.modLanes_regs (s : State) (f : Lanes → Lanes) : (s.modLanes f).regs = s.regs := (rfl)
@[simp] theorem State.modLanes_holding (s : State) (f : Lanes → Lanes) : (s.modLanes f).holding = s.holding := (rfl)
@[simp] theorem State.modLanes_now (s : State) (f : Lanes → Lanes) : (s.modLanes f).now = s.now := (rfl)
@[simp] theorem State.modLanes_fresh (s : State) (f : Lanes → Lanes) : (s.modLanes f).fresh = s.fresh := (rfl)
@[simp] theorem State.modLanes_status (s : State) (f : Lanes → Lanes) : (s.modLanes f).status = s.status := (rfl)
@[simp] theorem State.modLanes_value (s : State) (f : Lanes → Lanes) : (s.modLanes f).value = s.value := (rfl)
@[simp] theorem State.modLanes_tb (s : State) (f : Lanes → Lanes) : (s.modLanes f).tb = s.tb := (rfl)
@[simp] theorem State.modLanes_sched (s : State) (f : Lanes → Lanes) : (s.modLanes f).sched = s.sched := (rfl)
@[simp] theorem State.modLanes_commit (s : State) (f : Lanes → Lanes) : (s.modLanes f).commit = s.commit := (rfl)
@[simp] theorem State.modLanes_aux (s : State) (f : Lanes → Lanes) : (s.modLanes f).aux = s.aux := (rfl)
@[simp] theorem State.modLanes_src (s : State) (f : Lanes → Lanes) : (s.modLanes f).src = s.src := (rfl)
@[simp] theorem State.modLanes_slices (s : State) (f : Lanes → Lanes) : (s.modLanes f).slices = s.slices := (rfl)
@[simp] theorem State.modLanes_cord (s : State) (f : Lanes → Lanes) : (s.modLanes f).cord = s.cord := (rfl)
@[simp] theorem State.modLanes_dts (s : State) (f : Lanes → Lanes) : (s.modLanes f).dts = s.dts := (rfl)
@[simp] theorem State.modLanes_flash (s : State) (f : Lanes → Lanes) : (s.modLanes f).flash = s.flash := (rfl)
@[simp] theorem State.modLanes_ground (s : State) (f : Lanes → Lanes) : (s.modLanes f).ground = s.ground := (rfl)
@[simp] theorem State.modLanes_health (s : State) (f : Lanes → Lanes) : (s.modLanes f).health = s.health := (rfl)
@[simp] theorem State.modLanes_hk (s : State) (f : Lanes → Lanes) : (s.modLanes f).hk = s.hk := (rfl)
@[simp] theorem State.modLanes_sensors (s : State) (f : Lanes → Lanes) : (s.modLanes f).sensors = s.sensors := (rfl)
@[simp] theorem State.modLanes_alarm (s : State) (f : Lanes → Lanes) : (s.modLanes f).alarm = s.alarm := (rfl)
@[simp] theorem State.modLanes_memc (s : State) (f : Lanes → Lanes) : (s.modLanes f).memc = s.memc := (rfl)
@[simp] theorem State.modLanes_comps (s : State) (f : Lanes → Lanes) : (s.modLanes f).comps = s.comps := (rfl)
@[simp] theorem State.modLanes_secu (s : State) (f : Lanes → Lanes) : (s.modLanes f).secu = s.secu := (rfl)
@[simp] theorem State.modLanes_boot (s : State) (f : Lanes → Lanes) : (s.modLanes f).boot = s.boot := (rfl)
@[simp] theorem State.modLanes_mon (s : State) (f : Lanes → Lanes) : (s.modLanes f).mon = s.mon := (rfl)
@[simp] theorem State.modLanes_net (s : State) (f : Lanes → Lanes) : (s.modLanes f).net = s.net := (rfl)
@[simp] theorem State.modLanes_pins (s : State) (f : Lanes → Lanes) : (s.modLanes f).pins = s.pins := (rfl)
@[simp] theorem State.modLanes_pending (s : State) (f : Lanes → Lanes) : (s.modLanes f).pending = s.pending := (rfl)
@[simp] theorem State.modLanes_reg (s : State) (f : Lanes → Lanes) (j : Nat) : (s.modLanes f).reg j = s.reg j := (rfl)
@[simp] theorem State.modLanes_rd (s : State) (f : Lanes → Lanes) (f2 : Fld) : (s.modLanes f).rd f2 = s.rd f2 := (rfl)

/-! ## State.modHealth -/

@[simp] theorem State.modHealth_regs (s : State) (f : Health → Health) : (s.modHealth f).regs = s.regs := (rfl)
@[simp] theorem State.modHealth_holding (s : State) (f : Health → Health) : (s.modHealth f).holding = s.holding := (rfl)
@[simp] theorem State.modHealth_now (s : State) (f : Health → Health) : (s.modHealth f).now = s.now := (rfl)
@[simp] theorem State.modHealth_fresh (s : State) (f : Health → Health) : (s.modHealth f).fresh = s.fresh := (rfl)
@[simp] theorem State.modHealth_status (s : State) (f : Health → Health) : (s.modHealth f).status = s.status := (rfl)
@[simp] theorem State.modHealth_value (s : State) (f : Health → Health) : (s.modHealth f).value = s.value := (rfl)
@[simp] theorem State.modHealth_tb (s : State) (f : Health → Health) : (s.modHealth f).tb = s.tb := (rfl)
@[simp] theorem State.modHealth_sched (s : State) (f : Health → Health) : (s.modHealth f).sched = s.sched := (rfl)
@[simp] theorem State.modHealth_commit (s : State) (f : Health → Health) : (s.modHealth f).commit = s.commit := (rfl)
@[simp] theorem State.modHealth_aux (s : State) (f : Health → Health) : (s.modHealth f).aux = s.aux := (rfl)
@[simp] theorem State.modHealth_src (s : State) (f : Health → Health) : (s.modHealth f).src = s.src := (rfl)
@[simp] theorem State.modHealth_slices (s : State) (f : Health → Health) : (s.modHealth f).slices = s.slices := (rfl)
@[simp] theorem State.modHealth_cord (s : State) (f : Health → Health) : (s.modHealth f).cord = s.cord := (rfl)
@[simp] theorem State.modHealth_dts (s : State) (f : Health → Health) : (s.modHealth f).dts = s.dts := (rfl)
@[simp] theorem State.modHealth_flash (s : State) (f : Health → Health) : (s.modHealth f).flash = s.flash := (rfl)
@[simp] theorem State.modHealth_lanes (s : State) (f : Health → Health) : (s.modHealth f).lanes = s.lanes := (rfl)
@[simp] theorem State.modHealth_ground (s : State) (f : Health → Health) : (s.modHealth f).ground = s.ground := (rfl)
@[simp] theorem State.modHealth_hk (s : State) (f : Health → Health) : (s.modHealth f).hk = s.hk := (rfl)
@[simp] theorem State.modHealth_sensors (s : State) (f : Health → Health) : (s.modHealth f).sensors = s.sensors := (rfl)
@[simp] theorem State.modHealth_alarm (s : State) (f : Health → Health) : (s.modHealth f).alarm = s.alarm := (rfl)
@[simp] theorem State.modHealth_memc (s : State) (f : Health → Health) : (s.modHealth f).memc = s.memc := (rfl)
@[simp] theorem State.modHealth_comps (s : State) (f : Health → Health) : (s.modHealth f).comps = s.comps := (rfl)
@[simp] theorem State.modHealth_secu (s : State) (f : Health → Health) : (s.modHealth f).secu = s.secu := (rfl)
@[simp] theorem State.modHealth_boot (s : State) (f : Health → Health) : (s.modHealth f).boot = s.boot := (rfl)
@[simp] theorem State.modHealth_mon (s : State) (f : Health → Health) : (s.modHealth f).mon = s.mon := (rfl)
@[simp] theorem State.modHealth_net (s : State) (f : Health → Health) : (s.modHealth f).net = s.net := (rfl)
@[simp] theorem State.modHealth_pins (s : State) (f : Health → Health) : (s.modHealth f).pins = s.pins := (rfl)
@[simp] theorem State.modHealth_pending (s : State) (f : Health → Health) : (s.modHealth f).pending = s.pending := (rfl)
@[simp] theorem State.modHealth_reg (s : State) (f : Health → Health) (j : Nat) : (s.modHealth f).reg j = s.reg j := (rfl)
@[simp] theorem State.modHealth_rd (s : State) (f : Health → Health) (f2 : Fld) : (s.modHealth f).rd f2 = s.rd f2 := (rfl)

/-! ## State.modSrc -/

@[simp] theorem State.modSrc_regs (s : State) (f : Source → Source) : (s.modSrc f).regs = s.regs := (rfl)
@[simp] theorem State.modSrc_holding (s : State) (f : Source → Source) : (s.modSrc f).holding = s.holding := (rfl)
@[simp] theorem State.modSrc_now (s : State) (f : Source → Source) : (s.modSrc f).now = s.now := (rfl)
@[simp] theorem State.modSrc_fresh (s : State) (f : Source → Source) : (s.modSrc f).fresh = s.fresh := (rfl)
@[simp] theorem State.modSrc_status (s : State) (f : Source → Source) : (s.modSrc f).status = s.status := (rfl)
@[simp] theorem State.modSrc_value (s : State) (f : Source → Source) : (s.modSrc f).value = s.value := (rfl)
@[simp] theorem State.modSrc_tb (s : State) (f : Source → Source) : (s.modSrc f).tb = s.tb := (rfl)
@[simp] theorem State.modSrc_sched (s : State) (f : Source → Source) : (s.modSrc f).sched = s.sched := (rfl)
@[simp] theorem State.modSrc_commit (s : State) (f : Source → Source) : (s.modSrc f).commit = s.commit := (rfl)
@[simp] theorem State.modSrc_aux (s : State) (f : Source → Source) : (s.modSrc f).aux = s.aux := (rfl)
@[simp] theorem State.modSrc_slices (s : State) (f : Source → Source) : (s.modSrc f).slices = s.slices := (rfl)
@[simp] theorem State.modSrc_cord (s : State) (f : Source → Source) : (s.modSrc f).cord = s.cord := (rfl)
@[simp] theorem State.modSrc_dts (s : State) (f : Source → Source) : (s.modSrc f).dts = s.dts := (rfl)
@[simp] theorem State.modSrc_flash (s : State) (f : Source → Source) : (s.modSrc f).flash = s.flash := (rfl)
@[simp] theorem State.modSrc_lanes (s : State) (f : Source → Source) : (s.modSrc f).lanes = s.lanes := (rfl)
@[simp] theorem State.modSrc_ground (s : State) (f : Source → Source) : (s.modSrc f).ground = s.ground := (rfl)
@[simp] theorem State.modSrc_health (s : State) (f : Source → Source) : (s.modSrc f).health = s.health := (rfl)
@[simp] theorem State.modSrc_hk (s : State) (f : Source → Source) : (s.modSrc f).hk = s.hk := (rfl)
@[simp] theorem State.modSrc_sensors (s : State) (f : Source → Source) : (s.modSrc f).sensors = s.sensors := (rfl)
@[simp] theorem State.modSrc_alarm (s : State) (f : Source → Source) : (s.modSrc f).alarm = s.alarm := (rfl)
@[simp] theorem State.modSrc_memc (s : State) (f : Source → Source) : (s.modSrc f).memc = s.memc := (rfl)
@[simp] theorem State.modSrc_comps (s : State) (f : Source → Source) : (s.modSrc f).comps = s.comps := (rfl)
@[simp] theorem State.modSrc_secu (s : State) (f : Source → Source) : (s.modSrc f).secu = s.secu := (rfl)
@[simp] theorem State.modSrc_boot (s : State) (f : Source → Source) : (s.modSrc f).boot = s.boot := (rfl)
@[simp] theorem State.modSrc_mon (s : State) (f : Source → Source) : (s.modSrc f).mon = s.mon := (rfl)
@[simp] theorem State.modSrc_net (s : State) (f : Source → Source) : (s.modSrc f).net = s.net := (rfl)
@[simp] theorem State.modSrc_pins (s : State) (f : Source → Source) : (s.modSrc f).pins = s.pins := (rfl)
@[simp] theorem State.modSrc_pending (s : State) (f : Source → Source) : (s.modSrc f).pending = s.pending := (rfl)
@[simp] theorem State.modSrc_reg (s : State) (f : Source → Source) (j : Nat) : (s.modSrc f).reg j = s.reg j := (rfl)
@[simp] theorem State.modSrc_rd (s : State) (f : Source → Source) (f2 : Fld) : (s.modSrc f).rd f2 = s.rd f2 := (rfl)

/-! ## State.modMemc -/

@[simp] theorem State.modMemc_regs (s : State) (f : Memc → Memc) : (s.modMemc f).regs = s.regs := (rfl)
@[simp] theorem State.modMemc_holding (s : State) (f : Memc → Memc) : (s.modMemc f).holding = s.holding := (rfl)
@[simp] theorem State.modMemc_now (s : State) (f : Memc → Memc) : (s.modMemc f).now = s.now := (rfl)
@[simp] theorem State.modMemc_fresh (s : State) (f : Memc → Memc) : (s.modMemc f).fresh = s.fresh := (rfl)
@[simp] theorem State.modMemc_status (s : State) (f : Memc → Memc) : (s.modMemc f).status = s.status := (rfl)
@[simp] theorem State.modMemc_value (s : State) (f : Memc → Memc) : (s.modMemc f).value = s.value := (rfl)
@[simp] theorem State.modMemc_tb (s : State) (f : Memc → Memc) : (s.modMemc f).tb = s.tb := (rfl)
@[simp] theorem State.modMemc_sched (s : State) (f : Memc → Memc) : (s.modMemc f).sched = s.sched := (rfl)
@[simp] theorem State.modMemc_commit (s : State) (f : Memc → Memc) : (s.modMemc f).commit = s.commit := (rfl)
@[simp] theorem State.modMemc_aux (s : State) (f : Memc → Memc) : (s.modMemc f).aux = s.aux := (rfl)
@[simp] theorem State.modMemc_src (s : State) (f : Memc → Memc) : (s.modMemc f).src = s.src := (rfl)
@[simp] theorem State.modMemc_slices (s : State) (f : Memc → Memc) : (s.modMemc f).slices = s.slices := (rfl)
@[simp] theorem State.modMemc_cord (s : State) (f : Memc → Memc) : (s.modMemc f).cord = s.cord := (rfl)
@[simp] theorem State.modMemc_dts (s : State) (f : Memc → Memc) : (s.modMemc f).dts = s.dts := (rfl)
@[simp] theorem State.modMemc_flash (s : State) (f : Memc → Memc) : (s.modMemc f).flash = s.flash := (rfl)
@[simp] theorem State.modMemc_lanes (s : State) (f : Memc → Memc) : (s.modMemc f).lanes = s.lanes := (rfl)
@[simp] theorem State.modMemc_ground (s : State) (f : Memc → Memc) : (s.modMemc f).ground = s.ground := (rfl)
@[simp] theorem State.modMemc_health (s : State) (f : Memc → Memc) : (s.modMemc f).health = s.health := (rfl)
@[simp] theorem State.modMemc_hk (s : State) (f : Memc → Memc) : (s.modMemc f).hk = s.hk := (rfl)
@[simp] theorem State.modMemc_sensors (s : State) (f : Memc → Memc) : (s.modMemc f).sensors = s.sensors := (rfl)
@[simp] theorem State.modMemc_alarm (s : State) (f : Memc → Memc) : (s.modMemc f).alarm = s.alarm := (rfl)
@[simp] theorem State.modMemc_comps (s : State) (f : Memc → Memc) : (s.modMemc f).comps = s.comps := (rfl)
@[simp] theorem State.modMemc_secu (s : State) (f : Memc → Memc) : (s.modMemc f).secu = s.secu := (rfl)
@[simp] theorem State.modMemc_boot (s : State) (f : Memc → Memc) : (s.modMemc f).boot = s.boot := (rfl)
@[simp] theorem State.modMemc_mon (s : State) (f : Memc → Memc) : (s.modMemc f).mon = s.mon := (rfl)
@[simp] theorem State.modMemc_net (s : State) (f : Memc → Memc) : (s.modMemc f).net = s.net := (rfl)
@[simp] theorem State.modMemc_pins (s : State) (f : Memc → Memc) : (s.modMemc f).pins = s.pins := (rfl)
@[simp] theorem State.modMemc_pending (s : State) (f : Memc → Memc) : (s.modMemc f).pending = s.pending := (rfl)
@[simp] theorem State.modMemc_reg (s : State) (f : Memc → Memc) (j : Nat) : (s.modMemc f).reg j = s.reg j := (rfl)
@[simp] theorem State.modMemc_rd (s : State) (f : Memc → Memc) (f2 : Fld) : (s.modMemc f).rd f2 = s.rd f2 := (rfl)

/-! ## State.spend -/

@[simp] theorem State.spend_regs (s : State) (n : Nat) : (s.spend n).regs = s.regs := (rfl)
@[simp] theorem State.spend_holding (s : State) (n : Nat) : (s.spend n).holding = s.holding := (rfl)
@[simp] theorem State.spend_now (s : State) (n : Nat) : (s.spend n).now = s.now := (rfl)
@[simp] theorem State.spend_status (s : State) (n : Nat) : (s.spend n).status = s.status := (rfl)
@[simp] theorem State.spend_value (s : State) (n : Nat) : (s.spend n).value = s.value := (rfl)
@[simp] theorem State.spend_tb (s : State) (n : Nat) : (s.spend n).tb = s.tb := (rfl)
@[simp] theorem State.spend_sched (s : State) (n : Nat) : (s.spend n).sched = s.sched := (rfl)
@[simp] theorem State.spend_commit (s : State) (n : Nat) : (s.spend n).commit = s.commit := (rfl)
@[simp] theorem State.spend_aux (s : State) (n : Nat) : (s.spend n).aux = s.aux := (rfl)
@[simp] theorem State.spend_src (s : State) (n : Nat) : (s.spend n).src = s.src := (rfl)
@[simp] theorem State.spend_slices (s : State) (n : Nat) : (s.spend n).slices = s.slices := (rfl)
@[simp] theorem State.spend_cord (s : State) (n : Nat) : (s.spend n).cord = s.cord := (rfl)
@[simp] theorem State.spend_dts (s : State) (n : Nat) : (s.spend n).dts = s.dts := (rfl)
@[simp] theorem State.spend_flash (s : State) (n : Nat) : (s.spend n).flash = s.flash := (rfl)
@[simp] theorem State.spend_lanes (s : State) (n : Nat) : (s.spend n).lanes = s.lanes := (rfl)
@[simp] theorem State.spend_ground (s : State) (n : Nat) : (s.spend n).ground = s.ground := (rfl)
@[simp] theorem State.spend_health (s : State) (n : Nat) : (s.spend n).health = s.health := (rfl)
@[simp] theorem State.spend_hk (s : State) (n : Nat) : (s.spend n).hk = s.hk := (rfl)
@[simp] theorem State.spend_sensors (s : State) (n : Nat) : (s.spend n).sensors = s.sensors := (rfl)
@[simp] theorem State.spend_alarm (s : State) (n : Nat) : (s.spend n).alarm = s.alarm := (rfl)
@[simp] theorem State.spend_memc (s : State) (n : Nat) : (s.spend n).memc = s.memc := (rfl)
@[simp] theorem State.spend_comps (s : State) (n : Nat) : (s.spend n).comps = s.comps := (rfl)
@[simp] theorem State.spend_secu (s : State) (n : Nat) : (s.spend n).secu = s.secu := (rfl)
@[simp] theorem State.spend_boot (s : State) (n : Nat) : (s.spend n).boot = s.boot := (rfl)
@[simp] theorem State.spend_mon (s : State) (n : Nat) : (s.spend n).mon = s.mon := (rfl)
@[simp] theorem State.spend_net (s : State) (n : Nat) : (s.spend n).net = s.net := (rfl)
@[simp] theorem State.spend_pins (s : State) (n : Nat) : (s.spend n).pins = s.pins := (rfl)
@[simp] theorem State.spend_pending (s : State) (n : Nat) : (s.spend n).pending = s.pending := (rfl)
@[simp] theorem State.spend_reg (s : State) (n : Nat) (j : Nat) : (s.spend n).reg j = s.reg j := (rfl)
@[simp] theorem State.spend_rd (s : State) (n : Nat) (f2 : Fld) : (s.spend n).rd f2 = s.rd f2 := (rfl)

/-! ## State.advance -/

@[simp] theorem State.advance_regs (s : State) (n : Nat) : (s.advance n).regs = s.regs := (rfl)
@[simp] theorem State.advance_holding (s : State) (n : Nat) : (s.advance n).holding = s.holding := (rfl)
@[simp] theorem State.advance_fresh (s : State) (n : Nat) : (s.advance n).fresh = s.fresh := (rfl)
@[simp] theorem State.advance_status (s : State) (n : Nat) : (s.advance n).status = s.status := (rfl)
@[simp] theorem State.advance_value (s : State) (n : Nat) : (s.advance n).value = s.value := (rfl)
@[simp] theorem State.advance_tb (s : State) (n : Nat) : (s.advance n).tb = s.tb := (rfl)
@[simp] theorem State.advance_sched (s : State) (n : Nat) : (s.advance n).sched = s.sched := (rfl)
@[simp] theorem State.advance_commit (s : State) (n : Nat) : (s.advance n).commit = s.commit := (rfl)
@[simp] theorem State.advance_aux (s : State) (n : Nat) : (s.advance n).aux = s.aux := (rfl)
@[simp] theorem State.advance_src (s : State) (n : Nat) : (s.advance n).src = s.src := (rfl)
@[simp] theorem State.advance_slices (s : State) (n : Nat) : (s.advance n).slices = s.slices := (rfl)
@[simp] theorem State.advance_cord (s : State) (n : Nat) : (s.advance n).cord = s.cord := (rfl)
@[simp] theorem State.advance_dts (s : State) (n : Nat) : (s.advance n).dts = s.dts := (rfl)
@[simp] theorem State.advance_flash (s : State) (n : Nat) : (s.advance n).flash = s.flash := (rfl)
@[simp] theorem State.advance_lanes (s : State) (n : Nat) : (s.advance n).lanes = s.lanes := (rfl)
@[simp] theorem State.advance_ground (s : State) (n : Nat) : (s.advance n).ground = s.ground := (rfl)
@[simp] theorem State.advance_health (s : State) (n : Nat) : (s.advance n).health = s.health := (rfl)
@[simp] theorem State.advance_hk (s : State) (n : Nat) : (s.advance n).hk = s.hk := (rfl)
@[simp] theorem State.advance_sensors (s : State) (n : Nat) : (s.advance n).sensors = s.sensors := (rfl)
@[simp] theorem State.advance_alarm (s : State) (n : Nat) : (s.advance n).alarm = s.alarm := (rfl)
@[simp] theorem State.advance_memc (s : State) (n : Nat) : (s.advance n).memc = s.memc := (rfl)
@[simp] theorem State.advance_comps (s : State) (n : Nat) : (s.advance n).comps = s.comps := (rfl)
@[simp] theorem State.advance_secu (s : State) (n : Nat) : (s.advance n).secu = s.secu := (rfl)
@[simp] theorem State.advance_boot (s : State) (n : Nat) : (s.advance n).boot = s.boot := (rfl)
@[simp] theorem State.advance_mon (s : State) (n : Nat) : (s.advance n).mon = s.mon := (rfl)
@[simp] theorem State.advance_net (s : State) (n : Nat) : (s.advance n).net = s.net := (rfl)
@[simp] theorem State.advance_pins (s : State) (n : Nat) : (s.advance n).pins = s.pins := (rfl)
@[simp] theorem State.advance_pending (s : State) (n : Nat) : (s.advance n).pending = s.pending := (rfl)
@[simp] theorem State.advance_reg (s : State) (n : Nat) (j : Nat) : (s.advance n).reg j = s.reg j := (rfl)
@[simp] theorem State.advance_rd (s : State) (n : Nat) (f2 : Fld) : (s.advance n).rd f2 = s.rd f2 := (rfl)

/-! ## State.setSch -/

@[simp] theorem State.setSch_regs (s : State) (x : Fibre) (v : Sched) : (s.setSch x v).regs = s.regs := (rfl)
@[simp] theorem State.setSch_holding (s : State) (x : Fibre) (v : Sched) : (s.setSch x v).holding = s.holding := (rfl)
@[simp] theorem State.setSch_now (s : State) (x : Fibre) (v : Sched) : (s.setSch x v).now = s.now := (rfl)
@[simp] theorem State.setSch_fresh (s : State) (x : Fibre) (v : Sched) : (s.setSch x v).fresh = s.fresh := (rfl)
@[simp] theorem State.setSch_status (s : State) (x : Fibre) (v : Sched) : (s.setSch x v).status = s.status := (rfl)
@[simp] theorem State.setSch_value (s : State) (x : Fibre) (v : Sched) : (s.setSch x v).value = s.value := (rfl)
@[simp] theorem State.setSch_tb (s : State) (x : Fibre) (v : Sched) : (s.setSch x v).tb = s.tb := (rfl)
@[simp] theorem State.setSch_commit (s : State) (x : Fibre) (v : Sched) : (s.setSch x v).commit = s.commit := (rfl)
@[simp] theorem State.setSch_aux (s : State) (x : Fibre) (v : Sched) : (s.setSch x v).aux = s.aux := (rfl)
@[simp] theorem State.setSch_src (s : State) (x : Fibre) (v : Sched) : (s.setSch x v).src = s.src := (rfl)
@[simp] theorem State.setSch_slices (s : State) (x : Fibre) (v : Sched) : (s.setSch x v).slices = s.slices := (rfl)
@[simp] theorem State.setSch_cord (s : State) (x : Fibre) (v : Sched) : (s.setSch x v).cord = s.cord := (rfl)
@[simp] theorem State.setSch_dts (s : State) (x : Fibre) (v : Sched) : (s.setSch x v).dts = s.dts := (rfl)
@[simp] theorem State.setSch_flash (s : State) (x : Fibre) (v : Sched) : (s.setSch x v).flash = s.flash := (rfl)
@[simp] theorem State.setSch_lanes (s : State) (x : Fibre) (v : Sched) : (s.setSch x v).lanes = s.lanes := (rfl)
@[simp] theorem State.setSch_ground (s : State) (x : Fibre) (v : Sched) : (s.setSch x v).ground = s.ground := (rfl)
@[simp] theorem State.setSch_health (s : State) (x : Fibre) (v : Sched) : (s.setSch x v).health = s.health := (rfl)
@[simp] theorem State.setSch_hk (s : State) (x : Fibre) (v : Sched) : (s.setSch x v).hk = s.hk := (rfl)
@[simp] theorem State.setSch_sensors (s : State) (x : Fibre) (v : Sched) : (s.setSch x v).sensors = s.sensors := (rfl)
@[simp] theorem State.setSch_alarm (s : State) (x : Fibre) (v : Sched) : (s.setSch x v).alarm = s.alarm := (rfl)
@[simp] theorem State.setSch_memc (s : State) (x : Fibre) (v : Sched) : (s.setSch x v).memc = s.memc := (rfl)
@[simp] theorem State.setSch_comps (s : State) (x : Fibre) (v : Sched) : (s.setSch x v).comps = s.comps := (rfl)
@[simp] theorem State.setSch_secu (s : State) (x : Fibre) (v : Sched) : (s.setSch x v).secu = s.secu := (rfl)
@[simp] theorem State.setSch_boot (s : State) (x : Fibre) (v : Sched) : (s.setSch x v).boot = s.boot := (rfl)
@[simp] theorem State.setSch_mon (s : State) (x : Fibre) (v : Sched) : (s.setSch x v).mon = s.mon := (rfl)
@[simp] theorem State.setSch_net (s : State) (x : Fibre) (v : Sched) : (s.setSch x v).net = s.net := (rfl)
@[simp] theorem State.setSch_pins (s : State) (x : Fibre) (v : Sched) : (s.setSch x v).pins = s.pins := (rfl)
@[simp] theorem State.setSch_pending (s : State) (x : Fibre) (v : Sched) : (s.setSch x v).pending = s.pending := (rfl)
@[simp] theorem State.setSch_reg (s : State) (x : Fibre) (v : Sched) (j : Nat) : (s.setSch x v).reg j = s.reg j := (rfl)
@[simp] theorem State.setSch_rd (s : State) (x : Fibre) (v : Sched) (f2 : Fld) : (s.setSch x v).rd f2 = s.rd f2 := (rfl)

/-! ## State.setCmt -/

@[simp] theorem State.setCmt_regs (s : State) (x : Fibre) (v : Commit) : (s.setCmt x v).regs = s.regs := (rfl)
@[simp] theorem State.setCmt_holding (s : State) (x : Fibre) (v : Commit) : (s.setCmt x v).holding = s.holding := (rfl)
@[simp] theorem State.setCmt_now (s : State) (x : Fibre) (v : Commit) : (s.setCmt x v).now = s.now := (rfl)
@[simp] theorem State.setCmt_fresh (s : State) (x : Fibre) (v : Commit) : (s.setCmt x v).fresh = s.fresh := (rfl)
@[simp] theorem State.setCmt_status (s : State) (x : Fibre) (v : Commit) : (s.setCmt x v).status = s.status := (rfl)
@[simp] theorem State.setCmt_value (s : State) (x : Fibre) (v : Commit) : (s.setCmt x v).value = s.value := (rfl)
@[simp] theorem State.setCmt_tb (s : State) (x : Fibre) (v : Commit) : (s.setCmt x v).tb = s.tb := (rfl)
@[simp] theorem State.setCmt_sched (s : State) (x : Fibre) (v : Commit) : (s.setCmt x v).sched = s.sched := (rfl)
@[simp] theorem State.setCmt_aux (s : State) (x : Fibre) (v : Commit) : (s.setCmt x v).aux = s.aux := (rfl)
@[simp] theorem State.setCmt_src (s : State) (x : Fibre) (v : Commit) : (s.setCmt x v).src = s.src := (rfl)
@[simp] theorem State.setCmt_slices (s : State) (x : Fibre) (v : Commit) : (s.setCmt x v).slices = s.slices := (rfl)
@[simp] theorem State.setCmt_cord (s : State) (x : Fibre) (v : Commit) : (s.setCmt x v).cord = s.cord := (rfl)
@[simp] theorem State.setCmt_dts (s : State) (x : Fibre) (v : Commit) : (s.setCmt x v).dts = s.dts := (rfl)
@[simp] theorem State.setCmt_flash (s : State) (x : Fibre) (v : Commit) : (s.setCmt x v).flash = s.flash := (rfl)
@[simp] theorem State.setCmt_lanes (s : State) (x : Fibre) (v : Commit) : (s.setCmt x v).lanes = s.lanes := (rfl)
@[simp] theorem State.setCmt_ground (s : State) (x : Fibre) (v : Commit) : (s.setCmt x v).ground = s.ground := (rfl)
@[simp] theorem State.setCmt_health (s : State) (x : Fibre) (v : Commit) : (s.setCmt x v).health = s.health := (rfl)
@[simp] theorem State.setCmt_hk (s : State) (x : Fibre) (v : Commit) : (s.setCmt x v).hk = s.hk := (rfl)
@[simp] theorem State.setCmt_sensors (s : State) (x : Fibre) (v : Commit) : (s.setCmt x v).sensors = s.sensors := (rfl)
@[simp] theorem State.setCmt_alarm (s : State) (x : Fibre) (v : Commit) : (s.setCmt x v).alarm = s.alarm := (rfl)
@[simp] theorem State.setCmt_memc (s : State) (x : Fibre) (v : Commit) : (s.setCmt x v).memc = s.memc := (rfl)
@[simp] theorem State.setCmt_comps (s : State) (x : Fibre) (v : Commit) : (s.setCmt x v).comps = s.comps := (rfl)
@[simp] theorem State.setCmt_secu (s : State) (x : Fibre) (v : Commit) : (s.setCmt x v).secu = s.secu := (rfl)
@[simp] theorem State.setCmt_boot (s : State) (x : Fibre) (v : Commit) : (s.setCmt x v).boot = s.boot := (rfl)
@[simp] theorem State.setCmt_mon (s : State) (x : Fibre) (v : Commit) : (s.setCmt x v).mon = s.mon := (rfl)
@[simp] theorem State.setCmt_net (s : State) (x : Fibre) (v : Commit) : (s.setCmt x v).net = s.net := (rfl)
@[simp] theorem State.setCmt_pins (s : State) (x : Fibre) (v : Commit) : (s.setCmt x v).pins = s.pins := (rfl)
@[simp] theorem State.setCmt_pending (s : State) (x : Fibre) (v : Commit) : (s.setCmt x v).pending = s.pending := (rfl)
@[simp] theorem State.setCmt_reg (s : State) (x : Fibre) (v : Commit) (j : Nat) : (s.setCmt x v).reg j = s.reg j := (rfl)
@[simp] theorem State.setCmt_rd (s : State) (x : Fibre) (v : Commit) (f2 : Fld) : (s.setCmt x v).rd f2 = s.rd f2 := (rfl)

/-! ## State.setNrg -/

@[simp] theorem State.setNrg_regs (s : State) (x : Fibre) (v : Energy) : (s.setNrg x v).regs = s.regs := (rfl)
@[simp] theorem State.setNrg_holding (s : State) (x : Fibre) (v : Energy) : (s.setNrg x v).holding = s.holding := (rfl)
@[simp] theorem State.setNrg_now (s : State) (x : Fibre) (v : Energy) : (s.setNrg x v).now = s.now := (rfl)
@[simp] theorem State.setNrg_fresh (s : State) (x : Fibre) (v : Energy) : (s.setNrg x v).fresh = s.fresh := (rfl)
@[simp] theorem State.setNrg_status (s : State) (x : Fibre) (v : Energy) : (s.setNrg x v).status = s.status := (rfl)
@[simp] theorem State.setNrg_value (s : State) (x : Fibre) (v : Energy) : (s.setNrg x v).value = s.value := (rfl)
@[simp] theorem State.setNrg_tb (s : State) (x : Fibre) (v : Energy) : (s.setNrg x v).tb = s.tb := (rfl)
@[simp] theorem State.setNrg_sched (s : State) (x : Fibre) (v : Energy) : (s.setNrg x v).sched = s.sched := (rfl)
@[simp] theorem State.setNrg_commit (s : State) (x : Fibre) (v : Energy) : (s.setNrg x v).commit = s.commit := (rfl)
@[simp] theorem State.setNrg_aux (s : State) (x : Fibre) (v : Energy) : (s.setNrg x v).aux = s.aux := (rfl)
@[simp] theorem State.setNrg_slices (s : State) (x : Fibre) (v : Energy) : (s.setNrg x v).slices = s.slices := (rfl)
@[simp] theorem State.setNrg_cord (s : State) (x : Fibre) (v : Energy) : (s.setNrg x v).cord = s.cord := (rfl)
@[simp] theorem State.setNrg_dts (s : State) (x : Fibre) (v : Energy) : (s.setNrg x v).dts = s.dts := (rfl)
@[simp] theorem State.setNrg_flash (s : State) (x : Fibre) (v : Energy) : (s.setNrg x v).flash = s.flash := (rfl)
@[simp] theorem State.setNrg_lanes (s : State) (x : Fibre) (v : Energy) : (s.setNrg x v).lanes = s.lanes := (rfl)
@[simp] theorem State.setNrg_ground (s : State) (x : Fibre) (v : Energy) : (s.setNrg x v).ground = s.ground := (rfl)
@[simp] theorem State.setNrg_health (s : State) (x : Fibre) (v : Energy) : (s.setNrg x v).health = s.health := (rfl)
@[simp] theorem State.setNrg_hk (s : State) (x : Fibre) (v : Energy) : (s.setNrg x v).hk = s.hk := (rfl)
@[simp] theorem State.setNrg_sensors (s : State) (x : Fibre) (v : Energy) : (s.setNrg x v).sensors = s.sensors := (rfl)
@[simp] theorem State.setNrg_alarm (s : State) (x : Fibre) (v : Energy) : (s.setNrg x v).alarm = s.alarm := (rfl)
@[simp] theorem State.setNrg_memc (s : State) (x : Fibre) (v : Energy) : (s.setNrg x v).memc = s.memc := (rfl)
@[simp] theorem State.setNrg_comps (s : State) (x : Fibre) (v : Energy) : (s.setNrg x v).comps = s.comps := (rfl)
@[simp] theorem State.setNrg_secu (s : State) (x : Fibre) (v : Energy) : (s.setNrg x v).secu = s.secu := (rfl)
@[simp] theorem State.setNrg_boot (s : State) (x : Fibre) (v : Energy) : (s.setNrg x v).boot = s.boot := (rfl)
@[simp] theorem State.setNrg_mon (s : State) (x : Fibre) (v : Energy) : (s.setNrg x v).mon = s.mon := (rfl)
@[simp] theorem State.setNrg_net (s : State) (x : Fibre) (v : Energy) : (s.setNrg x v).net = s.net := (rfl)
@[simp] theorem State.setNrg_pins (s : State) (x : Fibre) (v : Energy) : (s.setNrg x v).pins = s.pins := (rfl)
@[simp] theorem State.setNrg_pending (s : State) (x : Fibre) (v : Energy) : (s.setNrg x v).pending = s.pending := (rfl)
@[simp] theorem State.setNrg_reg (s : State) (x : Fibre) (v : Energy) (j : Nat) : (s.setNrg x v).reg j = s.reg j := (rfl)
@[simp] theorem State.setNrg_rd (s : State) (x : Fibre) (v : Energy) (f2 : Fld) : (s.setNrg x v).rd f2 = s.rd f2 := (rfl)

/-! ## State.setLogical -/

@[simp] theorem State.setLogical_regs (s : State) (ll : Nat) (l : Logical) : (s.setLogical ll l).regs = s.regs := (rfl)
@[simp] theorem State.setLogical_holding (s : State) (ll : Nat) (l : Logical) : (s.setLogical ll l).holding = s.holding := (rfl)
@[simp] theorem State.setLogical_now (s : State) (ll : Nat) (l : Logical) : (s.setLogical ll l).now = s.now := (rfl)
@[simp] theorem State.setLogical_fresh (s : State) (ll : Nat) (l : Logical) : (s.setLogical ll l).fresh = s.fresh := (rfl)
@[simp] theorem State.setLogical_status (s : State) (ll : Nat) (l : Logical) : (s.setLogical ll l).status = s.status := (rfl)
@[simp] theorem State.setLogical_value (s : State) (ll : Nat) (l : Logical) : (s.setLogical ll l).value = s.value := (rfl)
@[simp] theorem State.setLogical_tb (s : State) (ll : Nat) (l : Logical) : (s.setLogical ll l).tb = s.tb := (rfl)
@[simp] theorem State.setLogical_sched (s : State) (ll : Nat) (l : Logical) : (s.setLogical ll l).sched = s.sched := (rfl)
@[simp] theorem State.setLogical_commit (s : State) (ll : Nat) (l : Logical) : (s.setLogical ll l).commit = s.commit := (rfl)
@[simp] theorem State.setLogical_aux (s : State) (ll : Nat) (l : Logical) : (s.setLogical ll l).aux = s.aux := (rfl)
@[simp] theorem State.setLogical_src (s : State) (ll : Nat) (l : Logical) : (s.setLogical ll l).src = s.src := (rfl)
@[simp] theorem State.setLogical_slices (s : State) (ll : Nat) (l : Logical) : (s.setLogical ll l).slices = s.slices := (rfl)
@[simp] theorem State.setLogical_cord (s : State) (ll : Nat) (l : Logical) : (s.setLogical ll l).cord = s.cord := (rfl)
@[simp] theorem State.setLogical_dts (s : State) (ll : Nat) (l : Logical) : (s.setLogical ll l).dts = s.dts := (rfl)
@[simp] theorem State.setLogical_flash (s : State) (ll : Nat) (l : Logical) : (s.setLogical ll l).flash = s.flash := (rfl)
@[simp] theorem State.setLogical_ground (s : State) (ll : Nat) (l : Logical) : (s.setLogical ll l).ground = s.ground := (rfl)
@[simp] theorem State.setLogical_health (s : State) (ll : Nat) (l : Logical) : (s.setLogical ll l).health = s.health := (rfl)
@[simp] theorem State.setLogical_hk (s : State) (ll : Nat) (l : Logical) : (s.setLogical ll l).hk = s.hk := (rfl)
@[simp] theorem State.setLogical_sensors (s : State) (ll : Nat) (l : Logical) : (s.setLogical ll l).sensors = s.sensors := (rfl)
@[simp] theorem State.setLogical_alarm (s : State) (ll : Nat) (l : Logical) : (s.setLogical ll l).alarm = s.alarm := (rfl)
@[simp] theorem State.setLogical_memc (s : State) (ll : Nat) (l : Logical) : (s.setLogical ll l).memc = s.memc := (rfl)
@[simp] theorem State.setLogical_comps (s : State) (ll : Nat) (l : Logical) : (s.setLogical ll l).comps = s.comps := (rfl)
@[simp] theorem State.setLogical_secu (s : State) (ll : Nat) (l : Logical) : (s.setLogical ll l).secu = s.secu := (rfl)
@[simp] theorem State.setLogical_boot (s : State) (ll : Nat) (l : Logical) : (s.setLogical ll l).boot = s.boot := (rfl)
@[simp] theorem State.setLogical_mon (s : State) (ll : Nat) (l : Logical) : (s.setLogical ll l).mon = s.mon := (rfl)
@[simp] theorem State.setLogical_net (s : State) (ll : Nat) (l : Logical) : (s.setLogical ll l).net = s.net := (rfl)
@[simp] theorem State.setLogical_pins (s : State) (ll : Nat) (l : Logical) : (s.setLogical ll l).pins = s.pins := (rfl)
@[simp] theorem State.setLogical_pending (s : State) (ll : Nat) (l : Logical) : (s.setLogical ll l).pending = s.pending := (rfl)
@[simp] theorem State.setLogical_reg (s : State) (ll : Nat) (l : Logical) (j : Nat) : (s.setLogical ll l).reg j = s.reg j := (rfl)
@[simp] theorem State.setLogical_rd (s : State) (ll : Nat) (l : Logical) (f2 : Fld) : (s.setLogical ll l).rd f2 = s.rd f2 := (rfl)

/-! ## State.setAux -/

@[simp] theorem State.setAux_regs (s : State) (k : Nat) (v : AuxChain) : (s.setAux k v).regs = s.regs := (rfl)
@[simp] theorem State.setAux_holding (s : State) (k : Nat) (v : AuxChain) : (s.setAux k v).holding = s.holding := (rfl)
@[simp] theorem State.setAux_now (s : State) (k : Nat) (v : AuxChain) : (s.setAux k v).now = s.now := (rfl)
@[simp] theorem State.setAux_fresh (s : State) (k : Nat) (v : AuxChain) : (s.setAux k v).fresh = s.fresh := (rfl)
@[simp] theorem State.setAux_status (s : State) (k : Nat) (v : AuxChain) : (s.setAux k v).status = s.status := (rfl)
@[simp] theorem State.setAux_value (s : State) (k : Nat) (v : AuxChain) : (s.setAux k v).value = s.value := (rfl)
@[simp] theorem State.setAux_tb (s : State) (k : Nat) (v : AuxChain) : (s.setAux k v).tb = s.tb := (rfl)
@[simp] theorem State.setAux_sched (s : State) (k : Nat) (v : AuxChain) : (s.setAux k v).sched = s.sched := (rfl)
@[simp] theorem State.setAux_commit (s : State) (k : Nat) (v : AuxChain) : (s.setAux k v).commit = s.commit := (rfl)
@[simp] theorem State.setAux_src (s : State) (k : Nat) (v : AuxChain) : (s.setAux k v).src = s.src := (rfl)
@[simp] theorem State.setAux_slices (s : State) (k : Nat) (v : AuxChain) : (s.setAux k v).slices = s.slices := (rfl)
@[simp] theorem State.setAux_cord (s : State) (k : Nat) (v : AuxChain) : (s.setAux k v).cord = s.cord := (rfl)
@[simp] theorem State.setAux_dts (s : State) (k : Nat) (v : AuxChain) : (s.setAux k v).dts = s.dts := (rfl)
@[simp] theorem State.setAux_flash (s : State) (k : Nat) (v : AuxChain) : (s.setAux k v).flash = s.flash := (rfl)
@[simp] theorem State.setAux_lanes (s : State) (k : Nat) (v : AuxChain) : (s.setAux k v).lanes = s.lanes := (rfl)
@[simp] theorem State.setAux_ground (s : State) (k : Nat) (v : AuxChain) : (s.setAux k v).ground = s.ground := (rfl)
@[simp] theorem State.setAux_health (s : State) (k : Nat) (v : AuxChain) : (s.setAux k v).health = s.health := (rfl)
@[simp] theorem State.setAux_hk (s : State) (k : Nat) (v : AuxChain) : (s.setAux k v).hk = s.hk := (rfl)
@[simp] theorem State.setAux_sensors (s : State) (k : Nat) (v : AuxChain) : (s.setAux k v).sensors = s.sensors := (rfl)
@[simp] theorem State.setAux_alarm (s : State) (k : Nat) (v : AuxChain) : (s.setAux k v).alarm = s.alarm := (rfl)
@[simp] theorem State.setAux_memc (s : State) (k : Nat) (v : AuxChain) : (s.setAux k v).memc = s.memc := (rfl)
@[simp] theorem State.setAux_comps (s : State) (k : Nat) (v : AuxChain) : (s.setAux k v).comps = s.comps := (rfl)
@[simp] theorem State.setAux_secu (s : State) (k : Nat) (v : AuxChain) : (s.setAux k v).secu = s.secu := (rfl)
@[simp] theorem State.setAux_boot (s : State) (k : Nat) (v : AuxChain) : (s.setAux k v).boot = s.boot := (rfl)
@[simp] theorem State.setAux_mon (s : State) (k : Nat) (v : AuxChain) : (s.setAux k v).mon = s.mon := (rfl)
@[simp] theorem State.setAux_net (s : State) (k : Nat) (v : AuxChain) : (s.setAux k v).net = s.net := (rfl)
@[simp] theorem State.setAux_pins (s : State) (k : Nat) (v : AuxChain) : (s.setAux k v).pins = s.pins := (rfl)
@[simp] theorem State.setAux_pending (s : State) (k : Nat) (v : AuxChain) : (s.setAux k v).pending = s.pending := (rfl)
@[simp] theorem State.setAux_reg (s : State) (k : Nat) (v : AuxChain) (j : Nat) : (s.setAux k v).reg j = s.reg j := (rfl)
@[simp] theorem State.setAux_rd (s : State) (k : Nat) (v : AuxChain) (f2 : Fld) : (s.setAux k v).rd f2 = s.rd f2 := (rfl)

/-! ## State.setDt -/

@[simp] theorem State.setDt_regs (s : State) (x : Fibre) (d : Dts) : (s.setDt x d).regs = s.regs := (rfl)
@[simp] theorem State.setDt_holding (s : State) (x : Fibre) (d : Dts) : (s.setDt x d).holding = s.holding := (rfl)
@[simp] theorem State.setDt_now (s : State) (x : Fibre) (d : Dts) : (s.setDt x d).now = s.now := (rfl)
@[simp] theorem State.setDt_fresh (s : State) (x : Fibre) (d : Dts) : (s.setDt x d).fresh = s.fresh := (rfl)
@[simp] theorem State.setDt_status (s : State) (x : Fibre) (d : Dts) : (s.setDt x d).status = s.status := (rfl)
@[simp] theorem State.setDt_value (s : State) (x : Fibre) (d : Dts) : (s.setDt x d).value = s.value := (rfl)
@[simp] theorem State.setDt_tb (s : State) (x : Fibre) (d : Dts) : (s.setDt x d).tb = s.tb := (rfl)
@[simp] theorem State.setDt_sched (s : State) (x : Fibre) (d : Dts) : (s.setDt x d).sched = s.sched := (rfl)
@[simp] theorem State.setDt_commit (s : State) (x : Fibre) (d : Dts) : (s.setDt x d).commit = s.commit := (rfl)
@[simp] theorem State.setDt_aux (s : State) (x : Fibre) (d : Dts) : (s.setDt x d).aux = s.aux := (rfl)
@[simp] theorem State.setDt_src (s : State) (x : Fibre) (d : Dts) : (s.setDt x d).src = s.src := (rfl)
@[simp] theorem State.setDt_slices (s : State) (x : Fibre) (d : Dts) : (s.setDt x d).slices = s.slices := (rfl)
@[simp] theorem State.setDt_cord (s : State) (x : Fibre) (d : Dts) : (s.setDt x d).cord = s.cord := (rfl)
@[simp] theorem State.setDt_flash (s : State) (x : Fibre) (d : Dts) : (s.setDt x d).flash = s.flash := (rfl)
@[simp] theorem State.setDt_lanes (s : State) (x : Fibre) (d : Dts) : (s.setDt x d).lanes = s.lanes := (rfl)
@[simp] theorem State.setDt_ground (s : State) (x : Fibre) (d : Dts) : (s.setDt x d).ground = s.ground := (rfl)
@[simp] theorem State.setDt_health (s : State) (x : Fibre) (d : Dts) : (s.setDt x d).health = s.health := (rfl)
@[simp] theorem State.setDt_hk (s : State) (x : Fibre) (d : Dts) : (s.setDt x d).hk = s.hk := (rfl)
@[simp] theorem State.setDt_sensors (s : State) (x : Fibre) (d : Dts) : (s.setDt x d).sensors = s.sensors := (rfl)
@[simp] theorem State.setDt_alarm (s : State) (x : Fibre) (d : Dts) : (s.setDt x d).alarm = s.alarm := (rfl)
@[simp] theorem State.setDt_memc (s : State) (x : Fibre) (d : Dts) : (s.setDt x d).memc = s.memc := (rfl)
@[simp] theorem State.setDt_comps (s : State) (x : Fibre) (d : Dts) : (s.setDt x d).comps = s.comps := (rfl)
@[simp] theorem State.setDt_secu (s : State) (x : Fibre) (d : Dts) : (s.setDt x d).secu = s.secu := (rfl)
@[simp] theorem State.setDt_boot (s : State) (x : Fibre) (d : Dts) : (s.setDt x d).boot = s.boot := (rfl)
@[simp] theorem State.setDt_mon (s : State) (x : Fibre) (d : Dts) : (s.setDt x d).mon = s.mon := (rfl)
@[simp] theorem State.setDt_net (s : State) (x : Fibre) (d : Dts) : (s.setDt x d).net = s.net := (rfl)
@[simp] theorem State.setDt_pins (s : State) (x : Fibre) (d : Dts) : (s.setDt x d).pins = s.pins := (rfl)
@[simp] theorem State.setDt_pending (s : State) (x : Fibre) (d : Dts) : (s.setDt x d).pending = s.pending := (rfl)
@[simp] theorem State.setDt_reg (s : State) (x : Fibre) (d : Dts) (j : Nat) : (s.setDt x d).reg j = s.reg j := (rfl)
@[simp] theorem State.setDt_rd (s : State) (x : Fibre) (d : Dts) (f2 : Fld) : (s.setDt x d).rd f2 = s.rd f2 := (rfl)

/-! ## State.setComp -/

@[simp] theorem State.setComp_regs (s : State) (n : Nat) (c : Comp) : (s.setComp n c).regs = s.regs := (rfl)
@[simp] theorem State.setComp_holding (s : State) (n : Nat) (c : Comp) : (s.setComp n c).holding = s.holding := (rfl)
@[simp] theorem State.setComp_now (s : State) (n : Nat) (c : Comp) : (s.setComp n c).now = s.now := (rfl)
@[simp] theorem State.setComp_fresh (s : State) (n : Nat) (c : Comp) : (s.setComp n c).fresh = s.fresh := (rfl)
@[simp] theorem State.setComp_status (s : State) (n : Nat) (c : Comp) : (s.setComp n c).status = s.status := (rfl)
@[simp] theorem State.setComp_value (s : State) (n : Nat) (c : Comp) : (s.setComp n c).value = s.value := (rfl)
@[simp] theorem State.setComp_tb (s : State) (n : Nat) (c : Comp) : (s.setComp n c).tb = s.tb := (rfl)
@[simp] theorem State.setComp_sched (s : State) (n : Nat) (c : Comp) : (s.setComp n c).sched = s.sched := (rfl)
@[simp] theorem State.setComp_commit (s : State) (n : Nat) (c : Comp) : (s.setComp n c).commit = s.commit := (rfl)
@[simp] theorem State.setComp_aux (s : State) (n : Nat) (c : Comp) : (s.setComp n c).aux = s.aux := (rfl)
@[simp] theorem State.setComp_src (s : State) (n : Nat) (c : Comp) : (s.setComp n c).src = s.src := (rfl)
@[simp] theorem State.setComp_slices (s : State) (n : Nat) (c : Comp) : (s.setComp n c).slices = s.slices := (rfl)
@[simp] theorem State.setComp_cord (s : State) (n : Nat) (c : Comp) : (s.setComp n c).cord = s.cord := (rfl)
@[simp] theorem State.setComp_dts (s : State) (n : Nat) (c : Comp) : (s.setComp n c).dts = s.dts := (rfl)
@[simp] theorem State.setComp_flash (s : State) (n : Nat) (c : Comp) : (s.setComp n c).flash = s.flash := (rfl)
@[simp] theorem State.setComp_lanes (s : State) (n : Nat) (c : Comp) : (s.setComp n c).lanes = s.lanes := (rfl)
@[simp] theorem State.setComp_ground (s : State) (n : Nat) (c : Comp) : (s.setComp n c).ground = s.ground := (rfl)
@[simp] theorem State.setComp_health (s : State) (n : Nat) (c : Comp) : (s.setComp n c).health = s.health := (rfl)
@[simp] theorem State.setComp_hk (s : State) (n : Nat) (c : Comp) : (s.setComp n c).hk = s.hk := (rfl)
@[simp] theorem State.setComp_sensors (s : State) (n : Nat) (c : Comp) : (s.setComp n c).sensors = s.sensors := (rfl)
@[simp] theorem State.setComp_alarm (s : State) (n : Nat) (c : Comp) : (s.setComp n c).alarm = s.alarm := (rfl)
@[simp] theorem State.setComp_memc (s : State) (n : Nat) (c : Comp) : (s.setComp n c).memc = s.memc := (rfl)
@[simp] theorem State.setComp_secu (s : State) (n : Nat) (c : Comp) : (s.setComp n c).secu = s.secu := (rfl)
@[simp] theorem State.setComp_boot (s : State) (n : Nat) (c : Comp) : (s.setComp n c).boot = s.boot := (rfl)
@[simp] theorem State.setComp_mon (s : State) (n : Nat) (c : Comp) : (s.setComp n c).mon = s.mon := (rfl)
@[simp] theorem State.setComp_net (s : State) (n : Nat) (c : Comp) : (s.setComp n c).net = s.net := (rfl)
@[simp] theorem State.setComp_pins (s : State) (n : Nat) (c : Comp) : (s.setComp n c).pins = s.pins := (rfl)
@[simp] theorem State.setComp_pending (s : State) (n : Nat) (c : Comp) : (s.setComp n c).pending = s.pending := (rfl)
@[simp] theorem State.setComp_reg (s : State) (n : Nat) (c : Comp) (j : Nat) : (s.setComp n c).reg j = s.reg j := (rfl)
@[simp] theorem State.setComp_rd (s : State) (n : Nat) (c : Comp) (f2 : Fld) : (s.setComp n c).rd f2 = s.rd f2 := (rfl)

/-! ## State.setSensor -/

@[simp] theorem State.setSensor_regs (s : State) (n : Nat) (v : Sensor) : (s.setSensor n v).regs = s.regs := (rfl)
@[simp] theorem State.setSensor_holding (s : State) (n : Nat) (v : Sensor) : (s.setSensor n v).holding = s.holding := (rfl)
@[simp] theorem State.setSensor_now (s : State) (n : Nat) (v : Sensor) : (s.setSensor n v).now = s.now := (rfl)
@[simp] theorem State.setSensor_fresh (s : State) (n : Nat) (v : Sensor) : (s.setSensor n v).fresh = s.fresh := (rfl)
@[simp] theorem State.setSensor_status (s : State) (n : Nat) (v : Sensor) : (s.setSensor n v).status = s.status := (rfl)
@[simp] theorem State.setSensor_value (s : State) (n : Nat) (v : Sensor) : (s.setSensor n v).value = s.value := (rfl)
@[simp] theorem State.setSensor_tb (s : State) (n : Nat) (v : Sensor) : (s.setSensor n v).tb = s.tb := (rfl)
@[simp] theorem State.setSensor_sched (s : State) (n : Nat) (v : Sensor) : (s.setSensor n v).sched = s.sched := (rfl)
@[simp] theorem State.setSensor_commit (s : State) (n : Nat) (v : Sensor) : (s.setSensor n v).commit = s.commit := (rfl)
@[simp] theorem State.setSensor_aux (s : State) (n : Nat) (v : Sensor) : (s.setSensor n v).aux = s.aux := (rfl)
@[simp] theorem State.setSensor_src (s : State) (n : Nat) (v : Sensor) : (s.setSensor n v).src = s.src := (rfl)
@[simp] theorem State.setSensor_slices (s : State) (n : Nat) (v : Sensor) : (s.setSensor n v).slices = s.slices := (rfl)
@[simp] theorem State.setSensor_cord (s : State) (n : Nat) (v : Sensor) : (s.setSensor n v).cord = s.cord := (rfl)
@[simp] theorem State.setSensor_dts (s : State) (n : Nat) (v : Sensor) : (s.setSensor n v).dts = s.dts := (rfl)
@[simp] theorem State.setSensor_flash (s : State) (n : Nat) (v : Sensor) : (s.setSensor n v).flash = s.flash := (rfl)
@[simp] theorem State.setSensor_lanes (s : State) (n : Nat) (v : Sensor) : (s.setSensor n v).lanes = s.lanes := (rfl)
@[simp] theorem State.setSensor_ground (s : State) (n : Nat) (v : Sensor) : (s.setSensor n v).ground = s.ground := (rfl)
@[simp] theorem State.setSensor_health (s : State) (n : Nat) (v : Sensor) : (s.setSensor n v).health = s.health := (rfl)
@[simp] theorem State.setSensor_hk (s : State) (n : Nat) (v : Sensor) : (s.setSensor n v).hk = s.hk := (rfl)
@[simp] theorem State.setSensor_alarm (s : State) (n : Nat) (v : Sensor) : (s.setSensor n v).alarm = s.alarm := (rfl)
@[simp] theorem State.setSensor_memc (s : State) (n : Nat) (v : Sensor) : (s.setSensor n v).memc = s.memc := (rfl)
@[simp] theorem State.setSensor_comps (s : State) (n : Nat) (v : Sensor) : (s.setSensor n v).comps = s.comps := (rfl)
@[simp] theorem State.setSensor_secu (s : State) (n : Nat) (v : Sensor) : (s.setSensor n v).secu = s.secu := (rfl)
@[simp] theorem State.setSensor_boot (s : State) (n : Nat) (v : Sensor) : (s.setSensor n v).boot = s.boot := (rfl)
@[simp] theorem State.setSensor_mon (s : State) (n : Nat) (v : Sensor) : (s.setSensor n v).mon = s.mon := (rfl)
@[simp] theorem State.setSensor_net (s : State) (n : Nat) (v : Sensor) : (s.setSensor n v).net = s.net := (rfl)
@[simp] theorem State.setSensor_pins (s : State) (n : Nat) (v : Sensor) : (s.setSensor n v).pins = s.pins := (rfl)
@[simp] theorem State.setSensor_pending (s : State) (n : Nat) (v : Sensor) : (s.setSensor n v).pending = s.pending := (rfl)
@[simp] theorem State.setSensor_reg (s : State) (n : Nat) (v : Sensor) (j : Nat) : (s.setSensor n v).reg j = s.reg j := (rfl)
@[simp] theorem State.setSensor_rd (s : State) (n : Nat) (v : Sensor) (f2 : Fld) : (s.setSensor n v).rd f2 = s.rd f2 := (rfl)

/-! ## State.setZone -/

@[simp] theorem State.setZone_regs (s : State) (z : Nat) (v : Zone) : (s.setZone z v).regs = s.regs := (rfl)
@[simp] theorem State.setZone_holding (s : State) (z : Nat) (v : Zone) : (s.setZone z v).holding = s.holding := (rfl)
@[simp] theorem State.setZone_now (s : State) (z : Nat) (v : Zone) : (s.setZone z v).now = s.now := (rfl)
@[simp] theorem State.setZone_fresh (s : State) (z : Nat) (v : Zone) : (s.setZone z v).fresh = s.fresh := (rfl)
@[simp] theorem State.setZone_status (s : State) (z : Nat) (v : Zone) : (s.setZone z v).status = s.status := (rfl)
@[simp] theorem State.setZone_value (s : State) (z : Nat) (v : Zone) : (s.setZone z v).value = s.value := (rfl)
@[simp] theorem State.setZone_tb (s : State) (z : Nat) (v : Zone) : (s.setZone z v).tb = s.tb := (rfl)
@[simp] theorem State.setZone_sched (s : State) (z : Nat) (v : Zone) : (s.setZone z v).sched = s.sched := (rfl)
@[simp] theorem State.setZone_commit (s : State) (z : Nat) (v : Zone) : (s.setZone z v).commit = s.commit := (rfl)
@[simp] theorem State.setZone_aux (s : State) (z : Nat) (v : Zone) : (s.setZone z v).aux = s.aux := (rfl)
@[simp] theorem State.setZone_src (s : State) (z : Nat) (v : Zone) : (s.setZone z v).src = s.src := (rfl)
@[simp] theorem State.setZone_slices (s : State) (z : Nat) (v : Zone) : (s.setZone z v).slices = s.slices := (rfl)
@[simp] theorem State.setZone_cord (s : State) (z : Nat) (v : Zone) : (s.setZone z v).cord = s.cord := (rfl)
@[simp] theorem State.setZone_dts (s : State) (z : Nat) (v : Zone) : (s.setZone z v).dts = s.dts := (rfl)
@[simp] theorem State.setZone_flash (s : State) (z : Nat) (v : Zone) : (s.setZone z v).flash = s.flash := (rfl)
@[simp] theorem State.setZone_lanes (s : State) (z : Nat) (v : Zone) : (s.setZone z v).lanes = s.lanes := (rfl)
@[simp] theorem State.setZone_ground (s : State) (z : Nat) (v : Zone) : (s.setZone z v).ground = s.ground := (rfl)
@[simp] theorem State.setZone_health (s : State) (z : Nat) (v : Zone) : (s.setZone z v).health = s.health := (rfl)
@[simp] theorem State.setZone_hk (s : State) (z : Nat) (v : Zone) : (s.setZone z v).hk = s.hk := (rfl)
@[simp] theorem State.setZone_sensors (s : State) (z : Nat) (v : Zone) : (s.setZone z v).sensors = s.sensors := (rfl)
@[simp] theorem State.setZone_memc (s : State) (z : Nat) (v : Zone) : (s.setZone z v).memc = s.memc := (rfl)
@[simp] theorem State.setZone_comps (s : State) (z : Nat) (v : Zone) : (s.setZone z v).comps = s.comps := (rfl)
@[simp] theorem State.setZone_secu (s : State) (z : Nat) (v : Zone) : (s.setZone z v).secu = s.secu := (rfl)
@[simp] theorem State.setZone_boot (s : State) (z : Nat) (v : Zone) : (s.setZone z v).boot = s.boot := (rfl)
@[simp] theorem State.setZone_mon (s : State) (z : Nat) (v : Zone) : (s.setZone z v).mon = s.mon := (rfl)
@[simp] theorem State.setZone_net (s : State) (z : Nat) (v : Zone) : (s.setZone z v).net = s.net := (rfl)
@[simp] theorem State.setZone_pins (s : State) (z : Nat) (v : Zone) : (s.setZone z v).pins = s.pins := (rfl)
@[simp] theorem State.setZone_pending (s : State) (z : Nat) (v : Zone) : (s.setZone z v).pending = s.pending := (rfl)
@[simp] theorem State.setZone_reg (s : State) (z : Nat) (v : Zone) (j : Nat) : (s.setZone z v).reg j = s.reg j := (rfl)
@[simp] theorem State.setZone_rd (s : State) (z : Nat) (v : Zone) (f2 : Fld) : (s.setZone z v).rd f2 = s.rd f2 := (rfl)

/-! ## State.setReadback -/

@[simp] theorem State.setReadback_regs (s : State) (n : Nat) (v : Readback) : (s.setReadback n v).regs = s.regs := (rfl)
@[simp] theorem State.setReadback_holding (s : State) (n : Nat) (v : Readback) : (s.setReadback n v).holding = s.holding := (rfl)
@[simp] theorem State.setReadback_now (s : State) (n : Nat) (v : Readback) : (s.setReadback n v).now = s.now := (rfl)
@[simp] theorem State.setReadback_fresh (s : State) (n : Nat) (v : Readback) : (s.setReadback n v).fresh = s.fresh := (rfl)
@[simp] theorem State.setReadback_status (s : State) (n : Nat) (v : Readback) : (s.setReadback n v).status = s.status := (rfl)
@[simp] theorem State.setReadback_value (s : State) (n : Nat) (v : Readback) : (s.setReadback n v).value = s.value := (rfl)
@[simp] theorem State.setReadback_tb (s : State) (n : Nat) (v : Readback) : (s.setReadback n v).tb = s.tb := (rfl)
@[simp] theorem State.setReadback_sched (s : State) (n : Nat) (v : Readback) : (s.setReadback n v).sched = s.sched := (rfl)
@[simp] theorem State.setReadback_commit (s : State) (n : Nat) (v : Readback) : (s.setReadback n v).commit = s.commit := (rfl)
@[simp] theorem State.setReadback_aux (s : State) (n : Nat) (v : Readback) : (s.setReadback n v).aux = s.aux := (rfl)
@[simp] theorem State.setReadback_src (s : State) (n : Nat) (v : Readback) : (s.setReadback n v).src = s.src := (rfl)
@[simp] theorem State.setReadback_slices (s : State) (n : Nat) (v : Readback) : (s.setReadback n v).slices = s.slices := (rfl)
@[simp] theorem State.setReadback_cord (s : State) (n : Nat) (v : Readback) : (s.setReadback n v).cord = s.cord := (rfl)
@[simp] theorem State.setReadback_dts (s : State) (n : Nat) (v : Readback) : (s.setReadback n v).dts = s.dts := (rfl)
@[simp] theorem State.setReadback_flash (s : State) (n : Nat) (v : Readback) : (s.setReadback n v).flash = s.flash := (rfl)
@[simp] theorem State.setReadback_lanes (s : State) (n : Nat) (v : Readback) : (s.setReadback n v).lanes = s.lanes := (rfl)
@[simp] theorem State.setReadback_ground (s : State) (n : Nat) (v : Readback) : (s.setReadback n v).ground = s.ground := (rfl)
@[simp] theorem State.setReadback_health (s : State) (n : Nat) (v : Readback) : (s.setReadback n v).health = s.health := (rfl)
@[simp] theorem State.setReadback_hk (s : State) (n : Nat) (v : Readback) : (s.setReadback n v).hk = s.hk := (rfl)
@[simp] theorem State.setReadback_sensors (s : State) (n : Nat) (v : Readback) : (s.setReadback n v).sensors = s.sensors := (rfl)
@[simp] theorem State.setReadback_memc (s : State) (n : Nat) (v : Readback) : (s.setReadback n v).memc = s.memc := (rfl)
@[simp] theorem State.setReadback_comps (s : State) (n : Nat) (v : Readback) : (s.setReadback n v).comps = s.comps := (rfl)
@[simp] theorem State.setReadback_secu (s : State) (n : Nat) (v : Readback) : (s.setReadback n v).secu = s.secu := (rfl)
@[simp] theorem State.setReadback_boot (s : State) (n : Nat) (v : Readback) : (s.setReadback n v).boot = s.boot := (rfl)
@[simp] theorem State.setReadback_mon (s : State) (n : Nat) (v : Readback) : (s.setReadback n v).mon = s.mon := (rfl)
@[simp] theorem State.setReadback_net (s : State) (n : Nat) (v : Readback) : (s.setReadback n v).net = s.net := (rfl)
@[simp] theorem State.setReadback_pins (s : State) (n : Nat) (v : Readback) : (s.setReadback n v).pins = s.pins := (rfl)
@[simp] theorem State.setReadback_pending (s : State) (n : Nat) (v : Readback) : (s.setReadback n v).pending = s.pending := (rfl)
@[simp] theorem State.setReadback_reg (s : State) (n : Nat) (v : Readback) (j : Nat) : (s.setReadback n v).reg j = s.reg j := (rfl)
@[simp] theorem State.setReadback_rd (s : State) (n : Nat) (v : Readback) (f2 : Fld) : (s.setReadback n v).rd f2 = s.rd f2 := (rfl)

/-! ## State.print -/

@[simp] theorem State.print_regs (s : State) (l : List Byte) : (s.print l).regs = s.regs := (rfl)
@[simp] theorem State.print_holding (s : State) (l : List Byte) : (s.print l).holding = s.holding := (rfl)
@[simp] theorem State.print_now (s : State) (l : List Byte) : (s.print l).now = s.now := (rfl)
@[simp] theorem State.print_fresh (s : State) (l : List Byte) : (s.print l).fresh = s.fresh := (rfl)
@[simp] theorem State.print_status (s : State) (l : List Byte) : (s.print l).status = s.status := (rfl)
@[simp] theorem State.print_value (s : State) (l : List Byte) : (s.print l).value = s.value := (rfl)
@[simp] theorem State.print_tb (s : State) (l : List Byte) : (s.print l).tb = s.tb := (rfl)
@[simp] theorem State.print_sched (s : State) (l : List Byte) : (s.print l).sched = s.sched := (rfl)
@[simp] theorem State.print_commit (s : State) (l : List Byte) : (s.print l).commit = s.commit := (rfl)
@[simp] theorem State.print_aux (s : State) (l : List Byte) : (s.print l).aux = s.aux := (rfl)
@[simp] theorem State.print_src (s : State) (l : List Byte) : (s.print l).src = s.src := (rfl)
@[simp] theorem State.print_slices (s : State) (l : List Byte) : (s.print l).slices = s.slices := (rfl)
@[simp] theorem State.print_cord (s : State) (l : List Byte) : (s.print l).cord = s.cord := (rfl)
@[simp] theorem State.print_dts (s : State) (l : List Byte) : (s.print l).dts = s.dts := (rfl)
@[simp] theorem State.print_flash (s : State) (l : List Byte) : (s.print l).flash = s.flash := (rfl)
@[simp] theorem State.print_lanes (s : State) (l : List Byte) : (s.print l).lanes = s.lanes := (rfl)
@[simp] theorem State.print_ground (s : State) (l : List Byte) : (s.print l).ground = s.ground := (rfl)
@[simp] theorem State.print_health (s : State) (l : List Byte) : (s.print l).health = s.health := (rfl)
@[simp] theorem State.print_hk (s : State) (l : List Byte) : (s.print l).hk = s.hk := (rfl)
@[simp] theorem State.print_sensors (s : State) (l : List Byte) : (s.print l).sensors = s.sensors := (rfl)
@[simp] theorem State.print_alarm (s : State) (l : List Byte) : (s.print l).alarm = s.alarm := (rfl)
@[simp] theorem State.print_memc (s : State) (l : List Byte) : (s.print l).memc = s.memc := (rfl)
@[simp] theorem State.print_comps (s : State) (l : List Byte) : (s.print l).comps = s.comps := (rfl)
@[simp] theorem State.print_secu (s : State) (l : List Byte) : (s.print l).secu = s.secu := (rfl)
@[simp] theorem State.print_boot (s : State) (l : List Byte) : (s.print l).boot = s.boot := (rfl)
@[simp] theorem State.print_net (s : State) (l : List Byte) : (s.print l).net = s.net := (rfl)
@[simp] theorem State.print_pins (s : State) (l : List Byte) : (s.print l).pins = s.pins := (rfl)
@[simp] theorem State.print_pending (s : State) (l : List Byte) : (s.print l).pending = s.pending := (rfl)
@[simp] theorem State.print_reg (s : State) (l : List Byte) (j : Nat) : (s.print l).reg j = s.reg j := (rfl)
@[simp] theorem State.print_rd (s : State) (l : List Byte) (f2 : Fld) : (s.print l).rd f2 = s.rd f2 := (rfl)

@[simp] theorem State.answer_status (s : State) (st : Status) : (s.answer st).status = st := (rfl)

/-! ## State.wrs -/

@[simp] theorem State.wrs_holding (s : State) (l : List (Fld × Nat)) : (s.wrs l).holding = s.holding := by
  induction l generalizing s with
  | nil => rfl
  | cons p t ih => exact (ih _).trans (State.wr_holding s p.1 p.2)
@[simp] theorem State.wrs_now (s : State) (l : List (Fld × Nat)) : (s.wrs l).now = s.now := by
  induction l generalizing s with
  | nil => rfl
  | cons p t ih => exact (ih _).trans (State.wr_now s p.1 p.2)
@[simp] theorem State.wrs_fresh (s : State) (l : List (Fld × Nat)) : (s.wrs l).fresh = s.fresh := by
  induction l generalizing s with
  | nil => rfl
  | cons p t ih => exact (ih _).trans (State.wr_fresh s p.1 p.2)
@[simp] theorem State.wrs_status (s : State) (l : List (Fld × Nat)) : (s.wrs l).status = s.status := by
  induction l generalizing s with
  | nil => rfl
  | cons p t ih => exact (ih _).trans (State.wr_status s p.1 p.2)
@[simp] theorem State.wrs_value (s : State) (l : List (Fld × Nat)) : (s.wrs l).value = s.value := by
  induction l generalizing s with
  | nil => rfl
  | cons p t ih => exact (ih _).trans (State.wr_value s p.1 p.2)
@[simp] theorem State.wrs_tb (s : State) (l : List (Fld × Nat)) : (s.wrs l).tb = s.tb := by
  induction l generalizing s with
  | nil => rfl
  | cons p t ih => exact (ih _).trans (State.wr_tb s p.1 p.2)
@[simp] theorem State.wrs_sched (s : State) (l : List (Fld × Nat)) : (s.wrs l).sched = s.sched := by
  induction l generalizing s with
  | nil => rfl
  | cons p t ih => exact (ih _).trans (State.wr_sched s p.1 p.2)
@[simp] theorem State.wrs_commit (s : State) (l : List (Fld × Nat)) : (s.wrs l).commit = s.commit := by
  induction l generalizing s with
  | nil => rfl
  | cons p t ih => exact (ih _).trans (State.wr_commit s p.1 p.2)
@[simp] theorem State.wrs_aux (s : State) (l : List (Fld × Nat)) : (s.wrs l).aux = s.aux := by
  induction l generalizing s with
  | nil => rfl
  | cons p t ih => exact (ih _).trans (State.wr_aux s p.1 p.2)
@[simp] theorem State.wrs_src (s : State) (l : List (Fld × Nat)) : (s.wrs l).src = s.src := by
  induction l generalizing s with
  | nil => rfl
  | cons p t ih => exact (ih _).trans (State.wr_src s p.1 p.2)
@[simp] theorem State.wrs_slices (s : State) (l : List (Fld × Nat)) : (s.wrs l).slices = s.slices := by
  induction l generalizing s with
  | nil => rfl
  | cons p t ih => exact (ih _).trans (State.wr_slices s p.1 p.2)
@[simp] theorem State.wrs_cord (s : State) (l : List (Fld × Nat)) : (s.wrs l).cord = s.cord := by
  induction l generalizing s with
  | nil => rfl
  | cons p t ih => exact (ih _).trans (State.wr_cord s p.1 p.2)
@[simp] theorem State.wrs_dts (s : State) (l : List (Fld × Nat)) : (s.wrs l).dts = s.dts := by
  induction l generalizing s with
  | nil => rfl
  | cons p t ih => exact (ih _).trans (State.wr_dts s p.1 p.2)
@[simp] theorem State.wrs_flash (s : State) (l : List (Fld × Nat)) : (s.wrs l).flash = s.flash := by
  induction l generalizing s with
  | nil => rfl
  | cons p t ih => exact (ih _).trans (State.wr_flash s p.1 p.2)
@[simp] theorem State.wrs_lanes (s : State) (l : List (Fld × Nat)) : (s.wrs l).lanes = s.lanes := by
  induction l generalizing s with
  | nil => rfl
  | cons p t ih => exact (ih _).trans (State.wr_lanes s p.1 p.2)
@[simp] theorem State.wrs_ground (s : State) (l : List (Fld × Nat)) : (s.wrs l).ground = s.ground := by
  induction l generalizing s with
  | nil => rfl
  | cons p t ih => exact (ih _).trans (State.wr_ground s p.1 p.2)
@[simp] theorem State.wrs_health (s : State) (l : List (Fld × Nat)) : (s.wrs l).health = s.health := by
  induction l generalizing s with
  | nil => rfl
  | cons p t ih => exact (ih _).trans (State.wr_health s p.1 p.2)
@[simp] theorem State.wrs_hk (s : State) (l : List (Fld × Nat)) : (s.wrs l).hk = s.hk := by
  induction l generalizing s with
  | nil => rfl
  | cons p t ih => exact (ih _).trans (State.wr_hk s p.1 p.2)
@[simp] theorem State.wrs_sensors (s : State) (l : List (Fld × Nat)) : (s.wrs l).sensors = s.sensors := by
  induction l generalizing s with
  | nil => rfl
  | cons p t ih => exact (ih _).trans (State.wr_sensors s p.1 p.2)
@[simp] theorem State.wrs_alarm (s : State) (l : List (Fld × Nat)) : (s.wrs l).alarm = s.alarm := by
  induction l generalizing s with
  | nil => rfl
  | cons p t ih => exact (ih _).trans (State.wr_alarm s p.1 p.2)
@[simp] theorem State.wrs_memc (s : State) (l : List (Fld × Nat)) : (s.wrs l).memc = s.memc := by
  induction l generalizing s with
  | nil => rfl
  | cons p t ih => exact (ih _).trans (State.wr_memc s p.1 p.2)
@[simp] theorem State.wrs_comps (s : State) (l : List (Fld × Nat)) : (s.wrs l).comps = s.comps := by
  induction l generalizing s with
  | nil => rfl
  | cons p t ih => exact (ih _).trans (State.wr_comps s p.1 p.2)
@[simp] theorem State.wrs_secu (s : State) (l : List (Fld × Nat)) : (s.wrs l).secu = s.secu := by
  induction l generalizing s with
  | nil => rfl
  | cons p t ih => exact (ih _).trans (State.wr_secu s p.1 p.2)
@[simp] theorem State.wrs_boot (s : State) (l : List (Fld × Nat)) : (s.wrs l).boot = s.boot := by
  induction l generalizing s with
  | nil => rfl
  | cons p t ih => exact (ih _).trans (State.wr_boot s p.1 p.2)
@[simp] theorem State.wrs_mon (s : State) (l : List (Fld × Nat)) : (s.wrs l).mon = s.mon := by
  induction l generalizing s with
  | nil => rfl
  | cons p t ih => exact (ih _).trans (State.wr_mon s p.1 p.2)
@[simp] theorem State.wrs_net (s : State) (l : List (Fld × Nat)) : (s.wrs l).net = s.net := by
  induction l generalizing s with
  | nil => rfl
  | cons p t ih => exact (ih _).trans (State.wr_net s p.1 p.2)
@[simp] theorem State.wrs_pins (s : State) (l : List (Fld × Nat)) : (s.wrs l).pins = s.pins := by
  induction l generalizing s with
  | nil => rfl
  | cons p t ih => exact (ih _).trans (State.wr_pins s p.1 p.2)
@[simp] theorem State.wrs_pending (s : State) (l : List (Fld × Nat)) : (s.wrs l).pending = s.pending := by
  induction l generalizing s with
  | nil => rfl
  | cons p t ih => exact (ih _).trans (State.wr_pending s p.1 p.2)

end Sys2Proof.Machine
end

