-- ==== Sys2Proof/Laws/Fields.lean ====
section
/-!
SUPPORT. Reading registers and fields after writes of them.
-/
namespace Sys2Proof.Machine

/-! ## Words -/

/-- A field that lies in a word. -/
def Fld.ok (f : Fld) : Prop := f.lo + f.w ≤ 32

theorem wordPut_toNat (lo w : Nat) (v : Word) (x : Nat) (h : lo + w ≤ 32) :
    (wordPut lo w v x).toNat = v.toNat / 2 ^ (lo + w) * 2 ^ (lo + w) + x % 2 ^ w * 2 ^ lo + v.toNat % 2 ^ lo := by
  have hv : v.toNat < 2 ^ 32 := v.isLt
  have hx : x % 2 ^ w < 2 ^ w := Nat.mod_lt _ (Nat.two_pow_pos w)
  have hl : v.toNat % 2 ^ lo < 2 ^ lo := Nat.mod_lt _ (Nat.two_pow_pos lo)
  have hmid : x % 2 ^ w * 2 ^ lo + v.toNat % 2 ^ lo < 2 ^ (lo + w) := by
    have : (x % 2 ^ w + 1) * 2 ^ lo ≤ 2 ^ w * 2 ^ lo := Nat.mul_le_mul_right _ hx
    rw [Nat.pow_add, Nat.mul_comm (2 ^ lo)]
    have e : (x % 2 ^ w + 1) * 2 ^ lo = x % 2 ^ w * 2 ^ lo + 2 ^ lo := by ring
    omega
  have hhi : v.toNat / 2 ^ (lo + w) < 2 ^ (32 - (lo + w)) := by
    rw [Nat.div_lt_iff_lt_mul (Nat.two_pow_pos _), ← Nat.pow_add]
    have : 32 - (lo + w) + (lo + w) = 32 := by omega
    rwa [this]
  have hsum : v.toNat / 2 ^ (lo + w) * 2 ^ (lo + w) + x % 2 ^ w * 2 ^ lo + v.toNat % 2 ^ lo < 2 ^ 32 := by
    have h1 : (v.toNat / 2 ^ (lo + w) + 1) * 2 ^ (lo + w) ≤ 2 ^ (32 - (lo + w)) * 2 ^ (lo + w) := Nat.mul_le_mul_right _ hhi
    have h2 : 2 ^ (32 - (lo + w)) * 2 ^ (lo + w) = 2 ^ 32 := by
      rw [← Nat.pow_add]
      congr 1
      omega
    have e : (v.toNat / 2 ^ (lo + w) + 1) * 2 ^ (lo + w) = v.toNat / 2 ^ (lo + w) * 2 ^ (lo + w) + 2 ^ (lo + w) := by ring
    omega
  unfold wordPut
  rw [BitVec.toNat_ofNat, Nat.mod_eq_of_lt hsum]

/-- A field reads as the value put into it. -/
theorem wordField_wordPut_same (lo w : Nat) (v : Word) (x : Nat) (h : lo + w ≤ 32) :
    wordField lo w (wordPut lo w v x) = x % 2 ^ w := by
  have hl : v.toNat % 2 ^ lo < 2 ^ lo := Nat.mod_lt _ (Nat.two_pow_pos lo)
  unfold wordField
  rw [wordPut_toNat lo w v x h]
  have e : v.toNat / 2 ^ (lo + w) * 2 ^ (lo + w) + x % 2 ^ w * 2 ^ lo + v.toNat % 2 ^ lo =
      v.toNat % 2 ^ lo + 2 ^ lo * (v.toNat / 2 ^ (lo + w) * 2 ^ w + x % 2 ^ w) := by
    rw [Nat.pow_add]; ring
  rw [e, Nat.add_mul_div_left _ _ (Nat.two_pow_pos lo), Nat.div_eq_of_lt hl, Nat.zero_add, Nat.add_comm, Nat.add_mul_mod_self_right,
    Nat.mod_mod]

/-- A field below the one put keeps its value. -/
theorem wordField_wordPut_below (lo w lo' w' : Nat) (v : Word) (x : Nat) (h : lo + w ≤ 32) (hd : lo' + w' ≤ lo) :
    wordField lo' w' (wordPut lo w v x) = wordField lo' w' v := by
  unfold wordField
  rw [wordPut_toNat lo w v x h]
  have key : ∀ a : Nat, a / 2 ^ lo' % 2 ^ w' = a % 2 ^ lo / 2 ^ lo' % 2 ^ w' := by
    intro a
    have e : 2 ^ lo = 2 ^ lo' * 2 ^ (lo - lo') := by rw [← Nat.pow_add]; congr 1; omega
    rw [e, Nat.mod_mul_right_div_self, Nat.mod_mod_of_dvd]
    exact Nat.pow_dvd_pow 2 (by omega)
  rw [key, key v.toNat]
  congr 2
  rw [Nat.pow_add]
  have e : v.toNat / (2 ^ lo * 2 ^ w) * (2 ^ lo * 2 ^ w) + x % 2 ^ w * 2 ^ lo + v.toNat % 2 ^ lo =
      v.toNat % 2 ^ lo + 2 ^ lo * (v.toNat / (2 ^ lo * 2 ^ w) * 2 ^ w + x % 2 ^ w) := by ring
  rw [e, Nat.add_mul_mod_self_left, Nat.mod_mod]

/-- A field above the one put keeps its value. -/
theorem wordField_wordPut_above (lo w lo' w' : Nat) (v : Word) (x : Nat) (h : lo + w ≤ 32) (hd : lo + w ≤ lo') :
    wordField lo' w' (wordPut lo w v x) = wordField lo' w' v := by
  have hx : x % 2 ^ w < 2 ^ w := Nat.mod_lt _ (Nat.two_pow_pos w)
  have hl : v.toNat % 2 ^ lo < 2 ^ lo := Nat.mod_lt _ (Nat.two_pow_pos lo)
  unfold wordField
  rw [wordPut_toNat lo w v x h]
  have hmid : x % 2 ^ w * 2 ^ lo + v.toNat % 2 ^ lo < 2 ^ (lo + w) := by
    have : (x % 2 ^ w + 1) * 2 ^ lo ≤ 2 ^ w * 2 ^ lo := Nat.mul_le_mul_right _ hx
    rw [Nat.pow_add, Nat.mul_comm (2 ^ lo)]
    have e : (x % 2 ^ w + 1) * 2 ^ lo = x % 2 ^ w * 2 ^ lo + 2 ^ lo := by ring
    omega
  have e : 2 ^ lo' = 2 ^ (lo + w) * 2 ^ (lo' - (lo + w)) := by rw [← Nat.pow_add]; congr 1; omega
  rw [e, ← Nat.div_div_eq_div_mul, ← Nat.div_div_eq_div_mul]
  congr 2
  have e2 : v.toNat / 2 ^ (lo + w) * 2 ^ (lo + w) + x % 2 ^ w * 2 ^ lo + v.toNat % 2 ^ lo =
      x % 2 ^ w * 2 ^ lo + v.toNat % 2 ^ lo + 2 ^ (lo + w) * (v.toNat / 2 ^ (lo + w)) := by ring
  rw [e2, Nat.add_mul_div_left _ _ (Nat.two_pow_pos _), Nat.div_eq_of_lt hmid, Nat.zero_add]

/-- Two fields share no bit. -/
def Fld.apart (f g : Fld) : Prop := f.reg ≠ g.reg ∨ f.lo + f.w ≤ g.lo ∨ g.lo + g.w ≤ f.lo

/-! ## Registers -/

@[simp] theorem State.reg_setReg_same (s : State) (k : Nat) (v : Word) : (s.setReg k v).reg k = v :=
  mapGet_mapSet_same resetKey s.regs k v

theorem State.reg_setReg_ne (s : State) {k j : Nat} (v : Word) (h : j ≠ k) : (s.setReg k v).reg j = s.reg j :=
  mapGet_mapSet_ne resetKey s.regs v h

theorem State.reg_setReg (s : State) (k j : Nat) (v : Word) : (s.setReg k v).reg j = if j = k then v else s.reg j := by
  split
  · rename_i h
    rw [h, State.reg_setReg_same]
  · rename_i h
    exact s.reg_setReg_ne v h

theorem State.reg_wr_ne (s : State) (f : Fld) (v : Nat) {j : Nat} (h : j ≠ f.reg) : (s.wr f v).reg j = s.reg j :=
  s.reg_setReg_ne _ h

theorem State.reg_wrI_ne (s : State) (f : Fld) (v : Int) {j : Nat} (h : j ≠ f.reg) : (s.wrI f v).reg j = s.reg j :=
  s.reg_wr_ne f _ h

theorem State.reg_bump_ne (s : State) (f : Fld) {j : Nat} (h : j ≠ f.reg) : (s.bump f).reg j = s.reg j := s.reg_wr_ne f _ h

theorem State.reg_bumpBy_ne (s : State) (f : Fld) (n : Nat) {j : Nat} (h : j ≠ f.reg) : (s.bumpBy f n).reg j = s.reg j :=
  s.reg_wr_ne f _ h

/-- A list of field writes leaves every other register alone. -/
theorem State.reg_wrs_ne (s : State) (l : List (Fld × Nat)) {j : Nat} (h : ∀ p ∈ l, j ≠ p.1.reg) : (s.wrs l).reg j = s.reg j := by
  induction l generalizing s with
  | nil => rfl
  | cons p t ih =>
    have h1 := ih (s.wr p.1 p.2) (fun q hq => h q (by simp [hq]))
    exact h1.trans (s.reg_wr_ne p.1 p.2 (h p (by simp)))

/-! ## Fields -/

/-- A field reads as the value written. -/
theorem State.rd_wr_same (s : State) (f : Fld) (v : Nat) (h : f.ok) : (s.wr f v).rd f = v % 2 ^ f.w := by
  unfold State.rd State.wr
  rw [State.reg_setReg_same, wordField_wordPut_same _ _ _ _ h]

/-- A field that shares no bit with the one written keeps its value. -/
theorem State.rd_wr_apart (s : State) (f g : Fld) (v : Nat) (h : f.ok) (ha : f.apart g) : (s.wr f v).rd g = s.rd g := by
  unfold State.rd State.wr
  by_cases hr : g.reg = f.reg
  · rw [hr, State.reg_setReg_same]
    rcases ha with ha | ha | ha
    · exact absurd hr.symm ha
    · exact wordField_wordPut_above _ _ _ _ _ _ h ha
    · exact wordField_wordPut_below _ _ _ _ _ _ h ha
  · rw [State.reg_setReg_ne _ _ hr]

theorem State.rd_congr {s t : State} (f : Fld) (h : t.reg f.reg = s.reg f.reg) : t.rd f = s.rd f := by
  unfold State.rd
  rw [h]

end Sys2Proof.Machine
end

