-- ==== Sys2Proof/Laws/Frames.lean ====
section
/-!
SUPPORT. Composing frames, and the frame of every shared operation: which parts of the state it may change, and which registers.
-/
namespace Sys2Proof.Machine

/-! ## Composing -/

theorem keeps_refl (ps : List Part) (s : State) : keeps ps s s := fun p _ => by cases p <;> rfl

theorem keeps_trans {ps : List Part} {s t u : State} (h : keeps ps s t) (g : keeps ps t u) : keeps ps s u := by
  intro p hp
  have a := h p hp
  have b := g p hp
  cases p <;> exact b.trans a

theorem keeps_mono {ps qs : List Part} {s t : State} (h : keeps ps s t) (hs : ∀ p ∈ ps, p ∈ qs) : keeps qs s t :=
  fun p hp => h p (fun hq => hp (hs p hq))

theorem keepsRegs_refl (ks : List Nat) (s : State) : keepsRegs ks s s := fun _ _ => rfl

theorem keepsRegs_trans {ks : List Nat} {s t u : State} (h : keepsRegs ks s t) (g : keepsRegs ks t u) : keepsRegs ks s u :=
  fun k hk => (g k hk).trans (h k hk)

theorem keepsRegs_mono {ks js : List Nat} {s t : State} (h : keepsRegs ks s t) (hs : ∀ k ∈ ks, k ∈ js) : keepsRegs js s t :=
  fun k hk => h k (fun hq => hk (hs k hq))

/-- A change that keeps the register file keeps every register. -/
theorem keeps.regs {ps : List Part} {s t : State} (h : keeps ps s t) (hp : Part.regs ∉ ps) (ks : List Nat) : keepsRegs ks s t := by
  intro k _
  have e : t.regs = s.regs := h .regs hp
  unfold State.reg
  rw [e]

/-- A field of a register that is kept. -/
theorem keepsRegs.rd {ks : List Nat} {s t : State} (h : keepsRegs ks s t) (f : Fld) (hf : f.reg ∉ ks) : t.rd f = s.rd f :=
  State.rd_congr f (h f.reg hf)

/-! ## Updates of one part -/

theorem State.setReg_keeps (s : State) (k : Nat) (v : Word) : keeps [.regs] s (s.setReg k v) :=
  fun p hp => by cases p <;> first | rfl | exact absurd (List.mem_singleton.mpr rfl) hp

theorem State.wr_keeps (s : State) (f : Fld) (v : Nat) : keeps [.regs] s (s.wr f v) :=
  fun p hp => by cases p <;> first | rfl | exact absurd (List.mem_singleton.mpr rfl) hp

theorem State.wrI_keeps (s : State) (f : Fld) (v : Int) : keeps [.regs] s (s.wrI f v) :=
  fun p hp => by cases p <;> first | rfl | exact absurd (List.mem_singleton.mpr rfl) hp

theorem State.bumpBy_keeps (s : State) (f : Fld) (n : Nat) : keeps [.regs] s (s.bumpBy f n) :=
  fun p hp => by cases p <;> first | rfl | exact absurd (List.mem_singleton.mpr rfl) hp

theorem State.bump_keeps (s : State) (f : Fld) : keeps [.regs] s (s.bump f) :=
  fun p hp => by cases p <;> first | rfl | exact absurd (List.mem_singleton.mpr rfl) hp

theorem State.copyReg_keeps (s : State) (a b : Nat) : keeps [.regs] s (s.copyReg a b) :=
  fun p hp => by cases p <;> first | rfl | exact absurd (List.mem_singleton.mpr rfl) hp

theorem State.answer_keeps (s : State) (st : Status) : keeps [.status] s (s.answer st) :=
  fun p hp => by cases p <;> first | rfl | exact absurd (List.mem_singleton.mpr rfl) hp

theorem State.spend_keeps (s : State) (n : Nat) : keeps [.fresh] s (s.spend n) :=
  fun p hp => by cases p <;> first | rfl | exact absurd (List.mem_singleton.mpr rfl) hp

theorem State.advance_keeps (s : State) (n : Nat) : keeps [.now] s (s.advance n) :=
  fun p hp => by cases p <;> first | rfl | exact absurd (List.mem_singleton.mpr rfl) hp

theorem State.setBob_keeps (s : State) (b : Nat) (v : Bobbin) : keeps [.ground] s (s.setBob b v) :=
  fun p hp => by cases p <;> first | rfl | exact absurd (List.mem_singleton.mpr rfl) hp

theorem State.modNet_keeps (s : State) (f : Net → Net) : keeps [.net] s (s.modNet f) :=
  fun p hp => by cases p <;> first | rfl | exact absurd (List.mem_singleton.mpr rfl) hp

theorem State.modFlash_keeps (s : State) (f : Flash → Flash) : keeps [.flash] s (s.modFlash f) :=
  fun p hp => by cases p <;> first | rfl | exact absurd (List.mem_singleton.mpr rfl) hp

theorem State.modMon_keeps (s : State) (f : Mon → Mon) : keeps [.mon] s (s.modMon f) :=
  fun p hp => by cases p <;> first | rfl | exact absurd (List.mem_singleton.mpr rfl) hp

theorem State.modSecu_keeps (s : State) (f : Secu → Secu) : keeps [.secu] s (s.modSecu f) :=
  fun p hp => by cases p <;> first | rfl | exact absurd (List.mem_singleton.mpr rfl) hp

theorem State.modBoot_keeps (s : State) (f : Boot → Boot) : keeps [.boot] s (s.modBoot f) :=
  fun p hp => by cases p <;> first | rfl | exact absurd (List.mem_singleton.mpr rfl) hp

theorem State.modHk_keeps (s : State) (f : Hk → Hk) : keeps [.hk] s (s.modHk f) :=
  fun p hp => by cases p <;> first | rfl | exact absurd (List.mem_singleton.mpr rfl) hp

theorem State.setSlices_keeps (s : State) (f : Slices → Slices) : keeps [.slices] s (s.setSlices f) :=
  fun p hp => by cases p <;> first | rfl | exact absurd (List.mem_singleton.mpr rfl) hp

theorem State.modTb_keeps (s : State) (f : Timebase → Timebase) : keeps [.tb] s (s.modTb f) :=
  fun p hp => by cases p <;> first | rfl | exact absurd (List.mem_singleton.mpr rfl) hp

theorem State.modGround_keeps (s : State) (f : Ground → Ground) : keeps [.ground] s (s.modGround f) :=
  fun p hp => by cases p <;> first | rfl | exact absurd (List.mem_singleton.mpr rfl) hp

theorem State.modPins_keeps (s : State) (f : Pins → Pins) : keeps [.pins] s (s.modPins f) :=
  fun p hp => by cases p <;> first | rfl | exact absurd (List.mem_singleton.mpr rfl) hp

theorem State.modLanes_keeps (s : State) (f : Lanes → Lanes) : keeps [.lanes] s (s.modLanes f) :=
  fun p hp => by cases p <;> first | rfl | exact absurd (List.mem_singleton.mpr rfl) hp

theorem State.modHealth_keeps (s : State) (f : Health → Health) : keeps [.health] s (s.modHealth f) :=
  fun p hp => by cases p <;> first | rfl | exact absurd (List.mem_singleton.mpr rfl) hp

theorem State.modSrc_keeps (s : State) (f : Source → Source) : keeps [.src] s (s.modSrc f) :=
  fun p hp => by cases p <;> first | rfl | exact absurd (List.mem_singleton.mpr rfl) hp

theorem State.modMemc_keeps (s : State) (f : Memc → Memc) : keeps [.memc] s (s.modMemc f) :=
  fun p hp => by cases p <;> first | rfl | exact absurd (List.mem_singleton.mpr rfl) hp

theorem State.setSch_keeps (s : State) (x : Fibre) (v : Sched) : keeps [.sched] s (s.setSch x v) :=
  fun p hp => by cases p <;> first | rfl | exact absurd (List.mem_singleton.mpr rfl) hp

theorem State.setCmt_keeps (s : State) (x : Fibre) (v : Commit) : keeps [.commit] s (s.setCmt x v) :=
  fun p hp => by cases p <;> first | rfl | exact absurd (List.mem_singleton.mpr rfl) hp

theorem State.setNrg_keeps (s : State) (x : Fibre) (v : Energy) : keeps [.src] s (s.setNrg x v) :=
  fun p hp => by cases p <;> first | rfl | exact absurd (List.mem_singleton.mpr rfl) hp

theorem State.setLogical_keeps (s : State) (ll : Nat) (l : Logical) : keeps [.lanes] s (s.setLogical ll l) :=
  fun p hp => by cases p <;> first | rfl | exact absurd (List.mem_singleton.mpr rfl) hp

theorem State.setAux_keeps (s : State) (k : Nat) (v : AuxChain) : keeps [.aux] s (s.setAux k v) :=
  fun p hp => by cases p <;> first | rfl | exact absurd (List.mem_singleton.mpr rfl) hp

theorem State.setDt_keeps (s : State) (x : Fibre) (d : Dts) : keeps [.dts] s (s.setDt x d) :=
  fun p hp => by cases p <;> first | rfl | exact absurd (List.mem_singleton.mpr rfl) hp

theorem State.setComp_keeps (s : State) (n : Nat) (c : Comp) : keeps [.comps] s (s.setComp n c) :=
  fun p hp => by cases p <;> first | rfl | exact absurd (List.mem_singleton.mpr rfl) hp

theorem State.setSensor_keeps (s : State) (n : Nat) (v : Sensor) : keeps [.sensors] s (s.setSensor n v) :=
  fun p hp => by cases p <;> first | rfl | exact absurd (List.mem_singleton.mpr rfl) hp

theorem State.print_keeps (s : State) (l : List Byte) : keeps [.mon] s (s.print l) :=
  fun p hp => by cases p <;> first | rfl | exact absurd (List.mem_singleton.mpr rfl) hp

theorem State.wrs_keeps (s : State) (l : List (Fld × Nat)) : keeps [.regs] s (s.wrs l) := by
  induction l generalizing s with
  | nil => exact keeps_refl _ s
  | cons p t ih => exact keeps_trans (s.wr_keeps p.1 p.2) (ih _)

/-! ## Registers written -/

theorem State.setReg_keepsRegs (s : State) (k : Nat) (v : Word) : keepsRegs [k] s (s.setReg k v) :=
  fun _ hj => s.reg_setReg_ne v (fun e => hj (by simp [e]))

theorem State.wr_keepsRegs (s : State) (f : Fld) (v : Nat) : keepsRegs [f.reg] s (s.wr f v) := s.setReg_keepsRegs _ _

theorem State.wrI_keepsRegs (s : State) (f : Fld) (v : Int) : keepsRegs [f.reg] s (s.wrI f v) := s.wr_keepsRegs _ _

theorem State.bumpBy_keepsRegs (s : State) (f : Fld) (n : Nat) : keepsRegs [f.reg] s (s.bumpBy f n) := s.wr_keepsRegs _ _

theorem State.bump_keepsRegs (s : State) (f : Fld) : keepsRegs [f.reg] s (s.bump f) := s.bumpBy_keepsRegs _ _

theorem State.wrs_keepsRegs (s : State) (l : List (Fld × Nat)) : keepsRegs (l.map (·.1.reg)) s (s.wrs l) := by
  intro k hk
  refine s.reg_wrs_ne l (fun p hp e => hk ?_)
  exact List.mem_map.mpr ⟨p, hp, e.symm⟩

end Sys2Proof.Machine
end

