-- ==== Sys2Proof/Laws/Event.lean ====
section
/-!
SUPPORT. What records and health events may change: the register file, the Ground, the health bookkeeping and the log queue, and of the
registers only those of `eventRegs`.
-/
namespace Sys2Proof.Machine

/-! ## Records into bobbins -/

theorem State.sweepBob_keeps (s : State) (b : Nat) : keeps [.ground] s (s.sweepBob b) := by
  unfold State.sweepBob
  exact State.setBob_keeps _ _ _

theorem State.request_keeps (s : State) (who : Requester) (w : Bool) (l : List PageAt) : keeps [.ground] s (s.request who w l) := by
  unfold State.request
  exact s.modGround_keeps _

theorem State.readPages_keeps (s : State) (b : Nat) (r : Reader) (f p : Nat) : keeps [.ground] s (s.readPages b r f p) := by
  unfold State.readPages
  exact State.request_keeps _ _ _ _

theorem State.advanceReader_keeps (s : State) (b : Nat) (r : Reader) (past : Nat) : keeps [.ground] s (s.advanceReader b r past) := by
  unfold State.advanceReader
  exact keeps_trans (State.readPages_keeps _ _ _ _ _) (keeps_trans (State.setBob_keeps _ _ _) (State.sweepBob_keeps _ _))

theorem State.append_keeps (s : State) (b : Nat) (r : Record) (st : PageState) (tags : Two Nat) (ln : Option (Nat × Nat × Nat)) :
    keeps [.ground] s (s.append b r st tags ln) := by
  unfold State.append
  exact keeps_trans (State.setBob_keeps _ _ _) (State.request_keeps _ _ _ _)

theorem State.skipLanes_keeps (s : State) (b i : Nat) : keeps [.lanes] s (s.skipLanes b i) := by
  unfold State.skipLanes
  exact s.modLanes_keeps _

/-- The four outcomes of a write into a bobbin; only one that drops from a bobbin of the image's moves lane ports. -/
theorem State.bobWrite_cases (s : State) (b : Nat) (r : Record) (st : PageState) (tags : Two Nat) (ln : Option (Nat × Nat × Nat)) :
    (s.bobWrite b r st tags ln).1 = s.append b r st tags ln ∨ (s.bobWrite b r st tags ln).1 = s ∨
      (∃ k v, (s.bobWrite b r st tags ln).1 = ((s.bumpBy (F.GND_BDROP.COUNT b) k).setBob b v).append b r st tags ln) ∨
      (b < 125 ∧ ∃ k v i, (s.bobWrite b r st tags ln).1 =
        (((s.bumpBy (F.GND_BDROP.COUNT b) k).setBob b v).skipLanes b i).append b r st tags ln) := by
  unfold State.bobWrite
  extract_lets v need quota
  split
  · exact Or.inl rfl
  · split
    · exact Or.inr (Or.inl rfl)
    · rcases dropUntil (s.ckNeeds b) quota need v.recs.length v.recs with ⟨recs, k⟩
      dsimp only
      by_cases h : k = 0 ∨ 125 ≤ b
      · rw [if_pos h]
        exact Or.inr (Or.inr (Or.inl ⟨_, _, rfl⟩))
      · rw [if_neg h]
        exact Or.inr (Or.inr (Or.inr ⟨by omega, _, _, _, rfl⟩))

theorem State.bobWrite_keeps (s : State) (b : Nat) (r : Record) (st : PageState) (tags : Two Nat) (ln : Option (Nat × Nat × Nat)) :
    keeps [.regs, .ground, .lanes] s (s.bobWrite b r st tags ln).1 := by
  rcases s.bobWrite_cases b r st tags ln with h | h | ⟨k, v, h⟩ | ⟨-, k, v, i, h⟩ <;> rw [h]
  · exact keeps_mono (s.append_keeps b r st tags ln) (by decide)
  · exact keeps_refl _ s
  · exact keeps_trans (keeps_mono (s.bumpBy_keeps _ k) (by decide)) (keeps_trans (keeps_mono (State.setBob_keeps _ b v) (by decide))
      (keeps_mono (State.append_keeps _ b r st tags ln) (by decide)))
  · exact keeps_trans (keeps_mono (s.bumpBy_keeps _ k) (by decide)) (keeps_trans (keeps_mono (State.setBob_keeps _ b v) (by decide))
      (keeps_trans (keeps_mono (State.skipLanes_keeps _ b i) (by decide)) (keeps_mono (State.append_keeps _ b r st tags ln) (by decide))))

/-- A record into B125, B126 or B127 moves no lane port. -/
theorem State.bobWrite_keeps_own (s : State) (b : Nat) (hb : 125 ≤ b) (r : Record) (st : PageState) (tags : Two Nat)
    (ln : Option (Nat × Nat × Nat)) : keeps [.regs, .ground] s (s.bobWrite b r st tags ln).1 := by
  rcases s.bobWrite_cases b r st tags ln with h | h | ⟨k, v, h⟩ | ⟨hl, -⟩
  · rw [h]
    exact keeps_mono (s.append_keeps b r st tags ln) (by decide)
  · rw [h]
    exact keeps_refl _ s
  · rw [h]
    exact keeps_trans (keeps_mono (s.bumpBy_keeps _ k) (by decide)) (keeps_trans (keeps_mono (State.setBob_keeps _ b v) (by decide))
      (keeps_mono (State.append_keeps _ b r st tags ln) (by decide)))
  · omega

/-- A record into a bobbin changes no register but the bobbin's drop count. -/
theorem State.bobWrite_keepsRegs (s : State) (b : Nat) (r : Record) (st : PageState) (tags : Two Nat) (ln : Option (Nat × Nat × Nat)) :
    keepsRegs [R.GND_BDROP b] s (s.bobWrite b r st tags ln).1 := by
  rcases s.bobWrite_cases b r st tags ln with h | h | ⟨k, v, h⟩ | ⟨-, k, v, i, h⟩ <;> rw [h]
  · exact (s.append_keeps b r st tags ln).regs (by decide) _
  · exact keepsRegs_refl _ s
  · exact keepsRegs_trans (s.bumpBy_keepsRegs (F.GND_BDROP.COUNT b) k) (keepsRegs_trans ((State.setBob_keeps _ b v).regs (by decide) _)
      ((State.append_keeps _ b r st tags ln).regs (by decide) _))
  · exact keepsRegs_trans (s.bumpBy_keepsRegs (F.GND_BDROP.COUNT b) k) (keepsRegs_trans ((State.setBob_keeps _ b v).regs (by decide) _)
      (keepsRegs_trans ((State.skipLanes_keeps _ b i).regs (by decide) _) ((State.append_keeps _ b r st tags ln).regs (by decide) _)))

/-! ## Events -/

theorem State.queueLog_keeps (s : State) (r : Record) : keeps [.regs, .flash] s (s.queueLog r) := by
  unfold State.queueLog
  split
  · exact keeps_mono (s.modFlash_keeps _) (by decide)
  · exact keeps_mono (s.bump_keeps _) (by decide)

theorem State.queueLog_keepsRegs (s : State) (r : Record) : keepsRegs [R.SYS_FLASH] s (s.queueLog r) := by
  unfold State.queueLog
  split
  · exact (s.modFlash_keeps _).regs (by decide) _
  · exact s.bump_keepsRegs F.SYS_FLASH.LOGDROP

/-- The steps of an event, each of which keeps all but the parts of an event. -/
theorem State.eventRaw_keeps (s : State) (code : Nat) (sev : Severity) (u : Nat) (x : Option Fibre) (a b c d : Nat) :
    keeps eventParts s (s.eventRaw code sev u x a b c d).1 := by
  unfold State.eventRaw
  extract_lets r s1 s2 s3 s4
  have h1 : keeps eventParts s s1 :=
    keeps_trans (keeps_mono (s.wr_keeps _ _) (by decide)) (keeps_mono (State.bump_keeps _ _) (by decide))
  have h2 : keeps eventParts s s2 := keeps_trans h1 (keeps_mono (s1.modHealth_keeps _) (by decide))
  have h3 : keeps eventParts s s3 := by
    unfold s3
    split
    · exact keeps_trans h2 (keeps_trans (keeps_mono (s2.wr_keeps _ _) (by decide)) (keeps_mono (State.queueLog_keeps _ r) (by decide)))
    · exact h2
  have h4 : keeps eventParts s s4 := keeps_trans h3 (keeps_mono (s3.modHealth_keeps _) (by decide))
  have h5 : keeps eventParts s (s4.bobWrite 127 r .queued noTags none).1 :=
    keeps_trans h4 (keeps_mono (s4.bobWrite_keeps_own 127 (by decide) r .queued noTags none) (by decide))
  exact keeps_trans h5 (keeps_mono (State.advanceReader_keeps _ _ _ _) (by decide))

theorem State.eventRaw_keepsRegs (s : State) (code : Nat) (sev : Severity) (u : Nat) (x : Option Fibre) (a b c d : Nat) :
    keepsRegs eventRegs s (s.eventRaw code sev u x a b c d).1 := by
  unfold State.eventRaw
  extract_lets r s1 s2 s3 s4
  have h1 : keepsRegs eventRegs s s1 :=
    keepsRegs_trans (keepsRegs_mono (s.wr_keepsRegs _ _) (by simp [eventRegs, F.HLTH_EVSEQ.SEQ]))
      (keepsRegs_mono (State.bump_keepsRegs _ _) (by simp [eventRegs, F.HLTH_EVCNT.COUNT]))
  have h2 : keepsRegs eventRegs s s2 := keepsRegs_trans h1 ((s1.modHealth_keeps _).regs (by decide) _)
  have h3 : keepsRegs eventRegs s s3 := by
    unfold s3
    split
    · exact keepsRegs_trans h2 (keepsRegs_trans (keepsRegs_mono (s2.wr_keepsRegs _ _) (by simp [eventRegs, F.HLTH_STAT.ALATCH]))
        (keepsRegs_mono (State.queueLog_keepsRegs _ r) (by simp [eventRegs])))
    · exact h2
  have h4 : keepsRegs eventRegs s s4 := keepsRegs_trans h3 ((s3.modHealth_keeps _).regs (by decide) _)
  have h5 : keepsRegs eventRegs s (s4.bobWrite 127 r .queued noTags none).1 :=
    keepsRegs_trans h4 (keepsRegs_mono (s4.bobWrite_keepsRegs 127 r .queued noTags none) (by simp [eventRegs]))
  exact keepsRegs_trans h5 ((State.advanceReader_keeps _ _ _ _).regs (by decide) _)

/-- An event changes no part but those of `eventParts`. -/
theorem State.event_keeps (s : State) (code : Nat) (sev : Severity) (u : Nat) (x : Option Fibre) (a b c d : Nat) :
    keeps eventParts s (s.event code sev u x a b c d) := by
  unfold State.event
  split
  rename_i s1 o h
  have h1 : keeps eventParts s s1 := by
    have e : s1 = (s.eventRaw code sev u x a b c d).1 := by rw [h]
    rw [e]
    exact s.eventRaw_keeps code sev u x a b c d
  split
  · exact keeps_trans h1 (s1.eventRaw_keeps _ _ _ _ _ _ _ _)
  · exact h1

/-- An event changes no register but those of `eventRegs`. -/
theorem State.event_keepsRegs (s : State) (code : Nat) (sev : Severity) (u : Nat) (x : Option Fibre) (a b c d : Nat) :
    keepsRegs eventRegs s (s.event code sev u x a b c d) := by
  unfold State.event
  split
  rename_i s1 o h
  have h1 : keepsRegs eventRegs s s1 := by
    have e : s1 = (s.eventRaw code sev u x a b c d).1 := by rw [h]
    rw [e]
    exact s.eventRaw_keepsRegs code sev u x a b c d
  split
  · exact keepsRegs_trans h1 (s1.eventRaw_keepsRegs _ _ _ _ _ _ _ _)
  · exact h1

/-! ## A record with its event of a first drop -/

theorem State.produce_keeps (s : State) (b : Nat) (r : Record) (st : PageState) (tags : Two Nat) (ln : Option (Nat × Nat × Nat)) :
    keeps (.lanes :: eventParts) s (s.produce b r st tags ln).1 := by
  unfold State.produce
  split
  rename_i s1 o h
  have h1 : keeps (.lanes :: eventParts) s s1 := by
    have e : s1 = (s.bobWrite b r st tags ln).1 := by rw [h]
    rw [e]
    exact keeps_mono (s.bobWrite_keeps b r st tags ln) (by decide)
  split
  · exact h1
  · exact keeps_trans h1 (keeps_mono (s1.event_keeps _ _ _ _ _ _ _ _) (by decide))
  · exact h1

end Sys2Proof.Machine
end

