-- ==== Sys2Proof/Laws/Exec.lean ====
section
/-!
SUPPORT. Each command's arm as an equation that a proof can rewrite with, without unfolding the dispatch, and a step on a queue.
-/
namespace Sys2Proof.Machine

theorem exec_registerWrite (a : Nat) (w : Word) (auth : Option (Fin 4)) (s : State) : exec (.registerWrite a w auth) s = execRegisterWrite a w auth s := (rfl)
theorem exec_rcRead (a : Nat) (s : State) : exec (.rcRead a) s = execRcRead a s := (rfl)
theorem exec_holdingRead (a : Nat) (s : State) : exec (.holdingRead a) s = execHoldingRead a s := (rfl)
theorem exec_clkTbSet (s : State) : exec (.clkTbSet) s = execClkTbSet s := (rfl)
theorem exec_clkTbStep (s : State) : exec (.clkTbStep) s = execClkTbStep s := (rfl)
theorem exec_capture (s : State) : exec (.capture) s = execCapture s := (rfl)
theorem exec_servoHoldover (s : State) : exec (.servoHoldover) s = execServoHoldover s := (rfl)
theorem exec_ppsInEdge (rising : Bool) (sub : Nat) (s : State) : exec (.ppsInEdge rising sub) s = execPpsInEdge rising sub s := (rfl)
theorem exec_ppsOutRise (s : State) : exec (.ppsOutRise) s = execPpsOutRise s := (rfl)
theorem exec_ppsOutFall (s : State) : exec (.ppsOutFall) s = execPpsOutFall s := (rfl)
theorem exec_netPllLockLost (s : State) : exec (.netPllLockLost) s = execNetPllLockLost s := (rfl)
theorem exec_start (s : State) : exec (.start) s = execStart s := (rfl)
theorem exec_stop (s : State) : exec (.stop) s = execStop s := (rfl)
theorem exec_roundBoundary (x : Fibre) (refs : List RefSample) (dark : List FrontWord) (sq : Nat) (count : Nat) (s : State) : exec (.roundBoundary x refs dark sq count) s = execRoundBoundary x refs dark sq count s := (rfl)
theorem exec_slotPermitEval (x : Fibre) (s : State) : exec (.slotPermitEval x) s = execSlotPermitEval x s := (rfl)
theorem exec_launch (x : Fibre) (s : State) : exec (.launch x) s = execLaunch x s := (rfl)
theorem exec_ramanTrigger (x : Fibre) (s : State) : exec (.ramanTrigger x) s = execRamanTrigger x s := (rfl)
theorem exec_gainStep (x : Fibre) (s : State) : exec (.gainStep x) s = execGainStep x s := (rfl)
theorem exec_shotStageGo (x : Fibre) (s : State) : exec (.shotStageGo x) s = execShotStageGo x s := (rfl)
theorem exec_stageCheckComplete (x : Fibre) (s : State) : exec (.stageCheckComplete x) s = execStageCheckComplete x s := (rfl)
theorem exec_planAdopt (x : Fibre) (sq : Nat) (count : Nat) (s : State) : exec (.planAdopt x sq count) s = execPlanAdopt x sq count s := (rfl)
theorem exec_emitEnLow (ns : Nat) (s : State) : exec (.emitEnLow ns) s = execEmitEnLow ns s := (rfl)
theorem exec_emitFilterExpire (s : State) : exec (.emitFilterExpire) s = execEmitFilterExpire s := (rfl)
theorem exec_srcRearm (s : State) : exec (.srcRearm) s = execSrcRearm s := (rfl)
theorem exec_srcSetWrite (n : Fin 8) (w : Word) (s : State) : exec (.srcSetWrite n w) s = execSrcSetWrite n w s := (rfl)
theorem exec_srcFadeWrite (n : Fin 8) (w : Word) (s : State) : exec (.srcFadeWrite n w) s = execSrcFadeWrite n w s := (rfl)
theorem exec_syncGo (rndsel : Fin 4) (s : State) : exec (.syncGo rndsel) s = execSyncGo rndsel s := (rfl)
theorem exec_syncArmrnd (rndsel : Fin 4) (s : State) : exec (.syncArmrnd rndsel) s = execSyncArmrnd rndsel s := (rfl)
theorem exec_syncTick (s : State) : exec (.syncTick) s = execSyncTick s := (rfl)
theorem exec_regulatorUpdate (s : State) : exec (.regulatorUpdate) s = execRegulatorUpdate s := (rfl)
theorem exec_seedLoss (n : Fin 8) (s : State) : exec (.seedLoss n) s = execSeedLoss n s := (rfl)
theorem exec_overcur (n : Fin 8) (sense : Nat) (s : State) : exec (.overcur n sense) s = execOvercur n sense s := (rfl)
theorem exec_short (n : Fin 8) (sense : Nat) (s : State) : exec (.short n sense) s = execShort n sense s := (rfl)
theorem exec_open (n : Fin 8) (drive : Nat) (sense : Nat) (s : State) : exec (.open n drive sense) s = execOpen n drive sense s := (rfl)
theorem exec_groupRearm (mask : Fin 16) (s : State) : exec (.groupRearm mask) s = execGroupRearm mask s := (rfl)
theorem exec_launchEnergyEval (x : Fibre) (refs : List RefSample) (first : Int) (shots : List (List FrontWord)) (s : State) : exec (.launchEnergyEval x refs first shots) s = execLaunchEnergyEval x refs first shots s := (rfl)
theorem exec_ramanRoundEval (x : Fibre) (s : State) : exec (.ramanRoundEval x) s = execRamanRoundEval x s := (rfl)
theorem exec_shotRecordComplete (x : Fibre) (refs : List RefSample) (first : Int) (ws : List FrontWord) (s : State) : exec (.shotRecordComplete x refs first ws) s = execShotRecordComplete x refs first ws s := (rfl)
theorem exec_slcProfWrite (x : Fibre) (k : Fin 8) (w : Word) (s : State) : exec (.slcProfWrite x k w) s = execSlcProfWrite x k w s := (rfl)
theorem exec_slcPstageGo (x : Fibre) (s : State) : exec (.slcPstageGo x) s = execSlcPstageGo x s := (rfl)
theorem exec_profileCheckComplete (x : Fibre) (s : State) : exec (.profileCheckComplete x) s = execProfileCheckComplete x s := (rfl)
theorem exec_ovrlong (n : Fin 15) (s : State) : exec (.ovrlong n) s = execOvrlong n s := (rfl)
theorem exec_sliceCalStart (n : Fin 16) (keep : Bool) (intr : Bool) (s : State) : exec (.sliceCalStart n keep intr) s = execSliceCalStart n keep intr s := (rfl)
theorem exec_sliceCalAbort (s : State) : exec (.sliceCalAbort) s = execSliceCalAbort s := (rfl)
theorem exec_sliceCalComplete (m : SliceCoefs) (s : State) : exec (.sliceCalComplete m) s = execSliceCalComplete m s := (rfl)
theorem exec_autocalRequest (n : Fin 15) (temp : Int) (s : State) : exec (.autocalRequest n temp) s = execAutocalRequest n temp s := (rfl)
theorem exec_sliceFault (n : Fin 15) (kind : Nat) (ago : Nat) (s : State) : exec (.sliceFault n kind ago) s = execSliceFault n kind ago s := (rfl)
theorem exec_cordonnetLockLost (refs : List RefSample) (s : State) : exec (.cordonnetLockLost refs) s = execCordonnetLockLost refs s := (rfl)
theorem exec_cordonnetLockRegained (refs : List RefSample) (s : State) : exec (.cordonnetLockRegained refs) s = execCordonnetLockRegained refs s := (rfl)
theorem exec_channelSampleEmit (x : Fibre) (c : Nat) (refs : List RefSample) (first : Int) (ws : List FrontWord) (s : State) : exec (.channelSampleEmit x c refs first ws) s = execChannelSampleEmit x c refs first ws s := (rfl)
theorem exec_ramanTraceComplete (x : Fibre) (ws : List RamanWord) (s : State) : exec (.ramanTraceComplete x ws) s = execRamanTraceComplete x ws s := (rfl)
theorem exec_verdict (x : Fibre) (s : State) : exec (.verdict x) s = execVerdict x s := (rfl)
theorem exec_replayComplete (x : Fibre) (s : State) : exec (.replayComplete x) s = execReplayComplete x s := (rfl)
theorem exec_drainComplete (x : Fibre) (s : State) : exec (.drainComplete x) s = execDrainComplete x s := (rfl)
theorem exec_laneRelease (ll : Fin 32) (s : State) : exec (.laneRelease ll) s = execLaneRelease ll s := (rfl)
theorem exec_fltDscfgWrite (x : Fibre) (j : Fin 2) (w : Word) (s : State) : exec (.fltDscfgWrite x j w) s = execFltDscfgWrite x j w s := (rfl)
theorem exec_fltAuxCfgWrite (k : Fin 64) (w : Word) (s : State) : exec (.fltAuxCfgWrite k w) s = execFltAuxCfgWrite k w s := (rfl)
theorem exec_frpCfgWrite (x : Fibre) (w : Word) (s : State) : exec (.frpCfgWrite x w) s = execFrpCfgWrite x w s := (rfl)
theorem exec_nop (n : Fin 33) (s : State) : exec (.nop n) s = execNop n s := (rfl)
theorem exec_bmac (n : Fin 33) (f : FmtM) (s : State) : exec (.bmac n f) s = execBmac n f s := (rfl)
theorem exec_bmsu (n : Fin 33) (f : FmtM) (s : State) : exec (.bmsu n f) s = execBmsu n f s := (rfl)
theorem exec_bmpy (n : Fin 33) (f : FmtM) (s : State) : exec (.bmpy n f) s = execBmpy n f s := (rfl)
theorem exec_cmac (n : Fin 33) (f : FmtM) (s : State) : exec (.cmac n f) s = execCmac n f s := (rfl)
theorem exec_cmpy (n : Fin 33) (f : FmtM) (s : State) : exec (.cmpy n f) s = execCmpy n f s := (rfl)
theorem exec_smac (n : Fin 33) (f : FmtM) (s : State) : exec (.smac n f) s = execSmac n f s := (rfl)
theorem exec_smsu (n : Fin 33) (f : FmtM) (s : State) : exec (.smsu n f) s = execSmsu n f s := (rfl)
theorem exec_smpy (n : Fin 33) (f : FmtM) (s : State) : exec (.smpy n f) s = execSmpy n f s := (rfl)
theorem exec_sqac (n : Fin 33) (f : FmtM) (s : State) : exec (.sqac n f) s = execSqac n f s := (rfl)
theorem exec_clra (n : Fin 33) (f : FmtA) (s : State) : exec (.clra n f) s = execClra n f s := (rfl)
theorem exec_adda (n : Fin 33) (f : FmtA) (s : State) : exec (.adda n f) s = execAdda n f s := (rfl)
theorem exec_suba (n : Fin 33) (f : FmtA) (s : State) : exec (.suba n f) s = execSuba n f s := (rfl)
theorem exec_sha (n : Fin 33) (f : FmtA) (s : State) : exec (.sha n f) s = execSha n f s := (rfl)
theorem exec_sta (n : Fin 33) (f : FmtA) (s : State) : exec (.sta n f) s = execSta n f s := (rfl)
theorem exec_mva (n : Fin 33) (f : FmtA) (s : State) : exec (.mva n f) s = execMva n f s := (rfl)
theorem exec_lda (n : Fin 33) (f : FmtA) (s : State) : exec (.lda n f) s = execLda n f s := (rfl)
theorem exec_maxa (n : Fin 33) (f : FmtA) (s : State) : exec (.maxa n f) s = execMaxa n f s := (rfl)
theorem exec_ldx (n : Fin 33) (f : FmtL) (s : State) : exec (.ldx n f) s = execLdx n f s := (rfl)
theorem exec_ldy (n : Fin 33) (f : FmtL) (s : State) : exec (.ldy n f) s = execLdy n f s := (rfl)
theorem exec_ldc (n : Fin 33) (f : FmtL) (s : State) : exec (.ldc n f) s = execLdc n f s := (rfl)
theorem exec_stx (n : Fin 33) (f : FmtL) (s : State) : exec (.stx n f) s = execStx n f s := (rfl)
theorem exec_sty (n : Fin 33) (f : FmtL) (s : State) : exec (.sty n f) s = execSty n f s := (rfl)
theorem exec_ldi (n : Fin 33) (f : FmtI) (s : State) : exec (.ldi n f) s = execLdi n f s := (rfl)
theorem exec_ldhi (n : Fin 33) (f : FmtI) (s : State) : exec (.ldhi n f) s = execLdhi n f s := (rfl)
theorem exec_mov (n : Fin 33) (f : FmtR) (s : State) : exec (.mov n f) s = execMov n f s := (rfl)
theorem exec_movs (n : Fin 33) (f : FmtS) (s : State) : exec (.movs n f) s = execMovs n f s := (rfl)
theorem exec_setp (n : Fin 33) (f : FmtP) (s : State) : exec (.setp n f) s = execSetp n f s := (rfl)
theorem exec_addp (n : Fin 33) (f : FmtP) (s : State) : exec (.addp n f) s = execAddp n f s := (rfl)
theorem exec_add (n : Fin 33) (f : FmtR) (s : State) : exec (.add n f) s = execAdd n f s := (rfl)
theorem exec_sub (n : Fin 33) (f : FmtR) (s : State) : exec (.sub n f) s = execSub n f s := (rfl)
theorem exec_and (n : Fin 33) (f : FmtR) (s : State) : exec (.and n f) s = execAnd n f s := (rfl)
theorem exec_or (n : Fin 33) (f : FmtR) (s : State) : exec (.or n f) s = execOr n f s := (rfl)
theorem exec_xor (n : Fin 33) (f : FmtR) (s : State) : exec (.xor n f) s = execXor n f s := (rfl)
theorem exec_ash (n : Fin 33) (f : FmtR) (s : State) : exec (.ash n f) s = execAsh n f s := (rfl)
theorem exec_lsh (n : Fin 33) (f : FmtR) (s : State) : exec (.lsh n f) s = execLsh n f s := (rfl)
theorem exec_cmp (n : Fin 33) (f : FmtR) (s : State) : exec (.cmp n f) s = execCmp n f s := (rfl)
theorem exec_abs (n : Fin 33) (f : FmtR) (s : State) : exec (.abs n f) s = execAbs n f s := (rfl)
theorem exec_min (n : Fin 33) (f : FmtR) (s : State) : exec (.min n f) s = execMin n f s := (rfl)
theorem exec_max (n : Fin 33) (f : FmtR) (s : State) : exec (.max n f) s = execMax n f s := (rfl)
theorem exec_addi (n : Fin 33) (f : FmtI) (s : State) : exec (.addi n f) s = execAddi n f s := (rfl)
theorem exec_cmpi (n : Fin 33) (f : FmtI) (s : State) : exec (.cmpi n f) s = execCmpi n f s := (rfl)
theorem exec_br (n : Fin 33) (f : FmtB) (s : State) : exec (.br n f) s = execBr n f s := (rfl)
theorem exec_call (n : Fin 33) (f : FmtB) (s : State) : exec (.call n f) s = execCall n f s := (rfl)
theorem exec_ret (n : Fin 33) (f : FmtB) (s : State) : exec (.ret n f) s = execRet n f s := (rfl)
theorem exec_loop (n : Fin 33) (f : FmtLP) (s : State) : exec (.loop n f) s = execLoop n f s := (rfl)
theorem exec_srd (n : Fin 33) (f : FmtT) (s : State) : exec (.srd n f) s = execSrd n f s := (rfl)
theorem exec_swr (n : Fin 33) (f : FmtT) (s : State) : exec (.swr n f) s = execSwr n f s := (rfl)
theorem exec_shdr (n : Fin 33) (f : FmtT) (s : State) : exec (.shdr n f) s = execShdr n f s := (rfl)
theorem exec_send (n : Fin 33) (f : FmtT) (s : State) : exec (.send n f) s = execSend n f s := (rfl)
theorem exec_laneKWrite (n : Fin 33) (j : Fin 8) (w : Word) (s : State) : exec (.laneKWrite n j w) s = execLaneKWrite n j w s := (rfl)
theorem exec_periodTimeout (x : Fibre) (s : State) : exec (.periodTimeout x) s = execPeriodTimeout x s := (rfl)
theorem exec_periodRecordWrite (x : Fibre) (s : State) : exec (.periodRecordWrite x) s = execPeriodRecordWrite x s := (rfl)
theorem exec_dtsCoefWrite (x : Fibre) (lnc : Bool) (w : Word) (s : State) : exec (.dtsCoefWrite x lnc w) s = execDtsCoefWrite x lnc w s := (rfl)
theorem exec_hkTrigger (s : State) : exec (.hkTrigger) s = execHkTrigger s := (rfl)
theorem exec_hkTimerExpire (s : State) : exec (.hkTimerExpire) s = execHkTimerExpire s := (rfl)
theorem exec_rgo (s : State) : exec (.rgo) s = execRgo s := (rfl)
theorem exec_igo (s : State) : exec (.igo) s = execIgo s := (rfl)
theorem exec_monitorConversionDue (s : State) : exec (.monitorConversionDue) s = execMonitorConversionDue s := (rfl)
theorem exec_conversionResult (d : ConvData) (s : State) : exec (.conversionResult d) s = execConversionResult d s := (rfl)
theorem exec_refSettled (inRange : Nat) (s : State) : exec (.refSettled inRange) s = execRefSettled inRange s := (rfl)
theorem exec_hkConverterFault (c : Fin 2) (s : State) : exec (.hkConverterFault c) s = execHkConverterFault c s := (rfl)
theorem exec_hkCalStart (intr : Bool) (s : State) : exec (.hkCalStart intr) s = execHkCalStart intr s := (rfl)
theorem exec_hkCalComplete (pass : Bool) (gain : Fin 65536) (ofs : Int) (s : State) : exec (.hkCalComplete pass gain ofs) s = execHkCalComplete pass gain ofs s := (rfl)
theorem exec_hkSwap (s : State) : exec (.hkSwap) s = execHkSwap s := (rfl)
theorem exec_hkTestGo (k : Fin 64) (s : State) : exec (.hkTestGo k) s = execHkTestGo k s := (rfl)
theorem exec_hkTestAuto (s : State) : exec (.hkTestAuto) s = execHkTestAuto s := (rfl)
theorem exec_senExcWrite (n : Fin 8) (w : Word) (s : State) : exec (.senExcWrite n w) s = execSenExcWrite n w s := (rfl)
theorem exec_sensorCheckStart (n : Fin 8) (s : State) : exec (.sensorCheckStart n) s = execSensorCheckStart n s := (rfl)
theorem exec_sensorCheckEnd (n : Fin 8) (s : State) : exec (.sensorCheckEnd n) s = execSensorCheckEnd n s := (rfl)
theorem exec_zoneReport (k : Fin 4) (s : State) : exec (.zoneReport k) s = execZoneReport k s := (rfl)
theorem exec_zoneTimeout (z : Fin 1024) (s : State) : exec (.zoneTimeout z) s = execZoneTimeout z s := (rfl)
theorem exec_loopAckOne (s : State) : exec (.loopAckOne) s = execLoopAckOne s := (rfl)
theorem exec_loopAckAll (s : State) : exec (.loopAckAll) s = execLoopAckAll s := (rfl)
theorem exec_loopFixWrite (n : Fin 8) (w : Word) (s : State) : exec (.loopFixWrite n w) s = execLoopFixWrite n w s := (rfl)
theorem exec_bobbinWrite (b : Fin 128) (claim : Fin 65536) (unit : Fin 256) (kind : Nat) (h1 : Nat) (h2 : Nat) (h3 : Nat) (ns : Nat) (x : Fibre) (payload : List Word) (s : State) : exec (.bobbinWrite b claim unit kind h1 h2 h3 ns x payload) s = execBobbinWrite b claim unit kind h1 h2 h3 ns x payload s := (rfl)
theorem exec_ageLimit (w : Requester) (s : State) : exec (.ageLimit w) s = execAgeLimit w s := (rfl)
theorem exec_recallTrig (s : State) : exec (.recallTrig) s = execRecallTrig s := (rfl)
theorem exec_recallRelease (s : State) : exec (.recallRelease) s = execRecallRelease s := (rfl)
theorem exec_recallExport (s : State) : exec (.recallExport) s = execRecallExport s := (rfl)
theorem exec_refreshDue (port : Fin 2) (rank : Fin 2) (bank : Fin 16) (s : State) : exec (.refreshDue port rank bank) s = execRefreshDue port rank bank s := (rfl)
theorem exec_mr4Read (a0 : Fin 3) (a1 : Fin 3) (b0 : Fin 3) (b1 : Fin 3) (s : State) : exec (.mr4Read a0 a1 b0 b1) s = execMr4Read a0 a1 b0 b1 s := (rfl)
theorem exec_trackingEvent (p : Fin 2) (ns : Nat) (temp : Int) (s : State) : exec (.trackingEvent p ns temp) s = execTrackingEvent p ns temp s := (rfl)
theorem exec_memcFreqGo (t : Fin 4) (s : State) : exec (.memcFreqGo t) s = execMemcFreqGo t s := (rfl)
theorem exec_setPointChange (s : State) : exec (.setPointChange) s = execSetPointChange s := (rfl)
theorem exec_writeDrain (p : Fin 2) (s : State) : exec (.writeDrain p) s = execWriteDrain p s := (rfl)
theorem exec_scrubRead (found : Fin 3) (s : State) : exec (.scrubRead found) s = execScrubRead found s := (rfl)
theorem exec_linkUp (p : Fin 2) (held : Nat) (fec : Bool) (s : State) : exec (.linkUp p held fec) s = execLinkUp p held fec s := (rfl)
theorem exec_linkDown (p : Fin 2) (s : State) : exec (.linkDown p) s = execLinkDown p s := (rfl)
theorem exec_frameReceive (p : Fin 2) (f : RxFrame) (s : State) : exec (.frameReceive p f) s = execFrameReceive p f s := (rfl)
theorem exec_mkaFrame (p : Fin 2) (s : State) : exec (.mkaFrame p) s = execMkaFrame p s := (rfl)
theorem exec_mkaHello (p : Fin 2) (s : State) : exec (.mkaHello p) s = execMkaHello p s := (rfl)
theorem exec_sakRekey (p : Fin 2) (s : State) : exec (.sakRekey p) s = execSakRekey p s := (rfl)
theorem exec_pnExhausted (p : Fin 2) (s : State) : exec (.pnExhausted p) s = execPnExhausted p s := (rfl)
theorem exec_arpFrame (p : Fin 2) (s : State) : exec (.arpFrame p) s = execArpFrame p s := (rfl)
theorem exec_neighbourFrame (p : Fin 2) (s : State) : exec (.neighbourFrame p) s = execNeighbourFrame p s := (rfl)
theorem exec_echoRequest (p : Fin 2) (s : State) : exec (.echoRequest p) s = execEchoRequest p s := (rfl)
theorem exec_nextHopRefresh (p : Fin 2) (s : State) : exec (.nextHopRefresh p) s = execNextHopRefresh p s := (rfl)
theorem exec_resolveTimeout (p : Fin 2) (s : State) : exec (.resolveTimeout p) s = execResolveTimeout p s := (rfl)
theorem exec_ptpMessage (p : Fin 2) (s : State) : exec (.ptpMessage p) s = execPtpMessage p s := (rfl)
theorem exec_delayReq (s : State) : exec (.delayReq) s = execDelayReq s := (rfl)
theorem exec_announceTimeout (s : State) : exec (.announceTimeout) s = execAnnounceTimeout s := (rfl)
theorem exec_streamGroupReady (k : Fin 256) (s : State) : exec (.streamGroupReady k) s = execStreamGroupReady k s := (rfl)
theorem exec_groupTimeout (k : Fin 256) (s : State) : exec (.groupTimeout k) s = execGroupTimeout k s := (rfl)
theorem exec_descriptorTimer (k : Fin 256) (s : State) : exec (.descriptorTimer k) s = execDescriptorTimer k s := (rfl)
theorem exec_failoverSwitch (k : Fin 256) (s : State) : exec (.failoverSwitch k) s = execFailoverSwitch k s := (rfl)
theorem exec_failoverReturn (k : Fin 256) (s : State) : exec (.failoverReturn k) s = execFailoverReturn k s := (rfl)
theorem exec_netScfgEnWrite (k : Fin 256) (en : Bool) (s : State) : exec (.netScfgEnWrite k en) s = execNetScfgEnWrite k en s := (rfl)
theorem exec_mgmtRead (pause : Option Nat) (s : State) : exec (.mgmtRead pause) s = execMgmtRead pause s := (rfl)
theorem exec_mgmtWrite (pause : Option Nat) (s : State) : exec (.mgmtWrite pause) s = execMgmtWrite pause s := (rfl)
theorem exec_cmdNop (s : State) : exec (.cmdNop) s = execCmdNop s := (rfl)
theorem exec_challenge (s : State) : exec (.challenge) s = execChallenge s := (rfl)
theorem exec_cmdReset (s : State) : exec (.cmdReset) s = execCmdReset s := (rfl)
theorem exec_unitReset (s : State) : exec (.unitReset) s = execUnitReset s := (rfl)
theorem exec_attest (s : State) : exec (.attest) s = execAttest s := (rfl)
theorem exec_xferOpen (s : State) : exec (.xferOpen) s = execXferOpen s := (rfl)
theorem exec_xferData (s : State) : exec (.xferData) s = execXferData s := (rfl)
theorem exec_xferClose (s : State) : exec (.xferClose) s = execXferClose s := (rfl)
theorem exec_xferAbort (s : State) : exec (.xferAbort) s = execXferAbort s := (rfl)
theorem exec_compressRecord (n : Fin 2) (s : State) : exec (.compressRecord n) s = execCompressRecord n s := (rfl)
theorem exec_blockTimeout (n : Fin 2) (s : State) : exec (.blockTimeout n) s = execBlockTimeout n s := (rfl)
theorem exec_compressedRecordWrite (n : Fin 2) (s : State) : exec (.compressedRecordWrite n) s = execCompressedRecordWrite n s := (rfl)
theorem exec_compressorEccError (n : Fin 2) (s : State) : exec (.compressorEccError n) s = execCompressorEccError n s := (rfl)
theorem exec_dflEnWrite (n : Fin 2) (en : Bool) (s : State) : exec (.dflEnWrite n en) s = execDflEnWrite n en s := (rfl)
theorem exec_decompressObject (ulen : Nat) (data : List Byte) (ecc : Bool) (s : State) : exec (.decompressObject ulen data ecc) s = execDecompressObject ulen data ecc s := (rfl)
theorem exec_drbgReseed (s : State) : exec (.drbgReseed) s = execDrbgReseed s := (rfl)
theorem exec_drbgHealthFail (s : State) : exec (.drbgHealthFail) s = execDrbgHealthFail s := (rfl)
theorem exec_drbgRetry (ok : Bool) (s : State) : exec (.drbgRetry ok) s = execDrbgRetry ok s := (rfl)
theorem exec_progkey (slot : Fin 4) (s : State) : exec (.progkey slot) s = execProgkey slot s := (rfl)
theorem exec_revoke (slot : Fin 4) (s : State) : exec (.revoke slot) s = execRevoke slot s := (rfl)
theorem exec_advance (s : State) : exec (.advance) s = execAdvance s := (rfl)
theorem exec_fleetkey (s : State) : exec (.fleetkey) s = execFleetkey s := (rfl)
theorem exec_lockjtag (s : State) : exec (.lockjtag) s = execLockjtag s := (rfl)
theorem exec_fuseOpComplete (ok : Bool) (s : State) : exec (.fuseOpComplete ok) s = execFuseOpComplete ok s := (rfl)
theorem exec_arbAutoAdvance (s : State) : exec (.arbAutoAdvance) s = execArbAutoAdvance s := (rfl)
theorem exec_challengeExpire (s : State) : exec (.challengeExpire) s = execChallengeExpire s := (rfl)
theorem exec_sessionTimeout (s : State) : exec (.sessionTimeout) s = execSessionTimeout s := (rfl)
theorem exec_digestLinkClose (n : Fin 2) (s : State) : exec (.digestLinkClose n) s = execDigestLinkClose n s := (rfl)
theorem exec_digestRecordWrite (n : Fin 2) (s : State) : exec (.digestRecordWrite n) s = execDigestRecordWrite n s := (rfl)
theorem exec_jtagInstruction (ins : Fin 6) (src : Fin 9) (code : Fin 8) (s : State) : exec (.jtagInstruction ins src code) s = execJtagInstruction ins src code s := (rfl)
theorem exec_heartbeatDeadline (n : Fin 33) (p : Fin 2) (got : Option Nat) (others : Bool) (s : State) : exec (.heartbeatDeadline n p got others) s = execHeartbeatDeadline n p got others s := (rfl)
theorem exec_pathRestore (p : Fin 2) (s : State) : exec (.pathRestore p) s = execPathRestore p s := (rfl)
theorem exec_laneFault (n : Fin 33) (e : LaneError) (s : State) : exec (.laneFault n e) s = execLaneFault n e s := (rfl)
theorem exec_takeoverRestoreComplete (s : State) : exec (.takeoverRestoreComplete) s = execTakeoverRestoreComplete s := (rfl)
theorem exec_unservedTimeout (ll : Fin 32) (s : State) : exec (.unservedTimeout ll) s = execUnservedTimeout ll s := (rfl)
theorem exec_shadowWindowClose (mismatch : Bool) (s : State) : exec (.shadowWindowClose mismatch) s = execShadowWindowClose mismatch s := (rfl)
theorem exec_frontResidueMismatch (x : Fibre) (late : Bool) (c : Nat) (t0 : Nat) (t1 : Nat) (s : State) : exec (.frontResidueMismatch x late c t0 t1) s = execFrontResidueMismatch x late c t0 t1 s := (rfl)
theorem exec_hlthTestGo (u : Fin 256) (intr : Bool) (s : State) : exec (.hlthTestGo u intr) s = execHlthTestGo u intr s := (rfl)
theorem exec_intrusiveTestEnd (pass : Bool) (s : State) : exec (.intrusiveTestEnd pass) s = execIntrusiveTestEnd pass s := (rfl)
theorem exec_unitTestComplete (u : Fin 256) (pass : Bool) (m : SliceCoefs) (gain : Fin 65536) (ofs : Int) (s : State) : exec (.unitTestComplete u pass m gain ofs) s = execUnitTestComplete u pass m gain ofs s := (rfl)
theorem exec_railLost (n : Fin 8) (s : State) : exec (.railLost n) s = execRailLost n s := (rfl)
theorem exec_railsStable (s : State) : exec (.railsStable) s = execRailsStable s := (rfl)
theorem exec_pin (low : Bool) (ns : Nat) (s : State) : exec (.pin low ns) s = execPin low ns s := (rfl)
theorem exec_therm (t0 : Int) (t1 : Int) (t2 : Int) (s : State) : exec (.therm t0 t1 t2) s = execTherm t0 t1 t2 s := (rfl)
theorem exec_wdt (s : State) : exec (.wdt) s = execWdt s := (rfl)
theorem exec_lock (mem : Bool) (s : State) : exec (.lock mem) s = execLock mem s := (rfl)
theorem exec_resetEpisode (src : Fin 9) (s : State) : exec (.resetEpisode src) s = execResetEpisode src s := (rfl)
theorem exec_resetRelease (asleep : Bool) (fusesOk : Bool) (r0 : Fin 4096) (r1 : Fin 4096) (r2 : Fin 4096) (ecc : Option Nat) (s : State) : exec (.resetRelease asleep fusesOk r0 r1 r2 ecc) s = execResetRelease asleep fusesOk r0 r1 r2 ecc s := (rfl)
theorem exec_romStart (s : State) : exec (.romStart) s = execRomStart s := (rfl)
theorem exec_imageLoad (mode : Fin 4) (dtr : Bool) (size : Fin 32) (ecc : Option Nat) (s : State) : exec (.imageLoad mode dtr size ecc) s = execImageLoad mode dtr size ecc s := (rfl)
theorem exec_imageApply (ecc : Option Nat) (s : State) : exec (.imageApply ecc) s = execImageApply ecc s := (rfl)
theorem exec_bootTrainingComplete (ok0 : Bool) (ok1 : Bool) (ok2 : Bool) (devices : Bool) (s : State) : exec (.bootTrainingComplete ok0 ok1 ok2 devices) s = execBootTrainingComplete ok0 ok1 ok2 devices s := (rfl)
theorem exec_pageTableBuilt (s : State) : exec (.pageTableBuilt) s = execPageTableBuilt s := (rfl)
theorem exec_lanesLoaded (cal : List SliceCoefs) (g0 : Fin 65536) (g1 : Fin 65536) (o0 : Int) (o1 : Int) (s : State) : exec (.lanesLoaded cal g0 g1 o0 o1) s = execLanesLoaded cal g0 g1 o0 o1 s := (rfl)
theorem exec_autoStart (s : State) : exec (.autoStart) s = execAutoStart s := (rfl)
theorem exec_flashOpComplete (ok : Bool) (s : State) : exec (.flashOpComplete ok) s = execFlashOpComplete ok s := (rfl)
theorem exec_calStoreWrite (s : State) : exec (.calStoreWrite) s = execCalStoreWrite s := (rfl)
theorem exec_eventLogWrite (s : State) : exec (.eventLogWrite) s = execEventLogWrite s := (rfl)
theorem exec_monLine (s : State) : exec (.monLine) s = execMonLine s := (rfl)
theorem exec_help (s : State) : exec (.help) s = execHelp s := (rfl)
theorem exec_id (s : State) : exec (.id) s = execId s := (rfl)
theorem exec_stat (s : State) : exec (.stat) s = execStat s := (rfl)
theorem exec_health (s : State) : exec (.health) s = execHealth s := (rfl)
theorem exec_authChallenge (s : State) : exec (.authChallenge) s = execAuthChallenge s := (rfl)
theorem exec_auth (s : State) : exec (.auth) s = execAuth s := (rfl)
theorem exec_peek (pause : Option Nat) (s : State) : exec (.peek pause) s = execPeek pause s := (rfl)
theorem exec_poke (s : State) : exec (.poke) s = execPoke s := (rfl)
theorem exec_log (s : State) : exec (.log) s = execLog s := (rfl)
theorem exec_trace (s : State) : exec (.trace) s = execTrace s := (rfl)
theorem exec_traceCapture (ws : List (Int × Bool)) (s : State) : exec (.traceCapture ws) s = execTraceCapture ws s := (rfl)
theorem exec_cal (s : State) : exec (.cal) s = execCal s := (rfl)
theorem exec_test (s : State) : exec (.test) s = execTest s := (rfl)
theorem exec_slot (s : State) : exec (.slot) s = execSlot s := (rfl)
theorem exec_slotOpen (s : State) : exec (.slotOpen) s = execSlotOpen s := (rfl)
theorem exec_slotData (s : State) : exec (.slotData) s = execSlotData s := (rfl)
theorem exec_slotClose (s : State) : exec (.slotClose) s = execSlotClose s := (rfl)
theorem exec_slotAbort (s : State) : exec (.slotAbort) s = execSlotAbort s := (rfl)
theorem exec_slotClear (s : State) : exec (.slotClear) s = execSlotClear s := (rfl)
theorem exec_monReset (s : State) : exec (.monReset) s = execMonReset s := (rfl)
theorem exec_monResetUnit (s : State) : exec (.monResetUnit) s = execMonResetUnit s := (rfl)
theorem exec_emitEnHigh (s : State) : exec (.emitEnHigh) s = execEmitEnHigh s := (rfl)
theorem exec_mkaLifeTimeout (p : Fin 2) (s : State) : exec (.mkaLifeTimeout p) s = execMkaLifeTimeout p s := (rfl)
theorem exec_hkAutocalRequest (s : State) : exec (.hkAutocalRequest) s = execHkAutocalRequest s := (rfl)
theorem exec_onDemandTrainingComplete (ok : Bool) (s : State) : exec (.onDemandTrainingComplete ok) s = execOnDemandTrainingComplete ok s := (rfl)
theorem exec_identityKeyDerived (s : State) : exec (.identityKeyDerived) s = execIdentityKeyDerived s := (rfl)
theorem exec_laneCheckpointTimer (ll : Fin 32) (s : State) : exec (.laneCheckpointTimer ll) s = execLaneCheckpointTimer ll s := (rfl)
theorem exec_traceTimeout (s : State) : exec (.traceTimeout) s = execTraceTimeout s := (rfl)
theorem exec_monCharacter (c : Byte) (framing : Bool) (s : State) : exec (.monCharacter c framing) s = execMonCharacter c framing s := (rfl)

/-- A step takes the front of the queue. -/
theorem step_ask (c : Instr) (s : State) : step (s.ask c) = exec c s := (rfl)

theorem step_cons (c : Instr) (q : List Instr) (s : State) (h : s.pending = c :: q) : step s = exec c { s with pending := q } := by
  unfold step State.rest
  rw [h]
  rfl

end Sys2Proof.Machine
end

