-- ==== Sys2Proof/Laws/Lane.lean ====
section
/-!
SUPPORT. What issuing a lane instruction leaves: one lemma for the instructions that fall through with a new core, one for those
that set the PC, and the list operations they rest on.
-/
namespace Sys2Proof.Machine

/-! ## Lists and logical lanes -/

@[simp] theorem setAt_length {α : Type} (l : List α) (n : Nat) (v : α) : (setAt l n v).length = l.length := by
  induction l generalizing n with
  | nil => rfl
  | cons a t ih => cases n <;> simp [setAt, ih]

theorem setAt_getD_same {α : Type} (l : List α) (n : Nat) (v d : α) (h : n < l.length) : (setAt l n v).getD n d = v := by
  induction l generalizing n with
  | nil => simp at h
  | cons a t ih => cases n with
    | zero => simp [setAt]
    | succ n => simpa [setAt] using ih n (by simpa using h)

theorem setAt_getD_ne {α : Type} (l : List α) {n j : Nat} (v d : α) (h : j ≠ n) : (setAt l n v).getD j d = l.getD j d := by
  induction l generalizing n j with
  | nil => rfl
  | cons a t ih =>
    cases n <;> cases j
    · exact absurd rfl h
    · simp [setAt]
    · simp [setAt]
    · simpa [setAt] using ih (n := _) (j := _) (by omega)

theorem mem_setAt {α : Type} (l : List α) (n : Nat) (v : α) {x : α} (h : x ∈ setAt l n v) : x = v ∨ x ∈ l := by
  induction l generalizing n with
  | nil => simp [setAt] at h
  | cons a t ih =>
    cases n with
    | zero =>
      rcases List.mem_cons.mp h with h | h
      · exact .inl h
      · exact .inr (List.mem_cons_of_mem _ h)
    | succ n =>
      rcases List.mem_cons.mp h with h | h
      · exact .inr (List.mem_cons.mpr (.inl h))
      · rcases ih n h with h | h
        · exact .inl h
        · exact .inr (List.mem_cons_of_mem _ h)

theorem State.logical_setLogical_same (s : State) (ll : Nat) (l : Logical) : (s.setLogical ll l).logical ll = l :=
  mapGet_mapSet_same _ _ _ _

theorem State.logical_setLogical_ne (s : State) {ll j : Nat} (l : Logical) (h : j ≠ ll) : (s.setLogical ll l).logical j = s.logical j :=
  mapGet_mapSet_ne _ _ _ h

theorem State.laneLL_setLogical (s : State) (ll n : Nat) (l : Logical) : (s.setLogical ll l).laneLL n = s.laneLL n := (rfl)

/-! ## Issue -/

/-- A core put back at an address in the program: no trap. -/
theorem putCore_laneOnly (n pc : Nat) (u : Use) (x : Nat) (c : LaneCore) (s : State) (h : pc < (s.laneOf n).prog.length) :
    laneOnly n s (putCore (s.laneLL n) n pc (account u x (s.laneOf n)) c s) { c with pc := pc } := by
  have e : putCore (s.laneLL n) n pc (account u x (s.laneOf n)) c s =
      s.setLogical (s.laneLL n) { account u x (s.laneOf n) with core := { c with pc := pc }, retired := s.now } := by
    unfold putCore
    exact if_pos h
  rw [e]
  refine ⟨s.setLogical_keeps _ _, rfl, fun ll hl => s.logical_setLogical_ne _ hl, ?_⟩
  have k : (s.setLogical (s.laneLL n) { account u x (s.laneOf n) with core := { c with pc := pc }, retired := s.now }).laneOf n =
      { account u x (s.laneOf n) with core := { c with pc := pc }, retired := s.now } := by
    unfold State.laneOf
    rw [s.laneLL_setLogical, s.logical_setLogical_same]
  rw [k]
  rfl

/-- An instruction that only transforms its lane's core, and whose residue checks pass. -/
theorem issue_next (n : Nat) (w : Word) (u : Use) (f : Logical → LaneCore → LaneCore) (s : State) (hr : laneReady n w s = true)
    (hg : s.goesOn n) (he : (f (s.laneOf n) (s.laneCore n)).err = false) : ∃ t, issue n w u f s = .next t ∧ laneOnly n s t ((f (s.laneOf n) (s.laneCore n)).onward (s.laneCore n)) := by
  refine ⟨_, if_pos hr, ?_⟩
  change laneOnly n s (residueCheck n (f (s.laneOf n) (s.laneCore n)).err _) _
  rw [he]
  exact putCore_laneOnly n _ u _ _ s hg

/-- The end of an instruction that falls through. -/
theorem fallThrough_laneOnly (n : Nat) (u : Use) (c : LaneCore) (s : State)
    (h : (afterLoops c.pc c.loops).1 < (s.laneOf n).prog.length) :
    laneOnly n s (fallThrough (s.laneLL n) n u (s.laneOf n) c s) (c.onward c) :=
  putCore_laneOnly n _ u _ _ s h

/-- The end of an instruction that sets the PC. -/
theorem jumpTo_laneOnly (n pc : Nat) (u : Use) (c : LaneCore) (s : State) (h : pc < (s.laneOf n).prog.length) :
    laneOnly n s (jumpTo (s.laneLL n) n pc u (s.laneOf n) c s) { c with pc := pc } :=
  putCore_laneOnly n _ u _ _ s h

/-- An instruction with its own effect on the machine. -/
theorem issueWith_next (n : Nat) (w : Word) (f : Nat → Logical → State → State) (s : State) (hr : laneReady n w s = true) :
    issueWith n w f s = .next (f (s.laneLL n) (s.laneOf n) s) := if_pos hr

end Sys2Proof.Machine
end

