-- ==== Sys2Proof/Machine/Response.lean ====
section
/-!
DEFINITION. The frequency responses that R191 and R252 ask of the filter coefficients. The spec gives no coefficient, so they are
constants of Config without a value; a claim that rests on a response takes these statements as its premise. (DESIGN CHOICE,
assumption 23.)
-/
namespace Sys2Proof.Machine

/-- `x` is the amplitude, at `w` rad a sample, of a filter of `t` real coefficients symmetric about their centre. -/
def FirGain (h : Nat → ℝ) (t : Nat) (w x : ℝ) : Prop :=
  x = |∑ j ∈ Finset.range t, h j * Real.cos (((j : ℝ) - ((t : ℝ) - 1) / 2) * w)|

/-- An amplitude lies within `r` dB of 1. -/
def Ripples (r x : ℝ) : Prop := |20 * Real.logb 10 x| ≤ r ∧ 0 < x

/-- An amplitude lies at least `a` dB below 1. -/
def Rejects (a x : ℝ) : Prop := x ≤ (10 : ℝ) ^ (-a / 20)

/-- The separation filter of point pitch `p`, at `f` MHz of the 1,000 MS/s stream. -/
def SepGain (p : Nat) (f x : ℝ) : Prop := FirGain (fun j => (sepTap p j : ℝ) / 2 ^ 40) 65 (2 * Real.pi * f / 1000) x

/-- The table of R191: ripple within the passband, attenuation beyond the stopband edge. -/
def SepMeets (p : Nat) (pass stop : ℝ) : Prop :=
  ∀ f x : ℝ, 0 ≤ f → f ≤ 500 → SepGain p f x → (f ≤ pass → Ripples 0.01 x) ∧ (stop ≤ f → Rejects 80 x)

/-- The separation filters respond as R191 asks. -/
def SeparationResponds : Prop := SepMeets 2 200 300 ∧ SepMeets 4 100 150

/-- The FIR of preset `p`, at `f` output rates. -/
def PresetFirGain (p : Nat) (f x : ℝ) : Prop :=
  FirGain (fun j => (firCoef p j : ℝ) / 2 ^ 19) (presetT p) (2 * Real.pi * f / presetD p) x

/-- A whole chain of preset `p` and ratio `n`, at `f` output rates: K boxes of M1 samples, and the FIR but under OPEN (R249). -/
def ChainGain (p n : Nat) (f x : ℝ) : Prop :=
  ∃ c g : ℝ, FirGain (fun _ => 1 / (presetM p n : ℝ)) (presetM p n) (2 * Real.pi * f / n) c ∧
    (if p = 0 then g = 1 else PresetFirGain p f g) ∧ x = c ^ presetK p * g

/-- A row of the table of R252: passband, its ripple, the FIR's stopband and attenuation, and the alias rejection of the whole chain for
what folds into the passband. Under OPEN the ripple is the droop. -/
def PresetMeets (p : Nat) (pass ripple stop fir alias_ : ℝ) : Prop :=
  (∀ n : Nat, ratioOk p n = true → ∀ f x : ℝ, 0 ≤ f → f ≤ (n : ℝ) / 2 → ChainGain p n f x →
    (f ≤ pass → Ripples ripple x) ∧ (∀ k : Nat, 1 ≤ k → |f - k| ≤ pass → Rejects alias_ x)) ∧
  (p ≠ 0 → ∀ f x : ℝ, stop ≤ f → f ≤ (presetD p : ℝ) / 2 → PresetFirGain p f x → Rejects fir x)

/-- The presets respond as R252 asks. -/
def PresetsRespond : Prop :=
  PresetMeets 0 0.10 0.29 0 0 38 ∧ PresetMeets 1 0.25 0.10 0.75 60 50 ∧ PresetMeets 2 0.35 0.05 0.65 80 55 ∧
    PresetMeets 3 0.42 0.01 0.58 80 80

end Sys2Proof.Machine
end

