-- ==== Sys2Proof/Tests/Slice0.lean ====
section
/-!
SUPPORT. Tests of single commands, smoke tests of well-formedness, and for every statement with hypotheses a witness that they can be met:
each conjunct of a witness meets the hypotheses of one of its statement's clauses.
-/
namespace Sys2Proof.Tests
open Sys2Proof Sys2Proof.Machine

/-! ## Small states -/

/-- A machine out of reset, no image applied. -/
def up : State := { State.reset with boot := { State.reset.boot with episode := none, asserted := [] } }

/-- A machine out of reset with fields of its registers as given. -/
def st (l : List (Fld × Nat)) : State := up.wrs l

def img : Image := { slot := 0, gen := 1, svn := 0, flags := 0, ownerSlot := 0, hash := [], recs := [] }
def imaged (s : State) : State := s.modBoot (fun b => { b with image := some img })

/-- A tone, a pulse and a trigger width that R88 admits, in one plane of fibre A. -/
def planFields (live : Bool) : List (Fld × Nat) :=
  [(planeFld live (F.SHOT_TFREQ01.F0 0), 100), (planeFld live (F.SHOT_PULSE.WIDTH 0), 100), (planeFld live (F.SHOT_TRIG.TWIDTH 0), 10)]

/-- Fibre A with a geometry and a live plan that R33 and R88 admit. -/
def ready : State := imaged (st ([(F.SHOT_FLEN.LEN 0, 2000), (F.SHOT_NG.NG 0, 146800), (F.SHOT_CHAN.PITCH 0, 4),
  (F.SHOT_CHAN.GAUGE 0, 4), (F.GND_STAT.READY, 1), (F.MEMC_STAT.LIVE, 0)] ++ planFields true))

/-- Fibre A acquires, its first round to come at 0 or running. -/
def acq (c : Sched) : State := (ready.wrs [(F.SHOT_STAT.STATE 0, 1), (F.CMT_STAT.STATE 0, 1)]).setSch .a c

def das : Slot :=
  { kind := .das, round := 0, tone := 0, nT := 1, seq := 0, tL := 0, ts := 0, fMHz := 100, w := 100, wc := 100, tmin := 5000, gateUp := 0,
    gateDown := 100, cordOk := true, complete := false, flags := 0, causes := 0, spans := [], verdict := none, erased := false,
    spanSeen := false, pulse := none, peak := none, e := none, selv := 0 }

/-- Fibre A's emission permitted. -/
def permitted : List (Fld × Nat) :=
  [(F.SRC_EMIT.EMIT_IN, 1), (F.SRC_EMIT.ALLOW_A, 1), (F.SYS_OPT.OPT_OK, 1), (F.SHOT_SYNEN.EN 0, 1)]

/-- The request `bytes` waits at port 0. -/
def asks (bytes : List Byte) (s : State) : State :=
  s.modNet (fun v => { v with queue := [{ port := 0, v6 := false, src := 0xC0A8_0001, sport := 5000, bytes := bytes }] })

/-- A request datagram without trailer: OP, ADDR, COUNT and words. -/
def dg (op addr count : Nat) (ws : List Word) : List Byte :=
  leBytes 2 0x4D46 ++ [1, BitVec.ofNat 8 op] ++ leBytes 4 7 ++ leBytes 2 count ++ leBytes 2 0 ++ leBytes 4 addr ++ wordsToBytes ws

/-- Lane 32 serves logical lane 3, whose program is `w` and a NOP, with the core `f` of an initialised one. -/
def lane (w : Word) (f : LaneCore → LaneCore) : State :=
  (st [(F.LANE_STAT.MODE 32, laneActive), (F.LANE_STAT.LL 32, 3)]).setLogical 3
    { emptyLogical with prog := [w, 0], core := f emptyLogical.core }

/-! ## Witnesses: bus, clock, acquisition, resets and boot -/

theorem witness_StepRunsTheFront : (State.reset.ask .capture).pending = .capture :: [] := by decide +kernel

theorem witness_TimeAndTimebase :
    State.reset.pending = [] ∧ State.reset.tb.run = false ∧
    (let t := { State.reset.tb with run := true }
     ({ State.reset with tb := t }).tb.run = true ∧ t.stepPend = none ∧ ({ t with stepPend := some (-1) }).stepPend = some (-1)) ∧
    (st []).rd F.CLK_TB_CTL.SRC = 0 ∧ (st [(F.CLK_TB_CTL.SRC, 3)]).rd F.CLK_TB_CTL.SRC = 3 ∧
    (st [(F.CLK_TB_CTL.SRC, 1)]).rd F.CLK_TB_CTL.SRC = 1 ∧ (st [(F.CLK_TB_CTL.SRC, 2)]).rd F.CLK_TB_CTL.SRC = 2 ∧
    ({ up.tb with edge := 2 ^ 96 - 1 }).edge < 2 ^ 96 := by decide +kernel

theorem witness_BusRefusals :
    up.busUp = true ∧ 2 % 4 ≠ 0 ∧ regDef? 0xFFFFFC = none ∧
    (regDef? (R.SRC_LEBASE 0)).any (fun r => r.denied 0 0xFFFF_FFFF) = true ∧
    ((regDef? (R.SRC_SET 7)).any (fun r => !r.denied 0 1) = true ∧ up.emissionWrite (R.SRC_SET 7) 1 = true) ∧
    ((regDef? 720948).any (fun r => !r.denied 0 0xFFFF_FFFF && (actDatapath r 720948 0xFFFF_FFFF up).isNone &&
        (actSystem none r 720948 0xFFFF_FFFF up).isNone && !r.admits (fun f => f.host && f.acc == .rw) 0xFFFF_FFFF) = true ∧
      up.emissionWrite 720948 0xFFFF_FFFF = false) := by decide +kernel

theorem witness_RegisterAccess :
    up.busUp = true ∧
    ((regDef? 24).any (fun r => !r.denied (up.reg (up.keyOf 24)).toNat 0xFFFF_FFFF && (actDatapath r 24 0xFFFF_FFFF up).isNone &&
        (actSystem none r 24 0xFFFF_FFFF up).isNone && r.admits (fun f => f.host && f.acc == .rw) 0xFFFF_FFFF) = true ∧
      up.emissionWrite 24 0xFFFF_FFFF = false) ∧
    ((regDef? 4).isSome = true ∧ isUpper 4 = false ∧ upperOf 4 = none) ∧
    ((regDef? R.MEMC_STAT).isSome = true ∧ isUpper R.MEMC_STAT = false ∧ upperOf R.MEMC_STAT = none) ∧
    (upperOf 131168).isSome = true := by decide +kernel

theorem witness_ServoAndPps :
    let pps (n : Nat) : State := st [(F.CLK_TB_CTL.SRC, 3), (F.CLK_TB_STAT.STATE, n)]
    let late (ns : Nat) (t : Timebase) : Timebase := { t with edge := ns * 2 ^ 32 }
    let at_ (n ns : Nat) : State := (pps n).modTb (late ns)
    ¬ (st []).rd F.CLK_TB_CTL.SRC = 3 ∧
    ((pps 2).rd F.CLK_TB_CTL.SRC = 3 ∧ (pps 2).rd F.CLK_TB_CTL.PPS_IN_POL = 0 ∧ (pps 2).rd F.CLK_TB_STAT.STATE = 2) ∧
    1_000_000 < (secondOffset ((at_ 2 1_000_001).tbAt 0 / 2 ^ 32)).natAbs ∧
    ¬ 1_000_000 < (secondOffset ((at_ 2 1_000_000).tbAt 0 / 2 ^ 32)).natAbs ∧
    ((at_ 1 100).rd F.CLK_TB_STAT.STATE = 1 ∧ (secondOffset ((at_ 1 100).tbAt 0 / 2 ^ 32)).natAbs ≤ 100 ∧
      ((at_ 1 100).modTb (fun t => { t with inLock := t.limits.lockCount })).tb.limits.lockCount = (at_ 1 100).tb.limits.lockCount ∧
      (secondOffset ((at_ 1 100).tbAt 0 / 2 ^ 32)).natAbs ≤ 1000) ∧
    ((pps 3).rd F.CLK_TB_STAT.STATE = 3 ∧
      ({ up.tb.limits with lockCount := 2 } : ServoLimits).lockCount = 2) ∧
    (let s := { pps 2 with now := 1000 * 1_000_000 * 1_000_000 }
     s.rd F.CLK_TB_CTL.SRC ≠ 0 ∧ s.rd F.CLK_TB_STAT.STATE = 2 ∧ s.tb.lastValid + s.tb.limits.holdoverMs * 1_000_000 ≤ s.now) ∧
    ((st [(F.CLK_TB_CTL.PPS_OUT_EN, 1)]).modTb (fun t => { t with secAt := some 4 })).tb.secAt = some 4 ∧
    (st [(F.CLK_TB_CTL.PPS_OUT_EN, 1)]).rd F.CLK_TB_CTL.PPS_OUT_EN = 1 ∧ up.tb.secAt = none ∧ up.rd F.CLK_TB_CTL.PPS_OUT_EN = 0 ∧
    (let s := { up with now := 4, pins := { up.pins with ppsFall := some 4 } }
     s.pins.ppsFall = some 4 ∧ 4 ≤ s.now) := by decide +kernel

theorem witness_FibreStarts :
    (acq Sched.idle).acquiring .a = true ∧ up.mayAcquire = false ∧
    (ready.acquiring .a = false ∧ ready.mayAcquire = true ∧ ready.cmState .a = cmIdle ∧ ready.rd (F.SHOT_FLEN.LEN 0) ≠ 0) ∧
    (ready.wr (F.CMT_STAT.STATE 0) cmDrain).cmState .a ≠ cmIdle ∧
    (ready.startErr .a = 0 ∧ ready.startCode .a = 0) ∧
    ((ready.wr (F.SHOT_FLEN.LEN 0) 1999).startErr .a ≠ 0 ∧ (ready.wr (F.SHOT_PULSE.WIDTH 0).live 9).startCode .a ≠ 0) ∧
    (let s := up.modBoot (fun b => { b with autoDue := true })
     s.boot.autoDue = true ∧ s.boot.episode = none) := by decide +kernel

theorem witness_Rounds :
    ((acq { Sched.idle with startAt := some 0 }).atBoundary .a ∧ (acq { Sched.idle with startAt := some 0, stopReq := true }).atBoundary .a) ∧
    (let s := acq { Sched.idle with startAt := none }
     s.atBoundary .a ∧ s.adopting .a = false ∧ s.soundShot .a = false ∧ s.planned .a ∧ (s.sch .a).armed = none ∧
       (s.sch .a).stopReq = false ∧ (s.cmt .a).replay = none) := by
  unfold State.atBoundary State.planned; decide +kernel
theorem witness_SlotsAndLaunches :
    let s := acq Sched.idle
    let p := s.wrs permitted
    (s.acquiring .a = true ∧ (s.evalSlot .a).any (fun q => decide (s.firstEdge .a q ≤ s.now + 64 ∧ s.slotKind .a q = .dark ∧ q.round = 0)) ∧
      (s.sch .a).armed = none ∧ (s.sch .a).startAt = none) ∧
    (p.acquiring .a = true ∧ (p.evalSlot .a).any (fun q => decide (p.firstEdge .a q ≤ p.now + 64 ∧ p.slotKind .a q = .das)) ∧
      (p.sch .a).armed = none) ∧
    (let a := acq { Sched.idle with armed := some (0, 0, .das) }
     a.acquiring .a = true ∧ (a.sch .a).startAt = none ∧ (a.sch .a).armed = some ((a.sch .a).round, 0, .das) ∧ SlotKind.das ≠ .dark ∧
       slotStart (a.sch .a).tB (a.sch .a).tr (a.sch .a).nT 0 ≤ a.now) ∧
    (((acq { Sched.idle with ramanRound := some (0, 0, 10) }).sch .a).ramanRound = some (0, 0, 10) ∧ 0 ≤ s.now) ∧
    (let r := p.wrs [((F.SHOT_RAMAN.MODE 0).live, 1), ((F.SHOT_RAMAN.DIV 0).live, 1)]
     r.trigPermit .a = true ∧ (r.evalSlot .a).any (fun q => (ramanInstant q (r.plan q.live 0)).isSome) = true) := by decide +kernel

theorem witness_PlanChanges :
    let go := ready.wrs (planFields false ++ [(F.SHOT_STAGE.PEND 0, 1)])
    let adopts := ((acq { Sched.idle with accepted := true, tr := 4000 }).wrs (planFields false ++ [(F.SHOT_STAGE.PEND 0, 1)]))
    (go.rd (F.SHOT_STAGE.PEND 0) = 1 ∧ (go.sch .a).accepted = false ∧ go.stageCode .a = 0) ∧
    ((go.wr (F.SHOT_TRIG.TWIDTH 0) 9).stageCode .a ≠ 0) ∧
    (ready.rd (F.SHOT_STAGE.PEND 0) = 0 ∧ ready.acquiring .a = false) ∧
    ((acq Sched.idle).rd (F.SHOT_STAGE.PEND 0) = 0 ∧ (acq Sched.idle).acquiring .a = true) ∧
    (adopts.acquiring .a = true ∧ adopts.adopting .a = true ∧ (adopts.nextStart .a).isSome = true ∧ (adopts.sch .a).stopReq = false ∧
      adopts.planned .a) ∧
    (let s := { (acq { Sched.idle with sounding := true, heldTo := some 0 }).setCmt .a { Commit.idle with slots := [{ das with kind := .sound }] } with
                now := 10_000_000 }
     s.acquiring .a = true ∧ s.soundShot .a = true ∧ (s.nextStart .a).any (fun b => decide (b ≤ s.now)) ∧ (s.sch .a).stopReq = false ∧
       s.planned .a) ∧
    (let s := (ready.wr (F.CMT_STAT.STATE 0) cmDrain).setCmt .a { Commit.idle with stopped := some (0, 0) }
     s.acquiring .a = false ∧ s.cmState .a ≠ cmIdle ∧ (s.cmt .a).drainAt.any (fun b => decide (b ≤ s.now))) := by
  unfold State.planned; decide +kernel

theorem witness_Resets :
    (srPor ≤ 8 ∧ min (ready.reachOf 0) ((ready.boot.episode).getD rchAcq) = rchCold) ∧
    min ((ready.wr F.SYS_RTBL.BOR rchFabric).reachOf 1) ((ready.boot.episode).getD rchAcq) = rchFabric ∧
    (min ((ready.setReg R.SYS_RTBL (w32 (rchAcq * 8 ^ 6))).reachOf 7) ((ready.boot.episode).getD rchAcq) = rchAcq) ∧
    nthBit ((st [(F.SYS_RAIL.GOOD, 0x7F)]).rd F.SYS_RAIL.GOOD) 6 = true ∧
    1000 ≤ 1000 ∧ 99 < 100 ∧ (1250 : Int) ≤ 1250 ∧ (1150 : Int) ≤ 1150 ∧ ((1249 : Int) < 1250 ∧ (1150 : Int) < 1151) ∧
    (st [(F.CLK_STAT.ROOT_LOCK, 1)]).rd F.CLK_STAT.ROOT_LOCK = 1 ∧ (st [(F.CLK_STAT.MEM_LOCK, 1)]).rd F.CLK_STAT.MEM_LOCK = 1 := by
  decide +kernel

theorem witness_ReleaseAndRom :
    let at_ (r : Nat) : State := ready.modBoot (fun b => { b with episode := some r })
    let warm := (at_ rchWarm).modMemc (fun m => { m with held := true })
    ((at_ rchAcq).boot.episode = some rchAcq ∧ (at_ rchAcq).boot.release = none ∧ (at_ rchAcq).allReleased = true) ∧
    ((at_ rchAcq).boot.image ≠ none ∧ 8 ≤ ((at_ rchAcq).wr F.SYS_BOOT.PHASE 8).rd F.SYS_BOOT.PHASE) ∧
    ((at_ rchCold).boot.episode = some rchCold ∧ (at_ rchCold).allReleased = true) ∧
    ((at_ rchFabric).boot.episode = some rchFabric ∧ (at_ rchFabric).allReleased = true) ∧
    (warm.boot.episode = some rchWarm ∧ warm.boot.release = none ∧ warm.allReleased = true ∧ warm.memc.held = true) ∧
    ((at_ rchWarm).boot.episode = some rchWarm ∧ (at_ rchWarm).memc.held = false) ∧
    (ready.modBoot (fun b => { b with release := some 0 })).boot.release ≠ none ∧
    ((st [(F.SYS_OPT.MAINT, 1)]).rd F.SYS_OPT.MAINT = 1 ∧ (st [(F.SEC_STAT.LIFE, lifeOwned)]).life = lifeOwned) := by decide +kernel

/-- The words of an image without records, of generation `gen`. -/
def blankImage (gen : Nat) : List Word := [0x4B49_5250, 0x100_0001, 352, w32 gen] ++ List.replicate 84 0

theorem witness_BootSequence :
    let boot := (st [(F.SYS_BOOT.PHASE, 2)]).modSecu (fun u => { u with identity := true })
    let slots (a b : List Word) : State := up.modFlash (fun f => { f with slots := ⟨a, b⟩ })
    (boot.rd F.SYS_BOOT.PHASE = 2 ∧ boot.boot.stopped = false ∧ boot.boot.episode = none ∧ boot.secu.identity = true) ∧
    ((26 : Fin 32).val < 27 ∧ (1 : Fin 4) ≠ 0 ∧ 27 ≤ (27 : Fin 32).val) ∧
    up.firstSlot = none ∧
    (slots (blankImage 1) (blankImage 1)).firstSlot = some 0 ∧
    (slots (blankImage 1) (blankImage 2)).firstSlot = some 1 ∧
    (up.modBoot (fun b => { b with loaded := some img })).boot.loaded = some img ∧
    ((st [(F.SYS_BOOT.PHASE, 5)]).rd F.SYS_BOOT.PHASE = 5 ∧ up.boot.episode = none) ∧
    (up.unitHeld (laneUnit 31) = false ∧ (up.modHealth (fun h => { h with held := [laneUnit 32] })).unitHeld (laneUnit 32) = true) := by
  decide +kernel

/-! ## Witnesses: memory controller and Ground -/

/-- The memory works. -/
def memUp : State := (st [(F.GND_STAT.READY, 1)]).modMemc (fun m => { m with selfRef := false })

theorem witness_MemoryUpkeep :
    memUp.memUp = true ∧
    ((0 : Fin 2).val < memUp.ranks ∧ mapGet (fun _ => (0 : Nat)) memUp.memc.nextRef (bankKey 1 0 15) ≤ memUp.now ∧
      (memUp.modMemc (fun m => { m with post := [(bankKey 1 0 15, 8)] })).postponed (bankKey 1 0 15) ≤ 8) ∧
    ((1 : Fin 2).val < ((memUp.wr F.MEMC_CFG.RANKS 1)).ranks) ∧
    (memUp.memc.mr4At ≤ memUp.now ∧ [1, 1, 1, 1].foldl max 1 < [4, 1, 1, 1].foldl max 1) ∧
    (memUp.memc.train = none ∧ memUp.rd F.GND_STAT.READY = 1 ∧ within10 memUp.now (memUp.memc.trkEnd.at 1) = false ∧
      within10 memUp.now memUp.memc.changeEnd = false ∧ memUp.memc.trkDue.at 1 ≤ memUp.now) ∧
    (memUp.memc.scrubAt ≤ memUp.now ∧ memUp.memc.scrub ∉ memUp.memc.poison ∧
      ((memUp.modMemc (fun m => { m with poison := [0] })).memc.poison = [0])) ∧
    (memUp.rd F.MEMC_WBUF.HIWM ≤ (List.replicate (memUp.rd F.MEMC_WBUF.HIWM) 0).length ∧
      ¬ memUp.rd F.MEMC_WBUF.HIWM ≤ (memUp.memc.wbuf.at 0).length) := by decide +kernel

theorem witness_SetPointsAndTraining :
    let m (f : Memc → Memc) : State := memUp.modMemc f
    let u := memUp.memSettle.wr F.MEMC_FREQ.TARGET 1
    (3 : Fin 4) = 3 ∧ (m (fun v => { v with change := some (0, 0) })).memc.change ≠ none ∧ memUp.memc.change = none ∧
    2 = (memUp.memSettle.wr F.MEMC_FREQ.TARGET 2).rd F.MEMC_STAT.LIVE ∧
    (let s := (acq Sched.idle).modMemc (fun v => { v with selfRef := false })
     let u := (s.wrs [(F.GND_RCFG.EN, 1), (F.MEMC_FREQ.TARGET, 2)])
     2 ≠ u.rd F.MEMC_STAT.LIVE ∧ u.fspErr 2 ≠ 0 ∧ u.fspErr 1 = 0 ∧ u.fspValid 1 = false ∧ u.anyAcquiring = true) ∧
    (1 ≠ u.rd F.MEMC_STAT.LIVE ∧ u.fspErr 1 = 0 ∧ u.fspValid 1 = false ∧ u.anyAcquiring = false ∧ memUp.memc.train = none) ∧
    ((u.wr F.MEMC_STAT.VALID 2).fspValid 1 = true ∧ (m (fun v => { v with changeEnd := some 0 })).memRecent = true ∧
      memUp.memRecent = false ∧ memUp.anyAcquiring = false ∧ (m (fun v => { v with train := some .boot })).memc.train ≠ none) ∧
    (m (fun v => { v with latched := some 1 })).memc.latched = some 1 ∧
    (m (fun v => { v with train := some (.demand 2) })).memc.train = some (.demand 2) ∧
    (m (fun v => { v with train := some .boot })).memc.train = some .boot ∧
    ((2 : Nat) < 3 ∧ nthBit 3 2 = false ∧ nthBit 3 1 = true) ∧
    (m (fun v => { v with table := some 0 })).memc.table = some 0 := by decide +kernel

theorem witness_Bobbins :
    let b0 : State := st [(F.GND_BCFG.EN 126, 1), (F.GND_BCFG.QUOTA 126, 0)]
    let r := producerRecord 0 0 0 0 0 0 [] b0
    (up.rd (F.GND_BCFG.EN 127) = 1 ∧ bobPages (up.bob 127) + recPages r ≤ up.rd (F.GND_BCFG.QUOTA 127)) ∧
    (claimHigher 32767 0 = true ∧ claimHigher 32768 0 = false ∧ (32768 : Nat) ≠ 0) ∧
    (b0.rd (F.GND_BCFG.EN 126) = 1 ∧ b0.rd (F.GND_BCFG.QUOTA 126) < bobPages (b0.bob 126) + recPages r ∧
      b0.rd (F.GND_BCFG.POLICY 126) ≠ 1) ∧
    (b0.wr (F.GND_BCFG.POLICY 126) 1).rd (F.GND_BCFG.POLICY 126) = 1 ∧
    (st [(F.GND_BCFG.EN 0, 0)]).rd (F.GND_BCFG.EN 0) ≠ 1 ∧
    (let q : Quantum := { who := .supervisor, write := true, at_ := .staging, since := 0 }
     let s := { ((st [(F.GND_CFG.AGELIM, 0)]).modGround (fun g => { g with reqs := [q] })) with now := 1001 }
     let age := ((s.ground.ages.find? (fun p => p.1 = Requester.supervisor)).map (·.2)).getD 0
     s.ground.reqs.find? (fun q => q.who = .supervisor) = some q ∧ 3 ≤ arbLevel .supervisor ∧
       max q.since age + max 1 (s.rd F.GND_CFG.AGELIM) * 1000 < s.now ∧ ¬ max q.since age + 1000 < ({ s with now := 1000 }).now ∧
       s.ground.reqs.find? (fun q => q.who = .scrub) = none) := by decide +kernel

theorem witness_ArbiterAndAccesses :
    let q : Quantum := { who := .supervisor, write := true, at_ := .dram 3, since := 0 }
    let s := memUp.modGround (fun g => { g with reqs := [q] })
    let m (f : Memc → Memc) : State := memUp.modMemc f
    (s.nextQuantum true = some q ∧ s.mayServe q = true ∧ q.who ≠ .upkeep ∧ (s.nextQuantum false = none)) ∧
    ((5 : Nat) ∉ memUp.memc.poison ∧ memUp.bufferTakes 5 = true) ∧
    (let r := m (fun v => { v with rdq := ⟨[0], []⟩ })
     r.memUp = true ∧ r.memc.portAt.at 0 ≤ r.now ∧ r.tracking 0 = false ∧ r.mayActivate 0 = true ∧ r.memc.drain.at 0 = false ∧
       r.nextRead 0 = some 0) ∧
    (let r := m (fun v => { v with wbuf := ⟨[0], []⟩ })
     r.memc.drain.at 0 = false ∧ r.memc.rdq.at 0 = [] ∧ r.nextWrite 0 = some 0) ∧
    (let r := m (fun v => { v with wbuf := ⟨[0], []⟩, drain := ⟨true, false⟩ })
     r.memc.drain.at 0 = true ∧ r.nextWrite 0 = some 0 ∧ (r.memc.wbuf.at 0).length ≤ r.rd F.MEMC_WBUF.LOWM + 1) := by decide +kernel

theorem witness_RecallWindow :
    let at_ (n : Nat) : State := st [(F.GND_RSTAT.STATE, n)]
    (at_ 1).rcState = rcArmed ∧ (at_ 2).rcState = rcPost ∧ (at_ 0).rcState = rcOff ∧ (at_ 2).rcState ≠ rcHeld ∧
    ((at_ 3).rcState = rcHeld ∧ (at_ 3).rd F.GND_RSTAT.EXPBUSY = 0) ∧
    ((at_ 3).wr F.GND_RSTAT.EXPBUSY 1).rd F.GND_RSTAT.EXPBUSY = 1 := by decide +kernel
/-! ## Witnesses: emission, sources and slices -/

theorem witness_EmissionInput :
    let e (l : List (Fld × Nat)) : State := { (st l) with pins := { up.pins with emitEn := true } }
    50 ≤ 50 ∧ 19 < 20 ∧ (20 ≤ 49 ∧ 49 < 50) ∧ (e []).pins.emitEn = true ∧ up.pins.emitEn = false ∧
    (e [(F.SRC_EMIT.EMIT_IN, 1)]).rd F.SRC_EMIT.EMIT_IN = 1 ∧ (e []).rd F.SRC_EMIT.EMIT_IN = 0 ∧ up.boot.episode = none ∧
    (let s := { (e []).modSrc (fun v => { v with emitSince := some 0 }) with now := 10_000_000 }
     s.src.emitSince = some 0 ∧ s.pins.emitEn = true ∧ s.rd F.SRC_EMIT.EMIT_IN = 0 ∧ 0 + 10_000_000 ≤ s.now) := by decide +kernel

theorem witness_SourceBatches :
    let staged (l : List (Fld × Nat)) : State := (st ((F.SRC_STAT.STAGED 7, 1) :: (F.SRC_SET.SETPOINT 7, 0xFFFF) :: l)).modSrc (fun v => { v with tick := some 0 })
    (∀ τ, up.src.tick = some τ → up.now < τ) ∧ (up.modSrc (fun v => { v with tick := some 8 })).src.tick ≠ none ∧
    (st [(F.SRC_SYNC.PEND, 1)]).rd F.SRC_SYNC.PEND = 1 ∧ up.rd F.SRC_SYNC.PEND = 0 ∧
    wordField 0 16 (0x1_0000 : Word) = 0 ∧ wordField 0 16 (0xFFFF : Word) ≠ 0 ∧
    ((3 : Fin 4) = 3 ∧ (2 : Fin 4) ≠ 3 ∧ (2 : Fin 4) ≠ 0 ∧ up.src.tick = none) ∧
    ((staged [(F.SRC_CFG.SEED 7, 3)]).src.tick = some 0 ∧ 0 ≤ (staged []).now ∧
      (staged [(F.SRC_CFG.SEED 7, 3)]).batch.any (staged [(F.SRC_CFG.SEED 7, 3)]).needsSeed = true) ∧
    ((staged [(F.SRC_CFG.SEED 7, 0)]).batch = [7] ∧ (staged [(F.SRC_CFG.SEED 7, 0)]).batch.any (staged [(F.SRC_CFG.SEED 7, 0)]).needsSeed = false) := by decide +kernel

theorem witness_RegulatorAndFaults :
    (st [(F.SRC_CFG.SEED 7, 1)]).unseeded 7 = true ∧
    (st [(F.SRC_CFG.SEED 7, 0)]).unseeded 7 = false ∧ (up.now < (up.modSrc (fun v => { v with updDue := 1 })).src.updDue ∧ up.src.updDue ≤ up.now) ∧
    ((0 : Nat) < 100 ∧ (3 : Nat) ≤ 3 ∧ (2 : Nat) < 3) ∧
    (let s := { (up.setChan 7 { up.srcChan 7 with overFrom := some 0, shortFrom := some 0, openFrom := some 0 }) with now := 100_000 }
     (s.srcChan 7).overFrom = some 0 ∧ 0 + 1_000 ≤ s.now ∧ (s.srcChan 7).shortFrom = some 0 ∧ (s.srcChan 7).openFrom = some 0 ∧
       0 + 100_000 ≤ s.now ∧ ({ s with now := 999 }).now < 0 + 1_000 ∧ (up.srcChan 7).overFrom = none ∧ (0 : Nat) < 1_000) ∧
    (65536 * (st []).rd (F.SRC_PROT.OCLIM 7) ≤ 65535 * 256 ∨ 65536 * (st [(F.SRC_PROT.OCLIM 7, 1)]).rd (F.SRC_PROT.OCLIM 7) ≤ 65535 * 256) ∧
    ((st [(F.SRC_PROT.OCLIM 7, 1)]).rd (F.SRC_STAT.FAULT 7) ≠ sfOvercur ∧ (st []).rd (F.SRC_STAT.FAULT 0) ≠ sfShort ∧
      (st []).rd (F.SRC_STAT.FAULT 0) ≠ sfOpen) ∧
    10 * (st []).rd (F.SRC_STAT.NOW 0) + 65536 ≤ 10 * 6554 ∧
    (let s := st [(F.SRC_STAT.NOW 0, 1024)]
     95 ≤ 95 ∧ 2 * 511 < s.rd (F.SRC_STAT.NOW 0) ∧ 1024 ≤ s.rd (F.SRC_STAT.NOW 0)) ∧
    ((st []).rd (F.SRC_GRP.CAUSE 0) = 0 ∧ (st []).rd (F.SRC_GRP.MODE 0) = 0 ∧ (st []).rd (F.SRC_GRP.SHUT 0) = 0 ∧
      (st []).groupOf 1 = (st []).groupOf 0) ∧
    (nthBit 8 3 = true ∧ nthBit 8 0 = false ∧ (8 : Fin 16).val = 2 ^ 3 ∧ (st [(F.SRC_GRP.SHUT 3, 1)]).rd (F.SRC_GRP.SHUT 3) = 1) := by
  decide +kernel

def round0 : RoundInfo :=
  { round := 0, tB := 0, tr := 5000, nT := 1, low := none, selv := false, pdSum := 0, pdCount := 0, opens := false, toneset := false,
    frp := 0, ds := ⟨0, 0⟩ }
def raman0 : RamanTrace := { round := 0, tRL := 0, ts := 0, width := 10, len := 10, bad := false, sums := none, judged := false }
def sums0 : TraceSum := { as_ := [], st := [], ovr := [], darkAs := 0, darkSt := 0, e := 5, dovr := false, sub := false, cal := false }

/-- The shot `sl` of fibre A is in flight, and it is late. -/
def flying (sl : Slot) : State :=
  { (acq Sched.idle).setCmt .a { Commit.idle with slots := [sl], rounds := [round0] } with now := 1_000_000 }

def quietWord : FrontWord := let w : SliceWord := { code := 0, ovr := false, gain := 0, step := false }; { xi := w, xq := w, yi := w, yq := w }

theorem witness_EnergyAndShots :
    let s := flying das
    let m := s.shotMetrics .a das (0, 0) 200 0 [quietWord]
    ((10 : Nat) * 1 < 11 ∧ (5 : Nat) ≤ 5 ∧ (4 : Nat) < 5 ∧ 5 ≤ 10 * 4) ∧
    (s.evalRound .a = some round0 ∧ ((s.cmt .a).slots.filter (fun sl => sl.round == round0.round)) = [das] ∧
      ([das].filter (fun sl => sl.kind == .das)).length = 1 ∧ round0.nT ≤ 1 ∧ s.point200 .a das ≤ s.now ∧ s.pdDue .a 0 = false ∧
      (∀ q ∈ (s.cmt .a).rounds, q.round = round0.round → q = round0)) ∧
    (m.n = m.m ∧ (s.wr (F.SRC_SELV.FRES 0) 1).rd (F.SRC_SELV.FRES 0) = 1 ∧ (s.wr (F.SRC_SELV.FRES 0) 0).rd (F.SRC_SELV.FRES 0) = 0 ∧ s.reduced .a = false) ∧
    up.evalRound .a = none ∧
    (let d : Dts := { Dts.idle with traces := [{ raman0 with sums := some sums0 }] }
     (({ up with dts := ⟨d, Dts.idle⟩ }).dts.at 0).traces.find? (fun q => q.sums.isSome && !q.judged) =
       some { raman0 with sums := some sums0 }) ∧
    (s.openShot .a = some das ∧ das.tL + das.tmin + 216 ≤ s.now + das.w + 1 ∧ das.tone = 0 ∧ das.kind = .das ∧ (s.sch .a).sounding = false) ∧
    ((flying { das with kind := .sound }).openShot .a = some { das with kind := .sound }) ∧
    ((flying { das with kind := .probe }).openShot .a = some { das with kind := .probe }) ∧
    ((0 : Nat) < 2 ∧ 200 ≤ 200 ∧ 200 < 201 ∧ 200 % 2 = 0 ∧ 200 / 2 < (List.replicate 101 0).length) := by decide +kernel

/-- Where N and M are equal, as in the shot of the witness above, a shot is FRESNEL exactly if its threshold is 0. -/
theorem witness_fresnel (x : Fibre) (m : ShotMetrics) (s : State) (h : m.n = m.m) :
    s.isFresnel x m = decide (s.rd (F.SRC_SELV.FRES x.idx) = 0) := by
  unfold State.isFresnel; rw [h]; congr 1; apply propext; constructor <;> intro _ <;> omega
theorem witness_GainProfiles :
    let s := acq { Sched.idle with tr := 5000 }
    (st [(F.SLC_PSTAGE.PEND 0, 1)]).rd (F.SLC_PSTAGE.PEND 0) = 1 ∧
    (up.rd (F.SLC_PSTAGE.PEND 0) = 0 ∧ up.acquiring .a = false) ∧ (s.rd (F.SLC_PSTAGE.PEND 0) = 0 ∧ s.acquiring .a = true) ∧
    (let v := up.setSlices (fun q => { q with profGo := ⟨some (0, false), none⟩ })
     v.slices.profGo.at 0 = some (0, false) ∧ profileCode (v.profile false 0) = 0 ∧
       profileCode ((v.wr (F.SLC_PROF.EN 0 0) 0).profile false 0) ≠ 0) ∧
    (let q := { s with now := 10_000_000 }
     q.acquiring .a = true ∧ (q.profileGain .a).any (fun p => decide (p.2 < 8)) ∧ q.role 0 ≠ 0xF) ∧
    up.profileGain .a = none ∧ 1_999_984 < wordField 0 21 (0x1F_FFFF : Word) ∧ wordField 0 21 (1_999_984 : Word) ≤ 1_999_984 := by decide +kernel

def calOf (kind : CalKind) : SliceCal :=
  { kind := kind, slice := 14, func := 0, fib := 0, keep := false, goAt := 0, rounds := none, calAt := some 0, ended := false,
    aborted := false, unitReset := false, role0 := 0, role1 := 0 }
def coefs (ofs : Int) : SliceCoefs :=
  { ofs := ofs, skew := 127, temp := 0, mags := List.replicate 6 0xC000, delays := List.replicate 6 8000 }
/-- Slice 0 serves function 0 of fibre A, which acquires; slice 14 is the spare. -/
def serving (l : List (Fld × Nat)) : State :=
  (acq Sched.idle).wrs ([(F.SLC_STAT.MODE 0, slActive), (F.SLC_STAT.FUNC 0, 0), (roleFld 0, 0), (F.SLC_ROLE1.SPARE, 14),
    (F.SLC_STAT.MODE 14, slSpare), (F.SLC_STAT.FUNC 14, 0xF)] ++ l)
def calRuns (kind : CalKind) (l : List (Fld × Nat)) : State :=
  { (serving l).setSlices (fun q => { q with cal := some (calOf kind) }) with now := 20_000_000 }

theorem witness_CalibrationRequests :
    (serving [(F.SLC_SPARE.AUTOCAL, 0)]).rd F.SLC_SPARE.AUTOCAL = 0 ∧
    (calRuns .direct []).slices.cal ≠ none ∧
    ((serving [(F.SLC_STAT.MODE 0, slFenced)]).slices.cal = none ∧ (serving [(F.SLC_STAT.MODE 0, slFenced)]).rd (F.SLC_STAT.MODE 0) = slFenced) ∧
    ((serving []).slices.cal = none ∧ (serving []).rd (F.SLC_STAT.MODE 14) ≠ slFenced ∧ (serving []).rd (F.SLC_STAT.MODE 14) ≠ slTest ∧
      14 = (serving []).spareSlice) ∧
    ((serving []).rd (F.SLC_STAT.MODE 0) ≠ slFenced ∧ 0 ≠ (serving []).spareSlice ∧ (serving []).rd (F.SLC_STAT.FUNC 0) ≠ 0xF ∧
      (serving []).roundsOf 0 ≠ 2 ∧ (serving []).spareReady = true) ∧
    ((serving [(F.SLC_STAT.MODE 14, slCal)]).spareReady = false) ∧
    (let s := { (serving [(F.SLC_SPARE.AUTOCAL, 1), (F.SLC_SPARE.CALDT, 0), (F.SLC_SPARE.CALAGE, 1)]) with tb := { up.tb with acc := (hourNs + 1) * 2 ^ 32, edge := (hourNs + 1) * 2 ^ 32 } }
     s.rd F.SLC_SPARE.AUTOCAL = 1 ∧ s.slices.cal = none ∧ (false = (s.rd F.SLC_CAL_CMD.INTRUSIVE == 1)) ∧ 0 < s.rd F.SLC_SPARE.CALAGE ∧
       mapGet (fun _ => (0 : Nat)) s.slices.calTb 0 + s.rd F.SLC_SPARE.CALAGE * hourNs < s.tbNs) ∧
    (let s := serving [(F.SLC_SPARE.AUTOCAL, 1), (F.SLC_SPARE.CALDT, 1)]
     0 < s.rd F.SLC_SPARE.CALDT ∧ (10 * s.rd F.SLC_SPARE.CALDT : Int) < (11 - s.rdI (F.SLC_CALOFS.CALTEMP 0)).natAbs) ∧
    (let s := (serving [(F.SLC_SPARE.AUTOCAL, 1)]).setSlices (fun q => { q with again := [14] })
     14 ∈ s.slices.again ∧ s.spareReady = true) := by
  decide +kernel

theorem witness_CalibrationsAndFaults :
    (serving []).slices.cal = none ∧
    ((calRuns .episode []).slices.cal = some (calOf .episode) ∧ (calOf .episode).slice < 15 ∧ (calRuns .episode []).spareSlice < 15) ∧
    ((calRuns .episode [(F.SLC_CAL_STAT.PHASE, 1)]).rd F.SLC_CAL_STAT.PHASE = 1) ∧
    ((calRuns .episode [(F.SLC_CAL_STAT.PHASE, 2)]).rd F.SLC_CAL_STAT.PHASE = 2 ∧ (calOf .episode).ended = false) ∧
    ((calOf .direct).calAt = some 0 ∧ 0 + 20_000_000 ≤ (calRuns .direct []).now ∧ coefsOk (coefs (-32767)) = true ∧
      coefsOk (coefs (-32768)) = false ∧ (calOf .direct).kind ≠ .episode ∧ (calOf .episode).fib ≠ 2 ∧ (calOf .episode).keep = false) ∧
    (let s := serving []
     s.rd (F.SLC_STAT.MODE 0) ≠ slFenced ∧ s.rd (F.SLC_STAT.MODE 0) ≠ slTest ∧ s.rd (F.SLC_STAT.MODE 0) ≠ slOff ∧
       s.rd (F.SLC_STAT.FUNC 0) < 14 ∧ s.role (s.rd (F.SLC_STAT.FUNC 0)) = 0 ∧ s.spareReady = true ∧ s.spareSlice ≠ 0) ∧
    ((serving [(F.SLC_STAT.MODE 14, slFenced)]).spareReady = false ∧ (1 ≤ 1 ∧ (3 : Nat) ≤ 3)) ∧
    (let c := { calOf .episode with fib := 2 }
     let s := (calRuns .episode [(F.SLC_CAL_STAT.PHASE, 2)]).setSlices (fun q => { q with cal := some c })
     s.slices.cal = some c ∧ c.ended = false ∧ c.fib = 2 ∧ c.func < 14) ∧
    (let c := { calOf .episode with slice := 0 }
     let s := (serving []).setSlices (fun q => { q with cal := some c })
     c.func < 14 ∧ s.role c.func = c.slice ∧ s.spareSlice ≠ c.slice ∧ s.spareReady = true) := by decide +kernel

/-! ## Witnesses: channel samples, filters and temperature -/

theorem witness_CordonnetAndChannels :
    let on (l : List (Fld × Nat)) : State := serving ((F.FRP_CD_CFG.EN, 1) :: (F.FRP_CD_LOCK.LOCKMIN, 100) :: (roleFld 12, 0) :: (roleFld 13, 0) :: l)
    let r : RefSample := { i := 2047, q := 0, ovr := false }
    (¬ (2 ^ 18 ≤ (0 : Int).natAbs ∨ r.ovr = true ∨ 16 ≤ 0 ∨ true = false) ∧ ({ r with ovr := true }).ovr = true) ∧
    (st [(F.FRP_CD_CFG.EN, 0)]).rd F.FRP_CD_CFG.EN = 0 ∧
    (let s := on [(F.FRP_CD_STAT.LOCK, 1)]
     let c := { s.cord with at_ := s.now - 1, psi := [] }
     s.rd F.FRP_CD_CFG.EN = 1 ∧ s.cordLock = true ∧ s.refServed = true ∧ [r] ≠ [] ∧
       (refRun 0 0 100 true true [{ r with ovr := true }] c).2.2.2.map (·.2) = [false]) ∧
    (refRun 0 0 100 true false [r] { Cordonnet.idle with clean := 1023 }).2.1 = true ∧ (on []).cordLock = false ∧
    (let s := serving [(F.FRP_CD_CFG.EN, 1), (F.FRP_CD_STAT.LOCK, 1), (roleFld 12, 0xF)]
     s.rd F.FRP_CD_CFG.EN = 1 ∧ s.cordLock = true ∧ s.refServed = false) ∧
    (let s := flying { das with verdict := some .good }
     (s.cmt .a).nextFor 0 = some { das with verdict := some .good } ∧ s.cmState .a ≠ cmIdle ∧
       0 < (s.wr (F.SHOT_GSTAT.NCH_ACT 0) 1).rd (F.SHOT_GSTAT.NCH_ACT 0) ∧ s.leaveAt .a 0 das ≤ s.now ∧ s.intrusiveAt = none ∧ das.pulse = none) ∧
    (let p : Pulse := {
       tL := 0, w := 100, fMHz := 100, amp := 0, shape := 0, roll := 0, coded := false, chips := 1, code := 0, ofsI := 0, ofsQ := 0,
       qgain := 0, qphase := 0 }
     ({ das with pulse := some p }).pulse = some p) ∧
    (let s := (flying das).wr (F.FRP_CFG.POLMODE 0) 3
     (loseFunc 0 s).noWeight 0 = true ∧ ((loseFunc 0 s).cmt .a).slots = [das] ∧ das.launched = true ∧ das.verdict = none) ∧
    (flying { das with kind := .dark }).cmState .a ≠ cmIdle := by decide +kernel

theorem witness_VerdictsAndReplay :
    let judged (sl : Slot) (l : List (Fld × Nat)) : State :=
      { ((acq Sched.idle).wrs ((F.FRP_CD_CFG.EN, 0) :: l)).setCmt .a { Commit.idle with slots := [sl], rounds := [{ round0 with low := some false }] } with now := 1_000_000 }
    let good := { das with complete := true }
    let bad := { das with causes := causeLowRnd }
    let part := { good with causes := causeSpan, spanSeen := true }
    (((judged good []).cmt .a).slots.find? (fun q => (judged good []).judgement .a false q != .none_) = some good ∧
      (judged good []).judgement .a false good = .final ∧ (judged good []).knownCauses .a good = 0) ∧
    (((judged part []).cmt .a).slots.find? (fun q => (judged part []).judgement .a false q != .none_) = some part ∧
      (judged part []).judgement .a false part = .final ∧ (judged part []).knownCauses .a part ≠ 0) ∧
    (((judged bad []).cmt .a).slots.find? (fun q => (judged bad []).judgement .a false q != .none_) = some bad ∧
      (judged bad []).judgement .a false bad = .bad) ∧
    (∀ sl ∈ (up.cmt .a).slots, up.judgement .a false sl = .none_) ∧
    (let s := (acq Sched.idle).setCmt .a { Commit.idle with replay := some (0, 0) }
     (s.cmt .a).replay = some (0, 0) ∧ (s.cmt .a).backlog 0 ≤ (s.cmt .a).ran) ∧ (up.cmt .a).replay = none ∧
    mapWf (fun _ => emptyBobbin) up.ground.bobs = true := by decide +kernel

theorem witness_FilterSettings :
    wordField 4 1 (up.reg (R.FRP_CFG 0) ^^^ 0x10) ≠ wordField 4 1 (up.reg (R.FRP_CFG 0)) ∧
    (wordField 4 1 (up.reg (R.FRP_CFG 0) ||| 0x3F00_0000) = wordField 4 1 (up.reg (R.FRP_CFG 0)) ∧
      wordField 0 2 (up.reg (R.FRP_CFG 0) ||| 0x3F00_0000) = wordField 0 2 (up.reg (R.FRP_CFG 0)) ∧
      49 < wordField 24 6 (up.reg (R.FRP_CFG 0) ||| 0x3F00_0000)) ∧
    wordField 24 6 (up.reg (R.FRP_CFG 0)) ≤ 49 ∧
    (cfgOk 0 = false ∧ cfgOk 1 = true ∧ up.anyAcquiring = false ∧ up.cmState .a = cmIdle) ∧
    (st [(F.CMT_STAT.STATE 0, cmDrain)]).cmState .a ≠ cmIdle ∧ (47 : Fin 64).val < 48 := by decide +kernel

theorem witness_TemperatureSensing :
    let with_ (d : Dts) : State := { (acq Sched.idle) with dts := ⟨d, Dts.idle⟩ }
    let p : Period := { good := 0, bad := 0, sums := sums0, first := 0, last := 0, startAt := 0, startTs := 0 }
    let r := producerRecord 3 0 0 0 0 0 [] up
    (let s := with_ { Dts.idle with traces := [raman0] }
     (s.dt .a).traces.find? (fun q => q.sums.isNone) = some raman0 ∧
       (s.ramanTimes 0 raman0).2 + 56 ≤ ({ s with now := 10 + s.rd (F.DTS_RLRP.DELAY 0) + 55 }).now + 1) ∧
    ((with_ Dts.idle).role (asFunc 0) = 0xF ∨ ((with_ Dts.idle).wr (roleFld (asFunc 0)) 0xF).role (asFunc 0) = 0xF) ∧
    (let s := { with_ { Dts.idle with period := some p, run := true } with now := 0x1_0000_0000_0000_0000 }
     s.dtsDual = false ∧ (s.dt .a).period = some p ∧ (s.dt .a).run = true ∧ p.startAt + s.dtsTimeout 0 ≤ s.now) ∧
    (let s := (with_ { Dts.idle with out := [(0, r), (0, r)] }).wr (F.GND_BCFG.QUOTA 0) 1
     let t := s.wr (F.DTS_BOB.RAW 0) 0
     (t.dt .a).out = (0, r) :: [(0, r)] ∧ [(0, r)] ≠ [] ∧ 0 ≤ t.now ∧ 0 = t.rd (F.DTS_BOB.RAW 0) ∧
       bobPages (t.bob 0) + recPages r ≤ t.rd (F.GND_BCFG.QUOTA 0)) ∧
    ((with_ Dts.idle).dt .a).out = [] ∧ ((with_ { Dts.idle with out := [(1, r)] }).dt .a).out = (1, r) :: [] ∧ (with_ Dts.idle).now < 1 ∧
    (let t := { raman0 with sums := some sums0 }
     let s := (with_ { Dts.idle with period := some p }).wrs [(F.FRP_CD_CFG.EN, 0), (roleFld (asFunc 0), 8), (roleFld (stFunc 0), 9)]
     (s.dt .a).period = some p ∧ t.sums = some sums0 ∧ ({ t with bad := true }).bad = true ∧
       ¬ (t.bad = true ∨ s.ramanSpoilt 0 (s.ramanTimes 0 t).1 (s.ramanTimes 0 t).2 = true) ∧ p.good + 1 < s.dtsAvg 0) ∧
    (wordField 0 16 (49999 : Word) < 50000 ∧ 50000 ≤ wordField 0 16 (50000 : Word)) := by decide +kernel
/-! ## Witnesses: the management channel -/

/-- Port 0 is enabled, up and not protected. -/
def ported (s : State) : State := s.wrs [(F.NET_PCFG.EN 0, 1), (F.NET_PSTAT.LINK 0, 1), (F.NET_PCFG.MSEC 0, 0)]

def req (b : List Byte) : Request := { port := 0, v6 := false, src := 0xC0A8_0001, sport := 5000, bytes := b }

theorem witness_MgmtResponse :
    65535 < 65536 ∧ (req []).port < 2 ∧ (ported up).resolved 0 false 0xE000_0001 = true ∧ (ported up).resolved 0 false 0xC0A8_0001 = false ∧
    (((ported up).modPort 0 (fun p => { p with
        ip4 := some { addr := 0xC0A8_0002, pfx := 24, gw := 0 },
        hops := [{ v6 := false, addr := 0xC0A8_0001, mac := some 1, asked := 0, refresh := 0, failed := false }] })).resolved
      0 false 0xC0A8_0001) = true ∧ Status.auth ≠ .ok := by decide +kernel

theorem witness_MgmtReadWrite :
    let q (b : List Byte) : Option Request := (asks b up).net.queue.head?
    let rd (n : Nat) := dg 1 0 n []
    let wr (n : Nat) := dg 2 0 n (List.replicate n 1)
    (q (rd 1) = some (req (rd 1)) ∧ dgOp (rd 1) = 1 ∧ 1 ≤ dgCount (rd 1) ∧ dgCount (rd 256) ≤ 256 ∧ dgCount (rd 1) = 1) ∧
    (dgOp (wr 1) = 2 ∧ 1 ≤ dgCount (wr 1) ∧ dgCount (wr 256) = 256 ∧ dgWords (wr 1) = [1]) ∧
    (dgCount (rd 0) = 0 ∧ 256 < dgCount (rd 257) ∧ dgOp (rd 257) = 1) ∧
    (dgCount (wr 0) = 0 ∧ dgOp (wr 0) = 2) ∧ up.net.prog = none ∧
    (let g : Progress := { req := req (rd 2), auth := none, addr := 4, left := 1, words := [0], completed := 0 }
     (up.setProg (some g)).net.prog = some g ∧ dgOp g.req.bytes = 1 ∧ dgOp ({ g with req := req (wr 2) }).req.bytes = 2) := by decide +kernel

theorem witness_MgmtOtherRequests :
    let c (code : Nat) (ws : List Word) : List Byte := dg 3 code ws.length ws
    let asked (b : List Byte) (s : State) : State × Request := (asks b s, req b)
    let acts (s : State) (code : Nat) (ws : List Word) : State := acting (asked (c code ws) s).1 (asked (c code ws) s).2
    ((asks (c 8 []) up).net.queue.head? = some (req (c 8 [])) ∧ dgOp (c 8 []) = 3 ∧ cmdKnown (dgAddr (c 8 [])) = false ∧
      dgCount (c 8 []) ≤ 256) ∧
    ((asks (c 3 []) up).net.queue.head? = some (req (c 3 [])) ∧ isCmd 3 (c 3 []) = true ∧ isCmd 4 (c 4 []) = true ∧
      isCmd 7 (c 7 []) = true ∧ dgCount (c 3 []) = 0) ∧
    up.net.queue = [] ∧ up.net.prog = none ∧
    (up.setProg (some { req := req [], auth := none, addr := 0, left := 1, words := [], completed := 0 })).net.prog.isSome = true ∧
    ((asks (c 6 [0]) up).net.queue.head? = some (req (c 6 [0])) ∧ isCmd 6 (c 6 [0]) = true ∧ 1 ≤ dgCount (c 6 [0]) ∧
      dgCount (c 6 [0]) ≤ 256 ∧ (acts up 6 [0]).boot.image = none) ∧
    ((acts ready 6 [0xE]).boot.image ≠ none ∧ (wordAt (dgWords (c 6 [0xE])) 0).toNat = 0xE ∧
      (acts (ready.wr (F.SLC_STAT.MODE 14) slFenced) 6 [0xE]).rd (F.SLC_STAT.MODE 14) = slFenced) ∧
    ((wordAt (dgWords (c 6 [0x40])) 0).toNat = 0x40 ∧
      (acts (ready.wr (F.LANE_STAT.MODE 32) laneTest) 6 [0x40]).laneMode 32 = laneTest) ∧
    ((acts (ready.wrs [(F.LANE_STAT.MODE 32, laneActive), (F.HLTH_LANE.SPARE, 0)]) 6 [0x40]).laneMode 32 = laneActive ∧
      (acts (ready.wrs [(F.LANE_STAT.MODE 32, laneActive), (F.HLTH_LANE.SPARE, 0)]) 6 [0x40]).spareLane ≠ 32) ∧
    (let v := acts (serving []) 6 [0]
     v.rd (F.SLC_STAT.MODE 0) ≠ slFenced ∧ v.rd (F.SLC_STAT.MODE 0) ≠ slTest ∧ v.slices.cal = none ∧ v.rd (F.SLC_STAT.FUNC 0) ≠ 0xF ∧
       v.spareReady = true ∧ v.spareSlice ≠ 0 ∧ v.roundsOf (v.rd (F.SLC_STAT.FUNC 0)) ≠ 2 ∧ v.rd (F.SLC_STAT.FUNC 14) = 0xF ∧
       v.rd (F.SLC_STAT.MODE 14) ≠ slTest ∧ (v.wr (F.SLC_STAT.MODE 14) slCal).spareReady = false) ∧
    ((wordAt (dgWords (c 6 [0x51])) 0).toNat - 0x50 ≠ (acts (ready.wr F.HK_STAT.ACTIVE 0) 6 [0x51]).hkActive ∧
      (wordAt (dgWords (c 6 [0x50])) 0).toNat - 0x50 = (acts (ready.wr F.HK_STAT.ACTIVE 0) 6 [0x50]).hkActive ∧
      (acts (ready.wr F.HK_STAT.IDLEST ihFenced) 6 [0x50]).idleSt = ihFenced ∧ (acts (ready.wr F.HK_STAT.IDLEST 0) 6 [0x50]).idleSt = 0) := by decide +kernel

theorem witness_MgmtCommands :
    let c (code : Nat) (ws : List Word) : List Byte := dg 3 code ws.length ws
    let ok (code args : Nat) (ws : List Word) : Prop := commanded (asks (c code ws) up) (req (c code ws)) code args
    ok 1 0 [] ∧ ok 2 0 [] ∧ ok 3 1 [3] ∧ ok 4 1 [3] ∧ ok 5 0 [] ∧ ok 7 1 [1] ∧ ok 7 1 (0 :: List.replicate 12 5) ∧
    ((acting (asks (c 2 []) up) (req (c 2 []))).rd F.SEC_STAT.DRBGERR = 0 ∧
      (acting (asks (c 2 []) (st [(F.SEC_STAT.DRBGERR, 1)])) (req (c 2 []))).rd F.SEC_STAT.DRBGERR = 1) ∧
    (dgWords (c 7 [1]) = [1] ∧ dgWords (c 7 (0 :: List.replicate 12 5)) = 0 :: List.replicate 12 5) := by
  unfold commanded; decide +kernel

theorem witness_Transfers :
    let c (code : Nat) (ws : List Word) : List Byte := dg 3 code ws.length ws
    let ok (code args : Nat) (ws : List Word) : Prop := commanded (asks (c code ws) up) (req (c code ws)) code args
    let u (tr : Option Transfer) (l : List (Fld × Nat)) (code : Nat) (ws : List Word) : State :=
      acting (asks (c code ws) ((st l).modFlash (fun f => { f with transfer := tr }))) (req (c code ws))
    let tr (d n : Nat) (ops : Nat) : Transfer := { dest := d, length := 8, words := List.replicate n 0, ops := ops }
    (ok 0x10 2 [1, 33554432] ∧ (u none [(F.SYS_FLASH.MODE, 1), (F.SYS_IMG.RUN, 0)] 0x10 [1, 33554432]).flash.transfer = none ∧
      (u none [(F.SYS_FLASH.MODE, 1), (F.SYS_IMG.RUN, 0)] 0x10 [1, 33554432]).rd F.SYS_FLASH.MODE ≠ 0 ∧
      1 ≠ (u none [(F.SYS_FLASH.MODE, 1), (F.SYS_IMG.RUN, 0)] 0x10 [1, 33554432]).rd F.SYS_IMG.RUN ∧
      (wordAt (dgWords (c 0x10 [1, 33554432])) 1).toNat ≤ 33_554_432) ∧
    (ok 0x10 2 [2, 1048576] ∧ (wordAt (dgWords (c 0x10 [2, 1048576])) 0).toNat % 4 = 2 ∧
      (wordAt (dgWords (c 0x10 [2, 1048576])) 1).toNat ≤ 1_048_576) ∧
    (ok 0x11 1 [4, 9] ∧ (u (some (tr 2 1 0)) [] 0x11 [4, 9]).flash.transfer = some (tr 2 1 0) ∧
      (wordAt (dgWords (c 0x11 [4, 9])) 0).toNat = 4 * (tr 2 1 0).words.length ∧
      4 * ((tr 2 1 0).words.length + ((dgWords (c 0x11 [4, 9])).drop 1).length) ≤ (tr 2 1 0).length) ∧
    (ok 0x12 0 [] ∧ (u (some (tr 2 1 0)) [] 0x12 []).flash.transfer = some (tr 2 1 0) ∧ 4 * (tr 2 1 0).words.length ≠ (tr 2 1 0).length) ∧
    ((u (some (tr 1 2 0)) [] 0x12 []).flash.transfer = some (tr 1 2 0) ∧ 4 * (tr 1 2 0).words.length = (tr 1 2 0).length ∧
      (tr 1 2 0).dest < 2) ∧
    (ok 0x13 0 [] ∧ (u (some (tr 2 1 0)) [] 0x13 []).flash.transfer ≠ none) ∧
    (let s := up.modFlash (fun f => { f with transfer := some (tr 2 1 1), jobs := [.transfer] })
     s.flash.transfer = some (tr 2 1 1) ∧ (tr 2 1 1).ops ≠ 0 ∧ s.flashTurn .transfer = true ∧
       (up.modFlash (fun f => { f with jobs := [.log, .transfer] })).flashTurn .transfer = false ∧ (tr 2 1 0).ops = 0) := by
  unfold commanded; decide +kernel

/-! ## Witnesses: lane instructions -/

theorem witness_LaneMultiplyAccumulate :
    let m : FmtM := { src := 1, sb := 0, acd := 3, pa := 7, ma := 0, pb := 0, mb := 3, cp := 6, mc := 1 }
    let q : FmtM := { src := 1, sb := 1, acd := 3, pa := 7, ma := 0, pb := 0, mb := 0, cp := 7, mc := 0 }
    let a : FmtA := { acd := 3, acs := 0, sh := -32, mem := 1, pt := 7, mod := 3, d := 7, mask := 15 }
    (m.wf = true ∧ q.wf = true ∧ a.wf = true) ∧ ((lane 0 id).laneCore 32).shaped ∧ (lane 0 id).goesOn 32 ∧
    ((lane 0 id).laneCore 32).sound ∧ ((lane 0 id).laneCore 32).err = false ∧ ((lane 0 id).wr F.HLTH_LANE.SPARE 0).spareLane ≠ 32 ∧
    (let c := (lane 0 (fun c => { c with ac := [8, 0, 0, 0], res := [2, 0, 0, 0] })).laneCore 32
     (c.accRes 0 + c.accRes 1) % 7 ≠ res7 (c.acc 0 + c.acc 1) ∧ (((c.accRes 0 : Int) - c.accRes 1) % 7 : Int) ≠ res7 (c.acc 0 - c.acc 1) ∧
       c.accRes 0 * 2 ^ (31 : Nat) % 7 ≠ res7 (scl (c.acc 0) 31)) ∧
    ((m.pa ≠ m.pb ∨ m.ma = 0 ∧ m.mb = 0) ∧ (q.pa ≠ q.cp ∨ q.ma = 0 ∧ q.mc = 0)) ∧
    (∀ op ∈ [1, 2, 3, 4, 5, 6, 7, 8, 9], laneReady 32 (encM op m) (lane (encM op m) id) = true) ∧
    (∀ op ∈ [0x0A, 0x0B, 0x0C, 0x0D, 0x0E, 0x0F, 0x10, 0x11], laneReady 32 (encA op a) (lane (encA op a) id) = true) := by
  unfold LaneCore.shaped State.goesOn LaneCore.sound; decide +kernel

theorem witness_LaneTransfers :
    let l : FmtL := { d := 7, pt := 7, mod := 3 }
    let i : FmtI := { dd := 7, da := 0, imm := -524288 }
    let h : FmtI := { dd := 7, da := 0, imm := 65535 }
    let r : FmtR := { dd := 7, da := 0, db := 0, i := 0, shi := 0 }
    let s : FmtS := { dir := 0, d := 7, sreg := 18 }
    let p : FmtP := { reg := 15, imm := -8192 }
    (l.wf = true ∧ i.wf = true ∧ h.wfHigh = true ∧ r.wf = true ∧ s.wf = true ∧ p.wf = true) ∧
    (∀ op ∈ [0x12, 0x13, 0x14, 0x15, 0x16], laneReady 32 (encL op l) (lane (encL op l) id) = true) ∧
    (laneReady 32 (opWord 0 0) (lane (opWord 0 0) id) = true ∧ laneReady 32 (encI 0x17 i) (lane (encI 0x17 i) id) = true ∧
      laneReady 32 (encI 0x18 h) (lane (encI 0x18 h) id) = true ∧ laneReady 32 (encR 0x19 r) (lane (encR 0x19 r) id) = true ∧
      laneReady 32 (encS 0x1A s) (lane (encS 0x1A s) id) = true ∧ laneReady 32 (encP 0x1B p) (lane (encP 0x1B p) id) = true ∧
      laneReady 32 (encP 0x1C p) (lane (encP 0x1C p) id) = true) := by decide +kernel

theorem witness_LaneArithmetic :
    let r : FmtR := { dd := 7, da := 6, db := 5, i := 1, shi := -32 }
    let i : FmtI := { dd := 7, da := 6, imm := 524287 }
    (r.wf = true ∧ i.wf = true) ∧
    (∀ op ∈ [0x1D, 0x1E, 0x1F, 0x20, 0x21, 0x22, 0x23, 0x24, 0x25, 0x26, 0x27], laneReady 32 (encR op r) (lane (encR op r) id) = true) ∧
    (∀ op ∈ [0x28, 0x29], laneReady 32 (encI op i) (lane (encI op i) id) = true) := by decide +kernel

theorem witness_LaneNumbers :
    (63 < 64) ∧ (2 * (scl 1 (-(1 : Int)) * 2 ^ 1 - 1).natAbs = 2 ^ 1) ∧ emptyLogical.core.shaped ∧ 7 < 8 ∧
    (∀ m ∈ [0, 1, 2, 3], ({ emptyLogical.core with ptcfg := m * 4 ^ 7 }).ptcfg / 4 ^ 7 % 4 = m) ∧ 8191 < 8192 := by
  unfold LaneCore.shaped; decide +kernel

theorem witness_LaneControl :
    let b (c t : Nat) : FmtB := { cond := c, tgt := t }
    let lp (n : Nat) : FmtLP := { cs := 0, cnt := n, da := 0, last := 0 }
    let lr : FmtLP := { cs := 1, cnt := 0, da := 7, last := 0 }
    let deep (k : Nat) (c : LaneCore) : LaneCore := { c with stack := List.replicate k 0 }
    let nest (k : Nat) (c : LaneCore) : LaneCore := { c with loops := List.replicate k ⟨0, 1, 1⟩ }
    (laneReady 32 (encB 0x2A (b 0 1)) (lane (encB 0x2A (b 0 1)) id) = true ∧ condHolds 0 0 = true ∧
      1 < ((lane (encB 0x2A (b 0 1)) id).laneOf 32).prog.length) ∧
    (condHolds 1 0 = false ∧ (lane (encB 0x2A (b 1 1)) id).goesOn 32) ∧
    (laneReady 32 (encB 0x2B (b 0 1)) (lane (encB 0x2B (b 0 1)) (deep 3)) = true ∧
      ((lane 0 (deep 3)).laneCore 32).stack.length < 4 ∧ 4 ≤ ((lane 0 (deep 4)).laneCore 32).stack.length) ∧
    (laneReady 32 (encB 0x2C (b 0 0)) (lane (encB 0x2C (b 0 0)) (deep 1)) = true ∧ ((lane 0 (deep 1)).laneCore 32).stack = [0] ∧
      ((lane 0 id).laneCore 32).stack = []) ∧
    ((lp 8191).wf = true ∧ lr.wf = true ∧ laneReady 32 (encLP 0x2D (lp 0)) (lane (encLP 0x2D (lp 0)) id) = true ∧
      ((((lane 0 id).laneCore 32).dreg 7).toInt ≤ 0 ∧ lr.last + 1 < ((lane 0 id).laneOf 32).prog.length) ∧
      ((lane 0 (nest 1)).laneCore 32).loops.length < 2 ∧ 2 ≤ ((lane 0 (nest 2)).laneCore 32).loops.length ∧
      ((lane 0 id).laneCore 32).pc + 1 < ((lane 0 id).laneOf 32).prog.length) := by unfold State.goesOn; decide +kernel

theorem witness_LaneFallThrough :
    (4 ≠ (⟨0, 5, 1⟩ : Loop).last ∧ 5 = (⟨0, 5, 1⟩ : Loop).last ∧ (⟨0, 5, 1⟩ : Loop).left ≤ 1 ∧ 1 < (⟨0, 5, 2⟩ : Loop).left) ∧
    (laneReady 32 (opWord 0 0) (lane 0 (fun c => { c with pc := 1 })) = true ∧ ¬ (lane 0 (fun c => { c with pc := 1 })).goesOn 32) := by
  unfold State.goesOn; decide +kernel

/-- `lane` with input port 0 and output port 0 bound to bobbin 126, whose quota is `quota`. -/
def bound (w : Word) (f : LaneCore → LaneCore) (quota policy : Nat) (recs : List Stored) : State :=
  ((lane w f).setLogical 3 { emptyLogical with prog := [w, 0], core := f emptyLogical.core, inCfg := [0x807E_0000], outCfg := [0x8000_007E] }).wrs
    [(F.GND_BCFG.QUOTA 126, quota), (F.GND_BCFG.POLICY 126, policy)] |>.setBob 126 { emptyBobbin with recs := recs, next := recs.length }

theorem witness_LaneStreams :
    let f (memop : Nat) : FmtT := { port := 0, memop := memop, mem := 1, pt := 7, mod := 3, d := 7 }
    let g : FmtT := { port := 0, memop := 0, mem := 0, pt := 0, mod := 0, d := 4 }
    let out (n : Nat) (c : LaneCore) : LaneCore := { c with outs := setAt c.outs 0 { emptyOut with words := List.replicate n 0 } }
    let r := producerRecord 1 0 0 0 0 0 [] up
    let held : Stored := { idx := 0, data := r, pages := 1, st := .queued, tags := noTags, lane := none, freed := 0, tb := 0, frames := [0] }
    ((f 0).wf = true ∧ (f 1).wf = true ∧ g.wf = true ∧ ((lane 0 id).laneCore 32).shaped ∧ ((lane 0 id).laneCore 32).ins.length = 4 ∧
      ((lane 0 id).laneCore 32).outs.length = 4 ∧ (lane 0 id).goesOn 32) ∧
    (laneReady 32 (encT 0x2E (f 1)) (lane (encT 0x2E (f 1)) id) = true ∧ laneReady 32 (encT 0x2F (f 0)) (lane (encT 0x2F (f 0)) id) = true) ∧
    (let s := bound (encT 0x30 g) id 0 0 []
     laneReady 32 (encT 0x30 g) s = true ∧ (s.laneOf 32).inBob 0 = some 126 ∧ s.portNext (s.laneOf 32) 0 126 0 = none ∧ s.solGroup 32 = none ∧
       ckDue (s.governs (s.laneOf 32)) ⟨1, 0⟩ (s.laneOf 32) = false ∧ ckDue 0 ⟨1, 0⟩ (s.laneOf 32) = true) ∧
    (let s := bound (encT 0x30 g) id 0 0 [held]
     laneReady 32 (encT 0x30 g) s = true ∧ (s.laneOf 32).inBob 0 = some 126 ∧ s.portNext (s.laneOf 32) 0 126 0 = some held) ∧
    (let s := bound (encT 0x31 g) (out 3) 1 0 []
     laneReady 32 (encT 0x31 g) s = true ∧ (s.laneOf 32).outBob 0 = some 126 ∧
       (s.laneOf 32).released.getD 0 0 ≤ (((s.laneCore 32).outs.getD 0 emptyOut).sent) ∧ (s.laneOf 32).bumps = [] ∧
       bobPages (s.bob 126) + 1 ≤ s.rd (F.GND_BCFG.QUOTA 126)) ∧
    (let s := bound (encT 0x31 g) (out 3) 0 1 []
     s.rd (F.GND_BCFG.POLICY 126) = 1 ∧ s.rd (F.GND_BCFG.QUOTA 126) < bobPages (s.bob 126) + 1 ∧
       (bound (encT 0x31 g) (out 3) 0 0 []).rd (F.GND_BCFG.POLICY 126) ≠ 1 ∧ (126 : Nat) ≠ 127 ∧
       s.defers (s.laneOf 32) 0 4 = true ∧ (bound (encT 0x31 g) (out 3) 1 0 []).defers ((bound (encT 0x31 g) (out 3) 1 0 []).laneOf 32) 0 4 = false) ∧
    (let q : Sol := { k := 1, m := 0, last := true, lnC := none, data := r }
     let group (d : Dts) (recs : List Stored) : State :=
       let s := bound (encT 0x30 g) id 1 0 recs
       ((s.setLogical 3 { s.laneOf 32 with prog := [] }).wrs [(F.DTS_CFG.EN 0, 1), (F.DTS_CFG.LL 0, 3), (F.DTS_BOB.OUT 0, 126)]).setDt .a d
     (let s := group Dts.idle [held]
      s.solGroup 32 = some .a ∧ (s.laneOf 32).inBob 0 = some 126 ∧ (s.dt .a).got.at 0 = none ∧ s.portNext (s.laneOf 32) 0 126 0 = some held ∧
        (s.dt .a).solAt = none ∧ s.dtsDual = false) ∧
     (group Dts.idle []).portNext ((group Dts.idle []).laneOf 32) 0 126 0 = none ∧
     (let s := group { Dts.idle with solAt := some 0, got := ⟨some (1, 0), none⟩, sols := [q] } []
      s.solGroup 32 = some .a ∧ (s.dt .a).solAt = some 0 ∧ 0 ≤ s.now ∧
        (s.dt .a).sols.find? (fun q => some (q.k, q.m) == (s.dt .a).got.a) = some q ∧
        bobPages (s.bob (s.rd (F.DTS_BOB.OUT (s.dtsReg 0)))) + recPages q.data ≤ s.rd (F.GND_BCFG.QUOTA (s.rd (F.DTS_BOB.OUT (s.dtsReg 0))))) ∧
     ((group { Dts.idle with solAt := some 1 } []).dt .a).solAt = some 1 ∧ (group Dts.idle []).now < 1) := by
  unfold LaneCore.shaped State.goesOn; decide +kernel

theorem witness_LaneStreams_limit :
    (List.replicate 16379 (0 : Word)).length < 16380 ∧ 16380 ≤ (List.replicate 16380 (0 : Word)).length := by
  rw [List.length_replicate, List.length_replicate]; decide

theorem witness_LaneShapeKept :
    laneWord (.add 32 { dd := 7, da := 0, db := 1, i := 0, shi := 0 }) =
      some (32, encR 0x1D { dd := 7, da := 0, db := 1, i := 0, shi := 0 }) ∧
    (Instr.add 32 { dd := 7, da := 0, db := 1, i := 0, shi := 0 }).wf = true ∧
    (∀ p ∈ (lane 0 id).lanes.ll, p.2.core.shaped ∧ ∀ k ∈ p.2.cks, k.core.shaped) ∧ emptyLogical.core.shaped := by
  unfold LaneCore.shaped; decide +kernel

theorem witness_LaneCodeRoundTrip :
    laneDecode 32 0x0C04_0480 ≠ none ∧ encodes 0x0C04_0480 = true ∧
    (Instr.bmpy 32 { src := 0, sb := 0, acd := 0, pa := 0, ma := 2, pb := 0, mb := 0, cp := 2, mc := 1 }).wf = true := by decide +kernel
/-! ## Witnesses: housekeeping, zones and loops -/

def hk (l : List (Fld × Nat)) (f : Hk → Hk) : State := (st l).modHk f
/-- The housekeeping unit at 10 s, its image's sequences in force. -/
def hkLate (l : List (Fld × Nat)) (f : Hk → Hk) : State := { (hk ((F.HK_CTL.MODE, 0) :: l) (fun h => f { h with rom := false })) with now := 10_000_000_000 }

theorem witness_HkConversions :
    (let s := hkLate [(F.HK_RCFG.LEN, 1), (F.HK_RCFG.SRC, 3), (F.HK_ICFG.LEN, 1), (F.HK_ICFG.SRC, 3)] (fun h => { h with trigs := [(3, 0)] })
     s.hk.trigs = (3, 0) :: [] ∧ hkEdge 0 ≤ s.now ∧ s.rd F.HK_RCFG.LEN ≠ 0 ∧ s.hkTable = false ∧ s.rd F.HK_RCFG.SRC = 3 ∧
       s.rd F.HK_ICFG.LEN ≠ 0 ∧ s.rd F.HK_ICFG.SRC = 3 ∧ s.passRuns true (hkEdge 0) = false ∧
       (s.modHk (fun h => { h with calIntr := true, calAt := some 0 })).passRuns false (hkEdge 0) = true) ∧
    (up.now < up.hk.timerAt + max 1 (up.rd F.HK_TIMER.PERIOD) * 50 ∧
      (hkLate [(F.HK_RCFG.SRC, 2), (F.HK_RCFG.LEN, 1)] id).rd F.HK_RCFG.SRC = 2) ∧
    (let s := hkLate [(F.HK_TIMER.PERIOD, 0), (F.HK_CTL.MONEN, 1)] id
     s.hk.timerAt + max 1 (s.rd F.HK_TIMER.PERIOD) * 50 ≤ s.now ∧ s.hk.monDue ≤ s.now ∧ s.rd F.HK_CTL.MONEN = 1) ∧
    (let s := { hkLate [] id with sensors := [(7, { emptySensor with check := some 0 })] }
     (s.sensor 7).check = some 0 ∧ (s.sensor 7).placed < s.checkCount 7 ∧ 0 + 62_500 * (s.sensor 7).placed ≤ s.now) ∧
    (hkLate [] id).nextConv = none ∧
    ((hk [] (fun h => { h with rom := false, reg := [⟨0, 0⟩] })).nextConv.any (fun c => decide
      ((hk [] (fun h => { h with rom := false, reg := [⟨0, 0⟩] })).now < c.sample + 400))) ∧
    (let s := hkLate [] (fun h => { h with pds := [(0, .b, 5)] })
     s.nextConv.any (fun c => decide (c.sample + 400 ≤ s.now ∧ c.what = .photodiode .b 5))) ∧
    (let s := hkLate [] (fun h => { h with placed := [(0, .monitor 6)] })
     s.nextConv.any (fun c => decide (c.sample + 400 ≤ s.now ∧ c.what = .monitor 6))) ∧
    (let s := hkLate [(F.HK_RSEQ.INPUT 0, 8)] (fun h => { h with reg := [⟨0, 0⟩] })
     s.nextConv.any (fun c => decide (c.sample + 400 ≤ s.now ∧ c.what = .regular 0 ∧ c.input = 8)) ∧ s.hk.eyelet = none ∧
       s.hk.eyeTail.contains 8 = false ∧ s.hk.calSlots.contains 0 = false) ∧
    (let s := hkLate [(F.HK_ISEQ.INPUT 7, 23)] (fun h => { h with inj := [⟨7, 0⟩] })
     s.nextConv.any (fun c => decide (c.sample + 400 ≤ s.now ∧ c.what = .injected 39 ∧ c.input = 23))) ∧
    (let s := hkLate [] (fun h => { h with placed := [(0, .check 7)] })
     s.nextConv.any (fun c => decide (c.sample + 400 ≤ s.now ∧ c.what = .check 7))) := by decide +kernel

theorem witness_HkConverters :
    let at_ (n : Nat) (f : Hk → Hk) : State := hkLate [(F.HK_STAT.IDLEST, n), (F.HK_STAT.ACTIVE, 0)] f
    (let s := hkLate [(F.HK_CTL.REFSEL, 0)] id
     s.rd F.HK_CTL.REFSEL = 0 ∧ s.hk.refFrom + 2_000_000 ≤ s.now) ∧
    (let s := hkLate [(F.HK_CTL.REFSEL, 1)] id
     s.rd F.HK_CTL.REFSEL = 1 ∧ 200_000 ≤ 200_000 ∧ s.hk.refFrom ≤ s.now) ∧
    (2 ≤ (hkLate [(F.HK_CTL.REFSEL, 2)] id).rd F.HK_CTL.REFSEL) ∧
    ((st [(F.HK_CTL.REFSEL, 0)]).rd F.HK_CTL.REFSEL = 0 ∧ ¬ (st [(F.HK_CTL.REFSEL, 0)]).hk.refFrom + 2_000_000 ≤ (st []).now) ∧
    ((1 : Fin 2).val ≠ (at_ 2 id).hkActive ∧ (at_ 2 id).idleSt = 2) ∧ ((at_ 4 id).idleSt = 4 ∧ (0 : Fin 2).val = (at_ 4 id).hkActive) ∧
    ((at_ 1 id).idleSt = 1 ∧ ¬ ((at_ 3 id).idleSt = 1) ∧ (at_ 3 id).hk.calIntr = false ∧ (at_ 0 id).idleSt = 0) ∧
    ((at_ 0 (fun h => { h with calIntr := true, calAt := some 0 })).hk.calIntr = true) ∧
    (let s := hkLate [(F.HK_CAL.AUTOCAL, 1), (F.HK_CAL.PER, 1), (F.HK_STAT.IDLEST, 0)] (fun h => { h with lastCal := 0 })
     let t := { s with now := 60_000_000_000 }
     t.rd F.HK_CAL.AUTOCAL = 1 ∧ t.idleSt = 0 ∧ t.rd F.HK_CAL.PER ≠ 0 ∧
       t.hk.lastCal + t.rd F.HK_CAL.PER * 60_000_000_000 ≤ t.now ∧ (st [(F.HK_CAL.AUTOCAL, 0)]).rd F.HK_CAL.AUTOCAL = 0) ∧
    (let s := { (hk [] (fun h => { h with calAt := some 0 })) with now := 1_999_999 }
     s.hk.calAt = some 0 ∧ s.now < 0 + 2_000_000) ∧
    ((at_ 1 (fun h => { h with calAt := some 0 })).hk.calAt = some 0 ∧ 0 + 2_000_000 ≤ (at_ 1 id).now ∧ (at_ 1 id).hk.calIntr = false) ∧
    ((at_ 4 (fun h => { h with testAt := some 0 })).hk.testAt = some 0 ∧ (at_ 4 id).hk.calAt = none ∧
      (at_ 4 id).unitHeld (0x50 + (1 - (at_ 4 id).hkActive)) = false ∧ (at_ 4 id).hk.testAt = none) ∧
    ((at_ 2 id).hkBoundary = true ∧ (at_ 2 id).idleSt = 2 ∧ (at_ 0 (fun h => { h with resetReq := true })).hk.resetReq = true) ∧
    ((at_ 2 (fun h => { h with reg := [⟨1, 0⟩] })).wr F.HK_CTL.MODE 0).hkBoundary = false ∧
    (let s := hkLate [(F.HK_CAL.DT, 1)] (fun h => { h with calTemp := 200 })
     s.rd F.HK_CAL.DT ≠ 0 ∧ 100 * s.rd F.HK_CAL.DT ≤ ((0 : Int) - s.hk.calTemp).natAbs) := by decide +kernel

theorem witness_HkTestsAndSensors :
    let seq (l : List (Fld × Nat)) : State := hkLate ([(F.HK_RCFG.LEN, 1), (F.HK_RSEQ.INPUT 0, 5)] ++ l) id
    ((st [(F.HK_TEST.BUSY, 1)]).rd F.HK_TEST.BUSY = 1 ∧ (st [(F.HK_TEST.BUSY, 0)]).rd F.HK_TEST.BUSY = 0 ∧
      (63 : Fin 64).val ∉ (seq []).testable ∧ 5 ∈ (seq []).testable) ∧
    (let s := seq [(F.HK_TEST.TPER, 1), (F.HK_TEST.BUSY, 0)]
     s.rd F.HK_TEST.TPER ≠ 0 ∧ s.rd F.HK_TEST.BUSY = 0 ∧ s.hk.lastTest + s.rd F.HK_TEST.TPER * 10_000_000 ≤ s.now ∧ s.testable ≠ [] ∧
       s.hk.rotate ≤ 5) ∧
    (st [(F.HK_TEST.TPER, 0)]).rd F.HK_TEST.TPER = 0 ∧
    ((st [(F.SEN_EXC.EXON 7, 0)]).rd (F.SEN_EXC.EXON 7) = 0 ∧ wordField 11 1 (0x800 : Word) = 1) ∧
    (let s := { hkLate [(F.SEN_CFG.EN 7, 1), (F.SEN_CFG.CHKEN 7, 1)] id with sensors := [(7, { emptySensor with first := some 0 })] }
     (s.sensor 7).check = none ∧ s.rd (F.SEN_CFG.EN 7) = 1 ∧ s.rd (F.SEN_CFG.CHKEN 7) = 1 ∧ (s.sensor 7).first = some 0 ∧ 0 ≤ s.now) ∧
    (let s := { hkLate [(F.SEN_CFG.WIRE 7, 1)] id with sensors := [(7, { emptySensor with check := some 0, taken := 80, clipped := true })] }
     (s.sensor 7).check = some 0 ∧ 0 + 5_000_000 ≤ s.now ∧ s.checkCount 7 ≤ (s.sensor 7).taken ∧ (s.sensor 7).clipped = true) := by
  decide +kernel

def zoneRec (kind first : Nat) (w : Word) : Stored :=
  { idx := 0, data := producerRecord kind 0 first 0 0 1 [w] up, pages := 1, st := .queued, tags := noTags, lane := none,
    freed := 0, tb := 0, frames := [0] }
/-- Slot 3 of the alarm unit reads bobbin 126, which holds one record; fibre A acquires. -/
def zoned (r : Stored) (l : List (Fld × Nat)) : State :=
  ((acq Sched.idle).wrs ([(F.LOOP_ZSRC.EN3, 1), (F.LOOP_ZSRC.BOB3, 126), (F.SHOT_GSTAT.NCH_ACT 0, 499)] ++ l)).setBob 126
    { emptyBobbin with recs := [r], next := 1, readers := [(.alarmSlot 3, 0)] }

theorem witness_ZonesAndLoops :
    let z (l : List (Fld × Nat)) : State := zoned (zoneRec 4 1023 0x8000_0064) ([(F.LOOP_ZCFG0.EN 1023, 1), (F.LOOP_ZCFG1.COUNT 1023, 499),
      (F.LOOP_CTH0.W_ON 0, 100), (F.LOOP_CTH1.A_ON 0, 200), (F.LOOP_CTH1.A_OFF 0, 200), (F.LOOP_ZST.STATE 1023, 0)] ++ l)
    ((zoned (zoneRec 1 0 0) []).alarmBob 3 = some 126 ∧ (zoned (zoneRec 1 0 0) []).readerPos 126 (.alarmSlot 3) = some 0 ∧
      nextRecord ((zoned (zoneRec 1 0 0) []).bob 126) 0 false = some (zoneRec 1 0 0) ∧ (zoneRec 1 0 0).data.kind ≠ 4) ∧
    (let q := { z [] with now := 80 }
     (zoneRec 4 1023 0x8000_0064).freed + 80 ≤ q.now ∧ (z []).now < (zoneRec 4 1023 0x8000_0064).freed + 80 ∧
       ∀ j, j < 4 → (q.alarmNext j).all (fun p => decide (0 < p.2.freed ∨ (0 = p.2.freed ∧ 3 ≤ j))) = true) ∧
    (nextRecord ((z []).bob 126) 0 false = some (zoneRec 4 1023 0x8000_0064) ∧ (zoneRec 4 1023 0x8000_0064).data.payload[0]? = some 0x8000_0064 ∧
      (zoneRec 4 1023 0x8000_0064).data.h1.toNat + 0 < 1024) ∧
    (wordField 31 1 (0x8000_0064 : Word) = 1 ∧ (z []).rd (F.LOOP_ZCFG0.EN 1023) = 1 ∧ (z []).zoneFibre 1023 = .a ∧
      (z []).rd (F.CMT_STAT.STATE 0) ≠ 0 ∧
      (z []).rd (F.LOOP_ZCFG0.FIRST 1023) + (z []).rd (F.LOOP_ZCFG1.COUNT 1023) ≤ (z []).rd (F.SHOT_GSTAT.NCH_ACT 0)) ∧
    ((z []).zoneState 1023 = 0 ∧ (z []).zoneLevel 0 100 true = 1 ∧
      (z [(F.LOOP_CTIM.ON_CNT 0, 1)]).rd (F.LOOP_CTIM.ON_CNT 0) ≤ 0 + 1 ∧ 0 + 1 < (z [(F.LOOP_CTIM.ON_CNT 0, 2)]).rd (F.LOOP_CTIM.ON_CNT 0)) ∧
    (let q := z [(F.LOOP_ZST.STATE 1023, 2), (F.LOOP_CTH0.W_OFF 0, 100), (F.LOOP_CTIM.OFF_CNT 0, 1)]
     q.zoneState 1023 = 2 ∧ q.zoneLevel 0 100 true ≤ 2 ∧ q.zoneLevel 0 100 false < 2 ∧ q.rd (F.LOOP_CTIM.OFF_CNT 0) ≤ 0 + 1 ∧
       0 + 1 < (q.wr (F.LOOP_CTIM.OFF_CNT 0) 2).rd (F.LOOP_CTIM.OFF_CNT 0)) ∧
    (let q := z [(F.LOOP_ZST.STATE 1023, 1), (F.LOOP_CTH0.W_OFF 0, 100)]
     q.zoneState 1023 = 1 ∧ q.zoneLevel 0 100 true ≤ 1 ∧ 1 ≤ q.zoneLevel 0 100 false) ∧
    (let q := { z [(F.LOOP_CTIM.TMO 0, 1)] with now := 1_000_000 }
     q.rd (F.LOOP_ZCFG0.EN 1023) = 1 ∧ q.zoneState 1023 ≠ 3 ∧
       (q.zone 1023).at_ + q.rd (F.LOOP_CTIM.TMO (q.zoneClass 1023)) * 1_000_000 ≤ q.now) ∧
    (wordField 0 16 (1 : Word) ≠ (st [(F.LOOP_CUR1.I_A 7, 0)]).rd (F.LOOP_CUR1.I_A 7) ∧
      wordField 0 16 (0 : Word) = (st [(F.LOOP_CUR1.I_A 7, 0)]).rd (F.LOOP_CUR1.I_A 7)) := by decide +kernel

/-! ## Witnesses: network -/

def sec0 : Secure :=
  { cak := [], ckn := [], priority := 0, ssci := 0, saks := [(0, 0)], txPn := 1, rxPn := [], server := true, lastSeen := some 0, hello := 0 }
/-- Port 0 with addresses, under `mode` of NET_PCFG.MSEC. -/
def net (mode : Nat) (l : List (Fld × Nat)) : State :=
  (((ported up).wrs ([(F.NET_PCFG.MSEC 0, mode), (F.NET_PCFG.MTU 0, 1500), (F.CLK_STAT.NET_LOCK, 1)] ++ l)).modPort 0 (fun p => { p with
    ip4 := some { addr := 0xC0A8_0002, pfx := 24, gw := 0 }, ip6 := some { addr := 0xFE80 * 2 ^ 112 + 1, pfx := 64, gw := 0 }, sec := sec0 }))
def frame (sec : Option RxSec) (body : RxBody) : RxFrame := { fcs := true, len := 1500, vid := none, sec := sec, body := body }
def mka (pr : Nat) (sak : Option (Nat × Nat)) : MkaMsg := { valid := true, priority := pr, sci := 1, sak := sak }
def addr : AddrMsg := { answer := false, sender := 0xC0A8_0001, mac := 2, target := 0xC0A8_0002 }
def ptpOf (k : PtpKind) : PtpMsg := { transport := 0, domain := 0, sender := 9, seq := 1, at_ := 1000, kind := k }

theorem witness_LinksAndProtection :
    let s := net 0 []
    let q (m : Nat) (b : RxBody) : State := (net m []).modPort 0 (fun p => { p with mkaIn := match b with | .mka v => [v] | _ => [] })
    (s.rd F.CLK_STAT.NET_LOCK = 1 ∧ s.linkUp 0 = true ∧ (st [(F.CLK_STAT.NET_LOCK, 0)]).rd F.CLK_STAT.NET_LOCK = 0) ∧
    (let d := net 2 [(F.NET_PSTAT.LINK 0, 0), (F.NET_PCFG.FEC 0, 1)]
     d.rd (F.NET_PCFG.EN 0) = 1 ∧ d.linkUp 0 = false ∧ d.rd F.CLK_STAT.NET_LOCK = 1 ∧ 1_000_000 ≤ 1_000_000 ∧ ¬ 1_000_000 ≤ 999_999) ∧
    ((s.msec 0 = 0) ∧ s.rd (F.NET_PVLAN.VLAN 0) = 0 ∧ (frame none .other).len = s.rd (F.NET_PCFG.MTU 0) ∧ (frame none .other).body ≠ .pause) ∧
    ({ frame none .other with fcs := false }).fcs = false ∧
    ((net 1 []).msec 0 = 1 ∧ isEapol .other = false ∧ (net 1 []).secured 0 = true ∧ ∃ k ∈ ((net 1 []).port 0).sec.saks, k.1 = 0) ∧
    (((((net 1 []).port 0).sec.rxPn.find? (fun r => r.1 == 0)).map (·.2)).getD 1 ≤ 1 + ((net 1 []).port 0).window ∧
      ¬ ((((net 1 []).port 0).sec.rxPn.find? (fun r => r.1 == 0)).map (·.2)).getD 1 ≤ 0 + ((net 1 []).port 0).window) ∧
    (badSum (.udp false true 1 2 3 4 2 []) = true ∧ badSum (.arp addr) = false) ∧
    ((s.port 0).ip4.isSome = true ∧ (s.port 0).ip6.isSome = true ∧ s.ownAddr 0 false 0xC0A8_0002 = true) ∧
    ((net 0 [(F.CLK_TB_CTL.SRC, 1)]).ptpPort = some 0 ∧
      (ptpOf (.followUp 0 0)).transport = (net 0 [(F.NET_PTPCFG.TRANSPORT, 0)]).rd F.NET_PTPCFG.TRANSPORT) ∧
    ((net 0 [(F.NET_MGMT.EN, 1), (F.NET_MGMT.ACLEN, 0)]).rd F.NET_MGMT.EN = 1 ∧ dgGood (dg 1 0 1 []) = true ∧
      s.net.queue.length < 16 ∧ (net 0 [(F.NET_MGMT.ACLEN, 0)]).rd F.NET_MGMT.ACLEN = 0) ∧
    16 ≤ ((s.modNet (fun n => { n with queue := List.replicate 16 (req []) })).net.queue).length ∧
    (let f : RxFrame := frame none (.arp addr)
     f.fcs = true ∧ f.sec = none ∧ badSum f.body = false) ∧
    (let w : Out := .arpRequest 0
     let t := s.modPort 0 (fun q => { q with txq := [(none, w)] })
     (t.port 0).txAt ≤ t.now ∧ (t.port 0).txq ≠ [] ∧ t.mayCarry 0 w = true ∧ (t.wr (F.NET_PCFG.EN 0) 0).mayCarry 0 w = false ∧
       t.now < ({ t.port 0 with txAt := 4 }).txAt ∧ (s.port 0).txq = []) ∧
    ((net 1 []).rd (F.NET_PSTAT.PNEXH 0) = 0 ∧ 2 ^ 64 - 2 ^ 20 ≤ ({ sec0 with txPn := 2 ^ 64 - 2 ^ 20 }).txPn) ∧
    (((q 2 (.mka (mka 1 none))).port 0).mkaIn = mka 1 none :: [] ∧ (q 2 .other).msec 0 = 2 ∧ (sec0.priority < (mka 1 none).priority) ∧
      ¬ (sec0.priority < (mka 0 none).priority ∨ (sec0.priority = (mka 0 none).priority ∧ s.sci 0 < 0))) ∧
    ((net 2 [(F.NET_PSTAT.MKA 0, 2), (F.NET_PCFG.SUITE 0, 0)]).rd (F.NET_PSTAT.MKA 0) = 2 ∧ sec0.server = true ∧
      0xC000_0000 ≤ ({ sec0 with txPn := 0xC000_0000 }).txPn) ∧
    (sec0.hello ≤ s.now ∧ sec0.lastSeen = some 0 ∧ 0 + 6_000_000_000 ≤ ({ s with now := 6_000_000_000 }).now) ∧
    (st [(F.SEC_STAT.DRBGERR, 1)]).rd F.SEC_STAT.DRBGERR = 1 ∧ (st [(F.SEC_STAT.DRBGERR, 0)]).rd F.SEC_STAT.DRBGERR = 0 := by decide +kernel
def hopOf (mac : Option Nat) : Hop := { v6 := false, addr := 0xC0A8_0001, mac := mac, asked := 0, refresh := 0, failed := false }
def master : Master := { ident := 9, rank := 1, last := 0, count := 2, interval := 0, delayInterval := 0 }
/-- Port 0 with received messages, the clock following master 9 over it. -/
def ptpNet (f : Ptp → Ptp) (ms : List PtpMsg) : State :=
  ((net 0 [(F.CLK_TB_CTL.SRC, 1), (F.NET_PTPCFG.DOMAIN, 0)]).modPort 0 (fun p => { p with ptpIn := ms })).modNet (fun n => { n with
    ptp := f { n.ptp with masters := [master], chosen := some 9 } })

theorem witness_HopsAndPtp :
    let p (f : Port → Port) : State := (net 0 []).modPort 0 f
    (((p (fun q => { q with arpIn := [addr], ndIn := [addr] })).port 0).arpIn = addr :: [] ∧ addr.answer = false ∧
      ((net 0 []).port 0).ip4 = some { addr := addr.target, pfx := 24, gw := 0 } ∧ (up.port 0).ip4 = none ∧ (up.port 0).ip6 = none) ∧
    (((p (fun q => { q with ndIn := [{ addr with answer := true }] })).port 0).ndIn = { addr with answer := true } :: [] ∧
      ((net 0 []).port 0).ip6.isSome = true) ∧
    (((p (fun q => { q with echoIn := [⟨false, 1, []⟩], echoes := 100 })).port 0).echoIn = ⟨false, 1, []⟩ :: [] ∧
      ¬ ((p (fun q => { q with echoes := 100 })).port 0).echoAt + 1_000_000_000 ≤ (net 0 []).now ∧
      100 ≤ ((p (fun q => { q with echoes := 100 })).port 0).echoes ∧ ((p id).port 0).echoes < 100) ∧
    (net 0 []).rd (F.NET_PCFG.EN 0) = 1 ∧ (net 0 []).linkUp 0 = true ∧ (net 0 []).secured 0 = true ∧ (net 0 []).msec 0 = 0 ∧
    (((net 0 []).port 0).hops = [] ∧ (hopOf (some 5)).mac.isSome = true ∧ (hopOf (some 5)).refresh ≤ (net 0 []).now) ∧
    (let s := ptpNet id [ptpOf .other]
     s.ptpPort = some 0 ∧ (ptpOf .other).domain = s.rd F.NET_PTPCFG.DOMAIN ∧ (s.port 0).ptpIn = ptpOf .other :: [] ∧ (ptpOf .other).kind = .other) ∧
    (up.ptpPort ≠ some 0) ∧
    ((ptpNet id [ptpOf (.announce 1 0)]).net.ptp.masters = [master] ∧ master.ident = (ptpOf (.announce 1 0)).sender ∧
      (∀ c ∈ (ptpNet (fun v => { v with masters := [] }) []).net.ptp.masters, c.ident ≠ 9) ∧
      8 ≤ (List.replicate 8 { master with ident := 1 }).length) ∧
    ((ptpNet id []).net.ptp.chosen = some (ptpOf (.sync true 0 0 0)).sender ∧ (ptpNet (fun v => { v with chosen := none }) []).net.ptp.chosen ≠ some 9 ∧
      (ptpNet id []).net.ptp.delay = none ∧ (ptpNet (fun v => { v with delay := some 4 }) []).net.ptp.delay = some 4) ∧
    (let s := ptpNet (fun v => { v with waiting := some (1, 0), t2 := some 5 }) [ptpOf (.followUp 3 0)]
     s.net.ptp.waiting = some (1, 0) ∧ s.net.ptp.t2 = some 5 ∧ (ptpOf (.followUp 3 0)).seq = 1) ∧
    (let s := ptpNet (fun v => { v with req := some (1, 0), t1 := some 1, t2 := some 5 }) [ptpOf (.delayResp 3 0 0)]
     s.net.ptp.req = some (1, 0) ∧ s.net.ptp.t1 = some 1 ∧ s.net.ptp.t2 = some 5 ∧ (ptpOf (.delayResp 3 0 0)).seq = 1) ∧
    (let s := ptpNet (fun v => { v with t1 := some 1 }) []
     s.ptpPort = some 0 ∧ s.net.ptp.masters.find? (fun c => some c.ident == s.net.ptp.chosen) = some master ∧ s.net.ptp.t1 = some 1 ∧
       s.net.ptp.reqAt ≤ s.now ∧ s.now < ({ s.net.ptp with reqAt := 1 }).reqAt) ∧
    ((net 0 []).resolved 0 false 1 = false ∧ (net 0 []).resolved 0 false 0xE000_0001 = true) := by decide +kernel

/-- Stream 255 to a multicast address on port 0, reading bobbin 126 with one record. -/
def streaming (f : Stream → Stream) (l : List (Fld × Nat)) : State :=
  let s := ((ported up).wrs ([(F.NET_SCFG.EN 255, 1), (F.NET_SCFG.BOBBIN 255, 126), (F.NET_SCFG.PORTSEL 255, 0), (F.NET_SCFG.FORMAT 255, 5)] ++ l)).setBob 126
    { emptyBobbin with recs := [zoneRec 4 0 1], next := 1, readers := [(.stream 255, 0)] }
  s.modNet (fun n => { n with dests := [(255, { v6 := false, addr := 0xE000_0001, dport := 1, sport := 2, rate := 0 })],
                              streams := [(255, f { emptyStream with needDesc := false, desc := s.descBody 255, enabled := true })] })

theorem witness_Streams :
    let s := streaming id []
    let h : Taken := { idx := 0, data := (zoneRec 4 0 1).data, at_ := 0, tb := 0 }
    up.rd (F.NET_SCFG.EN 255) = 0 ∧ up.dest 255 = none ∧
    ((s.dest 255).isSome = true ∧ s.rd (F.NET_SCFG.EN 255) = 1 ∧ (streaming id [(F.NET_PSTAT.LINK 0, 0)]).unavailable 255 = true ∧
      (streaming id [(F.NET_SCFG.LINKPOL 255, 1)]).rd (F.NET_SCFG.LINKPOL 255) = 1 ∧ (streaming id [(F.NET_SCFG.LINKPOL 255, 0)]).rd (F.NET_SCFG.LINKPOL 255) = 0) ∧
    (s.unavailable 255 = false ∧ s.streamPorts 255 = [0] ∧ s.resolved 0 false 0xE000_0001 = true ∧ (s.stream 255).cut = false ∧
      (s.stream 255).needDesc = false ∧ (s.stream 255).desc = s.descBody 255 ∧
      nextRecord (s.bob 126) (s.stream 255).last false = some (zoneRec 4 0 1) ∧ (s.stream 255).group = [] ∧
      s.groupSize 255 ≤ (s.stream 255).group.length + 1 ∧ s.readerPos 126 (.stream 255) = some 0) ∧
    (let g := streaming (fun v => { v with group := [h] }) []
     (g.stream 255).group = h :: [] ∧ g.now < h.at_ + 100_000_000 ∧ h.at_ + 100_000_000 ≤ ({ g with now := 100_000_000 }).now ∧
       g.readerPos 126 (.stream 255) = some 0) ∧
    (let g := streaming (fun v => { v with group := [h], cut := true }) []
     (g.stream 255).group ≠ [] ∧ (g.stream 255).cut = true ∧ g.unavailable 255 = false ∧ (∀ q ∈ (g.stream 255).group, 0 ≤ q.idx)) ∧
    (let g := s.modNet (fun n => { n with dests := [(255, { v6 := false, addr := 1, dport := 1, sport := 2, rate := 0 })] })
     g.unavailable 255 = false ∧ 0 ∈ g.streamPorts 255 ∧ g.availFor 255 0 = true ∧ g.resolved 0 false 1 = false) ∧
    ((s.stream 255).descAt ≤ s.now) ∧
    (let q := { (streaming (fun v => { v with n0 := true }) [(F.NET_SCFG.PORTSEL 255, 3), (F.NET_SSTAT.ONNET1 255, 1)]) with now := 10_000_000_000 }
     q.rd (F.NET_SCFG.PORTSEL 255) = 3 ∧ q.rd (F.NET_SSTAT.ONNET1 255) = 1 ∧ (q.stream 255).n0 = true ∧ (q.stream 255).n0At + 10_000_000_000 ≤ q.now) ∧
    (let q := { (streaming id [(F.NET_SCFG.PORTSEL 255, 3), (F.NET_SSTAT.ONNET1 255, 0)]) with now := 1_000_000 }
     q.rd (F.NET_SSTAT.ONNET1 255) = 0 ∧ (q.stream 255).n0 = false ∧ (q.stream 255).n0At + 1_000_000 ≤ q.now) ∧
    s.rd (F.NET_SCFG.PORTSEL 255) ≠ 3 ∧
    up.netErr { up.liveView with extra := [255] } = 0 ∧
    (let q := (streaming id [(F.NET_SCFG.EN 255, 0), (F.NET_SCFG.FORMAT 255, 0)]).modNet (fun n => { n with
       dests := n.dests.map (fun d => (d.1, { d.2 with rate := 2 ^ 40 })) })
     q.netErr { q.liveView with extra := [255] } ≠ 0) := by decide +kernel

/-! ## Witnesses: compression, keys and trust -/

def rec1 : Record := (zoneRec 4 0 1).data
/-- Compressor 1 reads bobbin 126 and writes bobbin 0. -/
def compr (f : Comp → Comp) (l : List (Fld × Nat)) : State :=
  let s := (st ([(F.DFL_CFG.EN 1, 1), (F.DFL_CFG.INBOB 1, 126), (F.DFL_CFG.OUTBOB 1, 0)] ++ l)).setBob 126
    { emptyBobbin with recs := [zoneRec 4 0 1], next := 1, readers := [(.comp 1, 0)] }
  { s with comps := ⟨Comp.idle, f Comp.idle⟩ }
def chain0 (links : List Link) : Chain384 := { i := 1, due := 1, value := [], first := 0, count := 0, bytes := [], flags := 0, links := links }
def link0 : Link := { i := 0, at_ := 0, first := 0, count := 0, flags := 0, prev := List.replicate 48 0, value := List.replicate 48 0 }

theorem witness_Compression :
    (st [(F.DFL_CFG.EN 1, 0)]).rd (F.DFL_CFG.EN 1) = 0 ∧ (st [(F.DFL_STAT.STALL 1, 1)]).rd (F.DFL_STAT.STALL 1) = 1 ∧
    ((compr id []).rd (F.DFL_CFG.EN 1) = 1 ∧ (compr id []).rd (F.DFL_STAT.STALL 1) = 0 ∧ (compr id []).readerPos 126 (.comp 1) = some 0 ∧
      nextRecord ((compr id []).bob 126) 0 false = some (zoneRec 4 0 1)) ∧
    (let s := { (compr (fun c => { c with recs := [rec1] }) [(F.DFL_BLK.BLKTMO 1, 1)]) with now := 1_000_000 }
     (s.comp 1).recs ≠ [] ∧ (s.comp 1).openAt + s.rd (F.DFL_BLK.BLKTMO 1) * 1_000_000 ≤ s.now ∧ (up.comp 1).recs = []) ∧
    (let s := compr (fun c => { c with closed := [⟨[rec1], false, 0⟩] }) []
     (s.comp 1).closed = ⟨[rec1], false, 0⟩ :: [] ∧ [rec1] ≠ []) ∧
    (let s := compr (fun c => { c with chain := some (chain0 [link0]) }) []
     (s.comp 1).chain = some (chain0 [link0]) ∧ s.now < (chain0 []).due ∧ (chain0 []).due ≤ ({ s with now := 1 }).now ∧
       (chain0 [link0]).links = link0 :: []) ∧
    (let r := digestRecord up link0
     bobPages (up.bob 127) + recPages r ≤ up.rd (F.GND_BCFG.QUOTA 127) ∧
       (st [(F.GND_BCFG.QUOTA 0, 0)]).rd (F.GND_BCFG.QUOTA 0) < bobPages ((st []).bob 0) + recPages r ∧
       (st [(F.GND_BCFG.POLICY 0, 1)]).rd (F.GND_BCFG.POLICY 0) = 1) ∧
    ((compr id []).compOver (compr id []).liveView 1 = false) ∧
    (let s := (acq { Sched.idle with tr := 5000 }).wrs [(F.SHOT_GSTAT.NCH_ACT 0, 65535), (F.FLT_DSCFG.EN 0 0, 1), (F.FLT_DSCFG.RATIO 0 0, 1),
        (F.GND_SETBOB.DS0A, 133), (F.DFL_CFG.INBOB 1, 5), (F.SHOT_TRPER.TR_ACT 0, 5000)]
     s.compOver s.liveView 1 = true) ∧
    (decompress 1 [0x78, 0x01, 0x01, 0x01, 0x00, 0xFE, 0xFF, 0x41, 0x00, 0x42, 0x00, 0x42]).toOption = some [0x41] ∧
    (decompress 1 [0, 0]).toOption = none := by decide +kernel

theorem witness_FuseOperations :
    let f (l : List (Fld × Nat)) (ws : List Word) : State := (st l).modSecu (fun v => { v with fpdata := ws })
    let open_ (s : State) (k : Nat) : State := s.modSecu (fun v => { v with session := some (k, 0) })
    let life (n : Nat) := (F.SEC_STAT.LIFE, n)
    (f [(F.SEC_FPSTAT.BUSY, 1)] []).rd F.SEC_FPSTAT.BUSY = 1 ∧
    ((f [life lifeOwned] []).rd F.SEC_FPSTAT.BUSY = 0 ∧ (f [life lifeOwned] []).life ≠ lifeBlank ∧ (f [life lifeOwned] []).sessionSlot = none) ∧
    ((f [life lifeBlank] []).life = lifeBlank ∧ (open_ (f [life lifeOwned] []) 0).sessionSlot ≠ none) ∧
    ((f [(F.FUSE_SEC.VALID, 8)] []).slotValid 3 = true ∧ (f [] []).slotValid 3 = false ∧
      nthBit ((f [(F.FUSE_SEC.SPOILED, 8)] []).rd F.FUSE_SEC.SPOILED) 3 = true ∧ nthBit ((f [] []).rd F.FUSE_SEC.SPOILED) 3 = false) ∧
    ((open_ (f [life lifeOwned, (F.FUSE_SEC.VALID, 9)] []) 3).sessionSlot = some 3 ∧
      (∀ j, j < 4 → j ≠ 3 → (f [(F.FUSE_SEC.VALID, 9), (F.FUSE_SEC.REVOKED, 1)] []).slotValid j = true →
        (f [(F.FUSE_SEC.VALID, 9), (F.FUSE_SEC.REVOKED, 1)] []).slotRevoked j = true) ∧
      (open_ (f [life lifeOwned, (F.FUSE_SEC.VALID, 9)] []) 0).sessionSlot ≠ some 3 ∧ (f [(F.FUSE_SEC.VALID, 9)] []).slotValid 0 = true ∧
      (f [(F.FUSE_SEC.VALID, 9)] []).slotRevoked 0 = false) ∧
    (let s := open_ ((f [life lifeOwned] [64]).modBoot (fun b => { b with image := some { img with svn := 64 } })) 0
     ¬ (s.life = lifeBlank ∨ (wordAt s.secu.fpdata 0).toNat % 128 ≤ s.rd F.FUSE_SEC.ARB ∨
        s.boot.image.any (fun i => decide (i.svn < (wordAt s.secu.fpdata 0).toNat % 128)) = true) ∧
     0 ≤ s.rd F.FUSE_SEC.ARB) ∧
    ((f [(F.FUSE_SEC.FLEET, 1)] []).rd F.FUSE_SEC.FLEET = 1 ∧ (f [] []).rd F.FUSE_SEC.FLEET = 0 ∧ (f [] []).secu.fleetSpoiled = false) ∧
    ((up.modSecu (fun v => { v with fuseOp := some ⟨5, 3, []⟩ })).secu.fuseOp = some ⟨5, 3, []⟩ ∧ 1 ≤ 1 ∧ 5 ≤ 5 ∧ 3 < 4 ∧ (1 : Word) ≠ 0) ∧
    up.secu.fuseOp = none ∧
    (let s := { (imaged (st [(F.SEC_STAT.ARBPEND, 1)])) with now := 60_000_000_000 }
     s.rd F.SEC_STAT.ARBPEND = 1 ∧ s.boot.appliedAt + 60_000_000_000 ≤ s.now ∧ (s.modBoot (fun b => { b with committed := true })).boot.committed = true ∧ up.rd F.SEC_STAT.ARBPEND = 0) := by decide +kernel

theorem witness_TrustTimers :
    let v (f : Secu → Secu) : State := up.modSecu f
    (up.rd F.SEC_STAT.DRBGERR = 0 ∧ 65_536 ≤ (v (fun q => { q with drbgReqs := 65_536 })).secu.drbgReqs ∧
      up.secu.drbgReqs < 65_536 ∧ up.now < up.secu.drbgAt + 3_600_000_000_000) ∧
    ((st [(F.SEC_STAT.DRBGERR, 1)]).rd F.SEC_STAT.DRBGERR = 1 ∧ up.secu.retryAt ≤ up.now ∧
      up.now < (v (fun q => { q with retryAt := 1 })).secu.retryAt) ∧
    ((v (fun q => { q with challenge := some ([], 0) })).secu.challenge = some ([], 0) ∧ 0 ≤ up.now ∧ up.now < 1) ∧
    ((v (fun q => { q with session := some (0, 0) })).secu.session = some (0, 0) ∧ up.now < 0 + 600_000_000_000 ∧
      0 + 600_000_000_000 ≤ ({ up with now := 600_000_000_000 }).now) ∧
    (2 ≤ (st [(F.SYS_BOOT.PHASE, 2)]).rd F.SYS_BOOT.PHASE ∧ up.secu.identity = false ∧ (st [(F.SYS_BOOT.PHASE, 1)]).rd F.SYS_BOOT.PHASE < 2) ∧
    ((st [(F.FUSE_SEC.JTAG_LOCK, 1)]).rd F.FUSE_SEC.JTAG_LOCK = 1 ∧ (st [(F.FUSE_SEC.JTAG_LOCK, 0)]).rd F.FUSE_SEC.JTAG_LOCK = 0 ∧
      (2 : Fin 6).val ≤ 2 ∧ (3 : Fin 6).val = 3 ∧ (5 : Fin 6).val = 5 ∧ 1 ≤ (8 : Fin 9).val ∧ (7 : Fin 8).val ≠ 0) ∧
    ((∀ q ∈ up.secu.reach, q.1 ≠ 8) ∧ ∃ q ∈ (v (fun q => { q with reach := [(8, 1)] })).secu.reach, q.1 = 8) := by decide +kernel
/-! ## Witnesses: health and the stores -/

/-- Lanes 0 and 32 out of a set of modes. -/
def lanes (m0 m32 spare : Nat) (f : Lanes → Lanes) : State :=
  (st [(F.LANE_STAT.MODE 0, m0), (F.LANE_STAT.LL 0, 0), (F.LANE_STAT.MODE 32, m32), (F.HLTH_LANE.SPARE, spare)]).modLanes f

theorem witness_LaneRedundancy :
    let s := lanes laneActive laneSpare 32 id
    let beat (d m : Nat) (t : State) : State := t.modHealth (fun h => { h with beats := [(1, ⟨d, m⟩)] })
    let path (s : State) : State := { (s.wr (pathFld 1) 1).modHealth (fun h => { h with pathClean := ⟨none, some 0⟩ }) with now := 1_000_000_000 }
    (s.laneMode 0 = 1 ∧ s.laneMode 0 ≠ 0 ∧ s.laneMode 0 ≠ 5 ∧ s.laneMode 0 ≠ 6 ∧ s.spareLane ≠ 0 ∧ s.spareLane < 33) ∧
    ((lanes laneActive 0 0x3F id).spareLane = 63 ∧ 33 ≤ (lanes laneActive 0 0x3F id).spareLane ∧ (lanes laneFenced 0 0x3F id).laneMode 0 = 6) ∧
    (s.withholds 0 10_000 = false ∧
      (let t := s.setLogical 0 { emptyLogical with prog := [0] }
       t.withholds 0 10_000 = true ∧ t.laneMode 0 = 1)) ∧
    (s.now < ((beat 1 0 s).beat 0 1).deadline ∧ ((beat 0 0 s).beat 0 1).deadline ≤ s.now ∧ s.now - 0 ≤ ((beat 0 0 s).beat 0 1).deadline) ∧
    (¬ ({ s with now := 11_000 }).now - 0 ≤ ((beat 10_500 0 s).beat 0 1).deadline ∧ (path s).pathFaulted 1 = true ∧ s.pathFaulted 1 = false) ∧
    (((beat 0 1 s).beat 0 1).missed + 1 < 3 ∧ 3 ≤ ((beat 0 2 s).beat 0 1).missed + 1) ∧
    ((path s).health.pathClean.at 1 = some 0 ∧ 0 + 1_000_000_000 ≤ (path s).now ∧ s.now < 0 + 1_000_000_000) ∧
    (let t := { (lanes laneFenced laneRestore 0x3F (fun l => { l with takes := [⟨32, 31, 0⟩] })) with now := 5320 }
     t.lanes.takes.find? (fun t' => decide (t'.at_ + 5320 ≤ t.now)) = some ⟨32, 31, 0⟩ ∧
       s.lanes.takes.find? (fun t' => decide (t'.at_ + 5320 ≤ s.now)) = none ∧
       (restorePoint t { emptyLogical with cks := [⟨0, emptyLogical.core⟩] }).isSome = true) ∧
    (let t := { (s.setLogical 31 { emptyLogical with unserved := some 0 }) with now := 100_000_000 }
     (t.logical 31).unserved = some 0 ∧ (t.logical 31).lapsed = false ∧ 0 + 100_000_000 ≤ t.now ∧ s.now < 0 + 100_000_000) := by
  decide +kernel

theorem witness_LaneShadowing :
    let s := (lanes laneActive laneSpare 32 (fun l => { l with aim := some 0 }))
    let open_ (l : List (Fld × Nat)) (f : Lanes → Lanes) : State :=
      (lanes laneActive laneShadow 32 f).wrs ([(F.HLTH_LANE.SHADOW, 1), (F.HLTH_LANE.SHLL, 0)] ++ l)
    let late (s : State) : State := { s with now := 16_000_000 }
    (s.rd F.HLTH_LANE.SHADOW ≠ 1 ∧ s.spareLane < 33 ∧ s.laneMode s.spareLane = 2 ∧ s.lanes.swap = false ∧ s.shadowTarget = some 0) ∧
    (33 ≤ up.spareLane ∨ up.laneMode up.spareLane ≠ 2) ∧
    ((open_ [] (fun l => { l with winAt := 1 })).rd F.HLTH_LANE.SHADOW = 1 ∧ (open_ [] id).now < (open_ [] (fun l => { l with winAt := 1 })).lanes.winAt) ∧
    ((open_ [] id).lanes.winAt ≤ (open_ [] id).now ∧ (open_ [] id).lanes.swap = false ∧ (open_ [] id).servedBy 0 = some 0 ∧
      (open_ [] id).spareLane ≠ 0 ∧ (open_ [] id).lanes.suspect = none) ∧
    (open_ [] id).windowLength < max 16 ((open_ [] id).rd F.HLTH_CFG.SHDWIN) ∧
    (max 16 ((late (open_ [(F.HLTH_CFG.SHDWIN, 0)] id)).rd F.HLTH_CFG.SHDWIN) ≤ (late (open_ [(F.HLTH_CFG.SHDWIN, 0)] id)).windowLength ∧
      (open_ [] (fun l => { l with aim := some 0 })).lanes.aim = some 0 ∧ (open_ [] id).lanes.aim = none ∧
      (open_ [(F.HLTH_CFG.LSHEN, 0)] id).rd F.HLTH_CFG.LSHEN = 0) ∧
    (16 ≤ (up.now :: (List.replicate 15 0).filter (fun t => decide (up.now < t + 1_000_000_000))).length ∧
      (up.now :: (up.health.residues.at 0).filter (fun t => decide (up.now < t + 1_000_000_000))).length < 16) ∧
    (s.laneMode 0 = 1 ∧ up.laneMode 0 ≠ 1 ∧ up.laneMode 0 ≠ 4) ∧
    (let t := { (s.setLogical 0 { emptyLogical with prog := [0], pendK := [(7, 1)] }) with now := 1_000_000 }
     t.servedBy 0 = some 0 ∧ t.governs (t.logical 0) = 2 ∧ (t.logical 0).core.trap = 0 ∧ t.lanes.swap = false ∧
       (t.logical 0).ckAt + 1_000_000 ≤ t.now ∧ s.now < (t.logical 0).ckAt + 1_000_000 ∧ (t.logical 0).pendK = [(7, 1)] ∧
       (t.logical 0).pendAt + 4000 ≤ t.now) := by decide +kernel

theorem witness_TestsAndStores :
    let busy (q : TestRun) : State := { (up.modHealth (fun h => { h with test := some q })) with now := 150_000_000 }
    let run (u : Nat) (intr : Bool) : TestRun := { unit := u, intrusive := intr, startAt := some 0, goAt := 0 }
    (unitTestable 0x0F = false ∧ unitTestable 0x41 = false ∧ unitTestable 0x62 = true ∧ (busy (run 0x60 true)).health.test ≠ none ∧
      up.health.test = none) ∧
    (up.anyAcquiring = false ∧ (acq Sched.idle).anyAcquiring = true ∧ (acq Sched.idle).health.test = none) ∧
    ((lanes laneFenced 0 0x3F id).laneMode 0 = 6 ∧ ((lanes laneActive laneSpare 32 id).laneMode 32 = 2 ∧ (lanes laneActive laneSpare 32 id).spareLane = 32) ∧
      ((lanes laneActive laneSpare 32 id).laneMode 0 = 1 ∧ (lanes laneActive laneSpare 32 id).spareLane ≠ 0) ∧
      33 ≤ (lanes laneActive 0 0x3F id).spareLane) ∧
    ((serving [(F.SLC_STAT.MODE 14, slFenced)]).rd (F.SLC_STAT.MODE 14) = 6 ∧ (serving []).slices.tests = []) ∧
    ((hk [(F.HK_STAT.IDLEST, 3), (F.HK_STAT.ACTIVE, 0)] id).hkActive = 0 ∧ (hk [(F.HK_STAT.IDLEST, 3)] id).idleSt = 3) ∧
    ((busy (run 0x62 true)).health.test = some (run 0x62 true) ∧ 0 + 150_000_000 ≤ (busy (run 0x62 true)).now ∧ (run 0x62 true).intrusive = true ∧
      (run 0x60 false).intrusive = false ∧ ¬ 0 + 30_000_000 ≤ up.now) ∧
    (let s := { (lanes laneActive laneTest 0x3F (fun l => { l with tests := [(32, 0)] })) with now := 20_000_000 }
     (32, 0) ∈ s.lanes.tests ∧ 0 + 20_000_000 ≤ s.now ∧ s.unitHeld 0x40 = false ∧ s.firstUnserved = none ∧
       (s.setLogical 31 { emptyLogical with unserved := some 0 }).firstUnserved = some 31) ∧
    (let s := { (up.setSlices (fun q => { q with tests := [(14, 0)] })) with now := 20_000_000 }
     (14, 0) ∈ s.slices.tests ∧ 0 + 20_000_000 ≤ s.now ∧ coefsOk (coefs 32768) = false) ∧
    (let s := (imaged (st [(F.SYS_FLASH.MODE, 1)])).modFlash (fun f => { f with calDirty := true, logQueue := [rec1], jobs := [.cal] })
     s.flash.calDirty = true ∧ s.hasFlash = true ∧ s.flashTurn .cal = true ∧ s.flash.logQueue = rec1 :: [] ∧
       (s.modFlash (fun f => { f with jobs := [.log, .cal] })).flashTurn .log = true ∧ up.boot.image = none ∧ up.flashTurn .log = false ∧
       up.hasFlash = false) ∧
    (up.flash.calDirty = false ∧ up.flash.logQueue = []) := by decide +kernel

/-! ## Witnesses: monitor and invariant -/

def mon (f : Mon → Mon) : State := up.modMon f
def monCmd (c : MonCmd) (s : State) : State := s.modMon (fun m => { m with cmd := some c })

theorem witness_MonitorReads :
    let line (t : String) : State := mon (fun m => { m with entered := some (text t, false) })
    let owned (t : String) (life : Nat) : State := (line t).wr F.SEC_STAT.LIFE life
    let tr : Trace := { func := 0, fibre := 0, start := 0, count := 1, at_ := 0, from_ := 0, held := true }
    (State.reset.inReset = true ∧ up.inReset = false ∧ up.monBusy = false ∧ (line "ID").monBusy = true ∧ (line "ID").mon.buffer.length < 1024) ∧
    ((mon (fun m => { m with cr := true })).mon.cr = true ∧ up.mon.cr = false ∧ (65 : Byte) ∉ [8, 10, 13, 127] ∧ up.mon.line.length < 1024) ∧
    ((mon (fun m => { m with entered := some ([], true) })).mon.entered = some ([], true)) ∧
    ((line "foo 1").mon.entered = some (text "foo 1", false) ∧ wordsOf (upper (text "foo 1")) = text "FOO" :: [text "1"] ∧
      ∀ p ∈ commandTable, text p.1 ≠ text "FOO") ∧
    ((owned "help" lifeFault).life = lifeFault ∧ wordsOf (upper (text "help")) = text "HELP" :: [] ∧ (∃ p ∈ commandTable, text p.1 = text "HELP") ∧
      text "HELP" ∉ [text "ID", text "STAT", text "HEALTH"]) ∧
    ((owned "id 1" lifeOwned).life ≠ lifeFault ∧ parseArgs (text "ID") [text "1"] = none ∧ parseArgs (text "ID") [] = some .id) ∧
    ((monCmd (.help none) up).mon.cmd = some (.help none) ∧ (monCmd (.help (some (text "ID"))) up).mon.cmd = some (.help (some (text "ID"))) ∧
      (monCmd (.peek 0 256 []) up).mon.cmd = some (.peek 0 256 []) ∧ (monCmd (.peek 0 2 [7]) up).mon.cmd = some (.peek 0 2 [7]) ∧ min (256 - 0) ((some 3).getD 256) < 256 ∧ (monCmd (.log 1) up).mon.cmd = some (.log 1)) ∧
    (let s := acq Sched.idle
     up.acquiring .a = false ∧ s.acquiring .a = true ∧ s.lpts .a + s.rd (F.SHOT_GUARD.GUARD 0) < 0 + 1_000_000 ∧
       0 + 1 ≤ s.lpts .a + s.rd (F.SHOT_GUARD.GUARD 0) ∧ (acq Sched.idle |>.wr F.SLC_ROLE1.SPARE 0xF).spareReady = false ∧
       ((serving []).spareReady = true)) ∧
    (let s := (flying das).modMon (fun m => { m with trace := some tr })
     s.mon.trace = some tr ∧ s.tracedShot tr = some das ∧ das.tL + s.rd (F.SHOT_LRP.DELAY tr.fibre) + tr.start + tr.count ≤ s.now + 1) ∧
    (let s := { (mon (fun m => { m with trace := some tr })) with now := 10_000_000_000 }
     s.mon.trace = some tr ∧ s.tracedShot tr = none ∧ tr.at_ + 10_000_000_000 ≤ s.now ∧ up.now < tr.at_ + 10_000_000_000) := by
  decide +kernel

theorem witness_MonitorActs :
    let open_ (s : State) : State := s.modSecu (fun v => { v with session := some (2, 0) })
    let owned : State := st [(F.SEC_STAT.LIFE, lifeOwned)]
    ((monCmd .challenge up).mon.cmd = some .challenge ∧ up.rd F.SEC_STAT.DRBGERR = 0 ∧ (st [(F.SEC_STAT.DRBGERR, 1)]).rd F.SEC_STAT.DRBGERR = 1) ∧
    (monCmd (.auth [0]) up).mon.cmd = some (.auth [0]) ∧
    (owned.life ≠ lifeBlank ∧ owned.secu.session = none ∧ (open_ owned).secu.session ≠ none ∧ (open_ owned).sessionSlot = some 2 ∧
      (st [(F.SEC_STAT.LIFE, lifeBlank)]).life = lifeBlank) ∧
    ((monCmd (.poke 0 1) owned).mon.cmd = some (.poke 0 1) ∧ (monCmd (.cal 14 true false) owned).mon.cmd = some (.cal 14 true false) ∧
      (14 : Fin 16).val ≤ 0x0E ∧ 0x0E < 0x50 ∧ (monCmd (.slotClear 1) owned).mon.cmd = some (.slotClear 1) ∧ 1 < 2 ∧
      (monCmd .reset owned).mon.cmd = some .reset ∧ (monCmd (.resetUnit 0) owned).mon.cmd = some (.resetUnit 0)) := by decide +kernel

theorem witness_StepsKeepCanonical : up.canonical ∧ (State.reset.ask .capture).canonical ∧ ready.canonical := by
  unfold State.canonical; decide +kernel
/-! ## Well-formedness: an ill-formed term for each check, which the check refuses -/

theorem test_wf_bus : (Instr.registerWrite (2 ^ 32) 0 none).wf = false ∧ (Instr.registerWrite (2 ^ 32 - 1) 0 none).wf = true ∧
    (Instr.rcRead (2 ^ 32)).wf = false ∧ (Instr.holdingRead (2 ^ 32)).wf = false := by decide +kernel

theorem test_wf_events : (Instr.ppsInEdge true 4).wf = false ∧ (Instr.overcur 0 65536).wf = false ∧ (Instr.short 0 65536).wf = false ∧
    (Instr.open 0 65536 0).wf = false ∧ (Instr.open 0 0 65536).wf = false ∧ (Instr.sliceFault 0 0 0).wf = false ∧ (Instr.sliceFault 0 4 0).wf = false ∧
    (Instr.bobbinWrite 0 0 0 16 0 0 0 0 .a []).wf = false := by decide +kernel

def wordOf (code : Int) (gain : Nat) : SliceWord := { code := code, ovr := false, gain := gain, step := false }
theorem test_wf_measured :
    let w := wordOf 0 0
    let bad := wordOf (-8193) 0
    (Instr.sliceCalComplete { ofs := 0, skew := 0, temp := 0, mags := [], delays := [] }).wf = false ∧
    (Instr.cordonnetLockLost [{ i := 8192, q := 0, ovr := false }]).wf = false ∧
    (Instr.cordonnetLockRegained [{ i := 0, q := -8193, ovr := false }]).wf = false ∧
    (Instr.channelSampleEmit .a 131072 [] 0 []).wf = false ∧
    (Instr.channelSampleEmit .a 0 [] 0 [{ xi := w, xq := w, yi := w, yq := bad }]).wf = false ∧
    (Instr.channelSampleEmit .a 0 [] 0 [{ xi := w, xq := w, yi := w, yq := wordOf 0 8 }]).wf = false ∧
    (Instr.shotRecordComplete .a [] 0 [{ xi := w, xq := w, yi := w, yq := w }]).wf = true ∧
    (Instr.roundBoundary .a [] [{ xi := bad, xq := w, yi := w, yq := w }] 0 0).wf = false ∧
    (Instr.launchEnergyEval .a [] 0 [[{ xi := w, xq := bad, yi := w, yq := w }]]).wf = false ∧
    (Instr.ramanTraceComplete .a [{ as_ := 0, st := -8193, ovrAs := false, ovrSt := false }]).wf = false ∧
    (Instr.conversionResult { code := 32768, ovr := false, idle := 0, idleOvr := false, clamp := false }).wf = false ∧
    (Instr.traceCapture [(8192, false)]).wf = false ∧ (Instr.traceCapture [(8191, true)]).wf = true ∧
    (Instr.lanesLoaded [{ ofs := 0, skew := 0, temp := 0, mags := [], delays := [] }] 0 0 0 0).wf = false := by decide +kernel

theorem test_wf_frames :
    ({ frame none .other with vid := some 4096 }).wf = false ∧ ({ frame (some ⟨4, 1, true⟩) .other with vid := none }).wf = false ∧
    (frame none (.mka { mka 1 none with priority := 256 })).wf = false ∧ (frame none (.mka (mka 1 (some (4, 0))))).wf = false ∧
    (frame none (.arp { addr with sender := 2 ^ 32 })).wf = false ∧ (frame none (.neighbour { addr with mac := 2 ^ 48 })).wf = false ∧
    (frame none (.echo true 0 ⟨false, 2 ^ 32, []⟩)).wf = false ∧ (frame none (.udp false true 0 0 65536 0 1 [])).wf = false ∧
    (frame none (.udp false true 0 0 0 0 3 [])).wf = false ∧ (frame none (.ptp true 0 { ptpOf .other with transport := 3 })).wf = false := by
  decide +kernel

theorem test_wf_lane :
    (Instr.bmac 0 { src := 2, sb := 0, acd := 0, pa := 0, ma := 0, pb := 0, mb := 0, cp := 0, mc := 0 }).wf = false ∧
    (Instr.sta 0 { acd := 0, acs := 0, sh := 32, mem := 0, pt := 0, mod := 0, d := 0, mask := 0 }).wf = false ∧
    (Instr.ldx 0 { d := 8, pt := 0, mod := 0 }).wf = false ∧ (Instr.add 0 { dd := 0, da := 0, db := 8, i := 0, shi := 0 }).wf = false ∧
    (Instr.addi 0 { dd := 0, da := 0, imm := 524288 }).wf = false ∧ (Instr.ldhi 0 { dd := 0, da := 0, imm := -1 }).wf = false ∧
    (Instr.setp 0 { reg := 16, imm := 0 }).wf = false ∧ (Instr.movs 0 { dir := 0, d := 0, sreg := 64 }).wf = false ∧
    (Instr.br 0 { cond := 0, tgt := 4096 }).wf = false ∧ (Instr.loop 0 { cs := 0, cnt := 1, da := 1, last := 0 }).wf = false ∧
    (Instr.srd 0 { port := 4, memop := 0, mem := 0, pt := 0, mod := 0, d := 0 }).wf = false := by decide +kernel

/-! ## Lane words written out from the encoding tables (R290), one per format -/

theorem test_words :
    laneDecode 5 0b000110_0_0_11_000_00_000_00_000_00_0000000 = some (.smac 5 { src := 0, sb := 0, acd := 3, pa := 0, ma := 0, pb := 0, mb := 0, cp := 0, mc := 0 }) ∧
    laneDecode 5 0b001010_00_00_000000_0_000_00_000_000_1010 = some (.clra 5 { acd := 0, acs := 0, sh := 0, mem := 0, pt := 0, mod := 0, d := 0, mask := 10 }) ∧
    laneDecode 5 0b010010_111_101_10_000000000000000000 = some (.ldx 5 { d := 7, pt := 5, mod := 2 }) ∧
    laneDecode 5 0b011101_001_010_011_0_000000_0000000000 = some (.add 5 { dd := 1, da := 2, db := 3, i := 0, shi := 0 }) ∧
    laneDecode 5 0b010111_110_000_11111111111111111111 = some (.ldi 5 { dd := 6, da := 0, imm := -1 }) ∧
    laneDecode 5 0b011011_1000_00000000_11111111111110 = some (.setp 5 { reg := 8, imm := -2 }) ∧
    laneDecode 5 0b011010_1_011_010100_0000000000000000 = some (.movs 5 { dir := 1, d := 3, sreg := 20 }) ∧
    laneDecode 5 0b101010_0001_0000000000_000000001111 = some (.br 5 { cond := 1, tgt := 15 }) := by decide +kernel

/-! ## Numbers of the spec's worked examples -/

/-- The 60 km fibre of the geometry example, and the 100 km plan of the shot scheduling example. -/
def km60 : State := st [(F.SHOT_FLEN.LEN 0, 587687), (F.SHOT_CHAN.PP 0, 1), (F.SHOT_CHAN.PITCH 0, 10), (F.SHOT_CHAN.GAUGE 0, 20), (F.SHOT_CSTART.START 0, 0)]
def km100 : State := st [(F.SHOT_FLEN.LEN 0, 979480), (F.SHOT_CHAN.PP 0, 0), (F.SHOT_CHAN.PITCH 0, 10), (F.SHOT_CHAN.GAUGE 0, 10),
  (F.SHOT_CSTART.START 0, 0), (F.SHOT_LRP.DELAY 0, 180), (F.SHOT_GUARD.GUARD 0, 10000), ((F.SHOT_TSET.NT 0).live, 3),
  ((F.SHOT_TFREQ01.F0 0).live, 100), ((F.SHOT_TFREQ01.F1 0).live, 200), ((F.SHOT_TFREQ23.F2 0).live, 300), ((F.SHOT_TFREQ23.F3 0).live, 400),
  ((F.SHOT_PULSE.WIDTH 0).live, 640), ((F.SHOT_PULSE.CODE 0).live, 1), ((F.SHOT_PULSE.CHIPS 0).live, 31), ((F.SHOT_TRIG.TWIDTH 0).live, 50),
  ((F.SHOT_TRIG.TSKEW 0).live, 50), ((F.SHOT_RAMAN.MODE 0).live, 1), ((F.SHOT_RAMAN.DIV 0).live, 1), (F.DTS_RLRP.DELAY 0, 200)]

/-- R27: 58,766 channels; p_last of channel 29,000 is 290,028 (the geometry example). -/
theorem test_geometry_example : km60.fibreFit 0 = 58766 ∧ km60.pLast 0 29000 = 290028 := by decide +kernel

/-- R27, R67, R68 and R88 on the 100 km plan: 97,947 channels, T_min 990,300 ns, T_R 992,000 ns, no code. -/
theorem test_plan_example : km100.fibreFit 0 = 97947 ∧ km100.tMin 0 979480 (km100.plan true 0) = 990300 ∧
    km100.trOf 0 (km100.plan true 0) = 992000 ∧ km100.planCodes 0 (km100.plan true 0) 992000 = [] := by decide +kernel

/-- R425 on the 40 km route: D_w is 1.4766 GB/s, shown as 148, and D 2.9689 GB/s, shown as 297 (the memory controller's example). -/
theorem test_budget_example :
    let s := (acq { Sched.idle with tr := 400000 }).wrs [(F.SHOT_GSTAT.NCH_ACT 0, 9843), (F.SHOT_TRPER.TR_ACT 0, 400000), ((F.SHOT_TSET.NT 0).live, 3),
      (F.FLT_DSCFG.EN 0 0, 1), (F.FLT_DSCFG.PRESET 0 0, 0), (F.FLT_DSCFG.RATIO 0 0, 1), (F.FLT_DSCFG.EN 0 1, 0), (F.GND_SETBOB.DS0A, 128),
      (F.GND_SETBOB.DS1A, 0), (F.GND_SETBOB.DS0B, 0), (F.GND_SETBOB.DS1B, 0), (F.NET_SCFG.EN 0, 1), (F.NET_SCFG.BOBBIN 0, 0), (F.GND_RCFG.EN, 0)]
    let t := s.modNet (fun n => { n with dests := [(0, { v6 := false, addr := 0, dport := 0, sport := 0, rate := 0 })] })
    hundredths 16 (t.demandW t.liveView) = 148 ∧ hundredths 16 (t.demandW t.liveView + t.demandR t.liveView) = 297 := by decide +kernel

/-- Addresses of the register index's example, and the word beyond SLC_CALSKEW_14. -/
theorem test_address_example : R.SLC_CALSKEW 14 = 0x4_038C ∧ R.LANE_K 17 3 = 0x9_108C ∧ R.DTS_STAT 1 = 0xA_10A0 ∧ R.FLT_DSSTAT 1 1 = 0x7_009C ∧
    R.NET_PSTAT 1 = 0x10_0044 ∧ R.HK_RES 39 = 0xB_029C ∧ regDef? 0x4_0390 = none := by decide +kernel

/-- The monitor prints a word as the console example has it. -/
theorem test_peek_text : hexWord 0x2_0058 ++ text " " ++ hexWord 0xFF_0011 = text "0x0002_0058 0x00FF_0011" := by decide +kernel

/-- The zone of the LP3 example goes to WARN on its second level of 1,400 or more, and its readings follow. -/
theorem test_zone_example :
    let l := [(F.LOOP_CTH0.W_ON 2, 1200), (F.LOOP_CTH0.W_OFF 2, 1000), (F.LOOP_CTH1.A_ON 2, 2500), (F.LOOP_CTH1.A_OFF 2, 2000)]
    (st l).zoneLevel 2 900 true = 0 ∧ (st l).zoneLevel 2 1400 true = 1 ∧ (st l).zoneLevel 2 2600 true = 2 ∧ (st l).zoneLevel 2 1500 false = 1 := by
  decide +kernel

/-! ## Single steps -/

/-- The state that an outcome gives. -/
def after (o : Host.Outcome State Fault Refusal) : State := match o with | .next t => t | _ => State.reset

theorem test_step_idle : (after (step up)).now = 4 ∧ (after (step up)).tb.acc = 0 := by decide +kernel

theorem test_write_align : (after (exec (.registerWrite 2 0 none) up)).status = .align ∧
    (after (exec (.registerWrite 0x4_0390 0 none) up)).status = .unmapped := by decide +kernel

theorem test_scfg_disable : (after (exec (.netScfgEnWrite 255 false) up)).status = .ok := by decide +kernel

theorem test_recall_export_refused : (after (exec .recallExport up)).status = .refused := by decide +kernel

theorem test_lane_add_wraps :
    let w := encR 0x1D { dd := 2, da := 0, db := 1, i := 0, shi := 0 }
    let s := lane w (fun c => { c with d := [0x7FFF_FFFF, 1, 0, 0, 0, 0, 0, 0] })
    let c := (after (exec (.add 32 { dd := 2, da := 0, db := 1, i := 0, shi := 0 }) s)).laneCore 32
    c.dreg 2 = 0x8000_0000 ∧ flTest c.fl flV = true ∧ flTest c.fl flN = true ∧ flTest c.fl flC = false ∧ c.pc = 1 := by decide +kernel

theorem test_rtbl_read : (after (exec (.rcRead R.SYS_RTBL) up)).status = .ok := by decide +kernel

theorem test_emit_low : (after (exec (.emitEnLow 50) { (st permitted) with pins := { up.pins with emitEn := true } })).rd F.SRC_EMIT.EMIT_LOST = 1 := by
  decide +kernel

end Sys2Proof.Tests
end

section
/-!
SUPPORT. Accesses over the control bus: how a register's fields lie in its word, what a read and a write of it come to, and the two
statements of the scope's family (R6–R11, R493).
-/
namespace Sys2Proof.Machine

/-! ## The layout of a register -/

/-- The bits `lo` to `lo + w - 1` lie beside those of a field. -/
abbrev FieldDef.beside (f : FieldDef) (lo w : Nat) : Prop := f.lo + f.w ≤ lo ∨ lo + w ≤ f.lo

/-- The fields of a register lie in its word and share no bit. -/
abbrev RegDef.laidOut (r : RegDef) : Prop :=
  r.fields.Pairwise (fun f g => g.beside f.lo f.w) ∧ ∀ f ∈ r.fields, f.lo + f.w ≤ 32

theorem blockRegs_laidOut (a : Nat) : ∀ r ∈ blockRegs a, r.laidOut := by
  unfold blockRegs
  split
  · split <;> decide +kernel
  · split
    · decide +kernel
    · split <;> decide +kernel

theorem regDef?_laidOut {a : Nat} {r : RegDef} (h : regDef? a = some r) : r.laidOut :=
  blockRegs_laidOut a r (List.mem_of_find?_eq_some h)

/-! ## Words put together from fields -/

/-- The word `a` with every field of a list replaced by its value under `g`. -/
def putFields (g : FieldDef → Nat) : List FieldDef → Word → Word
  | [], a => a
  | f :: fs, a => putFields g fs (wordPut f.lo f.w a (g f))

theorem FieldDef.pick_toNat (f : FieldDef) (a : Word) : f.pick a.toNat = wordField f.lo f.w a := (rfl)

theorem FieldDef.pick_lt (f : FieldDef) (v : Nat) : f.pick v < 2 ^ f.w := Nat.mod_lt _ (Nat.two_pow_pos _)

theorem wordField_wordPut_beside {f : FieldDef} {lo w : Nat} (a : Word) (v : Nat) (hf : f.lo + f.w ≤ 32) (h : f.beside lo w) :
    wordField lo w (wordPut f.lo f.w a v) = wordField lo w a := by
  rcases h with h | h
  · exact wordField_wordPut_above _ _ _ _ _ _ hf h
  · exact wordField_wordPut_below _ _ _ _ _ _ hf h

theorem wordField_putFields_beside (g : FieldDef → Nat) (fs : List FieldDef) (a : Word) (lo w : Nat) (hw : ∀ f ∈ fs, f.lo + f.w ≤ 32)
    (h : ∀ f ∈ fs, f.beside lo w) : wordField lo w (putFields g fs a) = wordField lo w a := by
  induction fs generalizing a with
  | nil => rfl
  | cons f fs ih =>
    rw [List.forall_mem_cons] at hw h
    rw [putFields, ih _ hw.2 h.2, wordField_wordPut_beside a _ hw.1 h.1]

theorem wordField_putFields_mem (g : FieldDef → Nat) (fs : List FieldDef) (a : Word) (hp : fs.Pairwise (fun f g => g.beside f.lo f.w))
    (hw : ∀ f ∈ fs, f.lo + f.w ≤ 32) {f : FieldDef} (hf : f ∈ fs) : wordField f.lo f.w (putFields g fs a) = g f % 2 ^ f.w := by
  induction fs generalizing a with
  | nil => cases hf
  | cons q fs ih =>
    rw [List.forall_mem_cons] at hw
    rw [List.pairwise_cons] at hp
    rw [putFields]
    rcases List.mem_cons.mp hf with rfl | hf
    · rw [wordField_putFields_beside g fs _ _ _ hw.2 hp.1, wordField_wordPut_same _ _ _ _ hw.1]
    · exact ih _ hp.2 hw.2 hf

/-- Adding a field's bits to a word that has none of them is replacing the field. -/
theorem add_place_eq_wordPut (f : FieldDef) (a : Word) (v : Nat) (hf : f.lo + f.w ≤ 32) (h : wordField f.lo f.w a = 0) :
    a.toNat + f.place v = (wordPut f.lo f.w a v).toNat := by
  rw [wordPut_toNat _ _ _ _ hf]
  have hlow : a.toNat % 2 ^ (f.lo + f.w) = a.toNat % 2 ^ f.lo := by
    rw [Nat.pow_add, Nat.mod_mul]
    change _ + 2 ^ f.lo * wordField f.lo f.w a = _
    rw [h, Nat.mul_zero, Nat.add_zero]
  have hsplit := Nat.div_add_mod' a.toNat (2 ^ (f.lo + f.w))
  unfold FieldDef.place
  omega

/-- A sum of fields that share no bit is a word put together from them. -/
theorem foldl_place_eq_putFields (g : FieldDef → Nat) (fs : List FieldDef) (a : Word) (hp : fs.Pairwise (fun f g => g.beside f.lo f.w))
    (hw : ∀ f ∈ fs, f.lo + f.w ≤ 32) (h : ∀ f ∈ fs, wordField f.lo f.w a = 0) :
    fs.foldl (fun acc f => acc + f.place (g f)) a.toNat = (putFields g fs a).toNat := by
  induction fs generalizing a with
  | nil => rfl
  | cons f fs ih =>
    rw [List.forall_mem_cons] at hw h
    rw [List.pairwise_cons] at hp
    rw [List.foldl_cons, add_place_eq_wordPut f a _ hw.1 h.1, putFields]
    refine ih _ hp.2 hw.2 (fun q hq => ?_)
    rw [wordField_wordPut_beside a _ hw.1 ((hp.1 q hq).symm), h.2 q hq]

theorem wordField_zero (lo w : Nat) : wordField lo w 0 = 0 := by simp [wordField]

/-- The value that a plain write gives a field (R8). -/
def FieldDef.rewritten (f : FieldDef) (old w : Nat) : Nat :=
  match f.acc with
  | .rw | .wo => f.pick w
  | .w1c => f.pick old &&& (2 ^ f.w - 1 - f.pick w)
  | .ro | .w1s | .rc => f.pick old

theorem FieldDef.rewritten_lt (f : FieldDef) (old w : Nat) : f.rewritten old w < 2 ^ f.w := by
  unfold FieldDef.rewritten
  cases f.acc
  case w1c => exact lt_of_le_of_lt Nat.and_le_left (f.pick_lt old)
  all_goals exact f.pick_lt _

theorem RegDef.written_eq_putFields {r : RegDef} (hr : r.laidOut) (old w : Nat) :
    r.written old w = (putFields (fun f => f.rewritten old w) r.fields 0).toNat :=
  foldl_place_eq_putFields _ _ 0 hr.1 hr.2 (fun _ _ => wordField_zero _ _)

/-- Every field of a register that a plain write has written (R8). -/
theorem RegDef.pick_written {r : RegDef} (hr : r.laidOut) (old w : Nat) {f : FieldDef} (hf : f ∈ r.fields) :
    f.pick (w32 (r.written old w)).toNat = f.rewritten old w := by
  rw [r.written_eq_putFields hr, w32, BitVec.ofNat_toNat, BitVec.setWidth_eq, f.pick_toNat, wordField_putFields_mem _ _ _ hr.1 hr.2 hf,
    Nat.mod_eq_of_lt (f.rewritten_lt old w)]

/-! ## Masks -/

theorem RegDef.mask_eq_putFields {r : RegDef} (hr : r.laidOut) (p : FieldDef → Bool) :
    w32 (r.mask p) = putFields (fun f => 2 ^ f.w - 1) (r.fields.filter p) 0 := by
  have h := foldl_place_eq_putFields (fun f => 2 ^ f.w - 1) (r.fields.filter p) 0 (hr.1.filter p)
    (fun f hf => hr.2 f (List.mem_of_mem_filter hf)) (fun _ _ => wordField_zero _ _)
  rw [RegDef.mask, sumN, List.foldl_map]
  change w32 (List.foldl _ (0 : Word).toNat _) = _
  rw [h, w32, BitVec.ofNat_toNat, BitVec.setWidth_eq]

/-- Bits beside the fields of a mask are 0 in it. -/
theorem RegDef.wordField_mask_beside {r : RegDef} (hr : r.laidOut) (p : FieldDef → Bool) (lo w : Nat)
    (h : ∀ f ∈ r.fields, p f = true → f.beside lo w) : wordField lo w (w32 (r.mask p)) = 0 := by
  rw [r.mask_eq_putFields hr, wordField_putFields_beside, wordField_zero]
  · exact fun f hf => hr.2 f (List.mem_of_mem_filter hf)
  · exact fun f hf => h f (List.mem_of_mem_filter hf) (List.mem_filter.mp hf).2

/-- A mask holds all bits of the fields it names and none of the others. -/
theorem RegDef.wordField_mask {r : RegDef} (hr : r.laidOut) (p : FieldDef → Bool) {f : FieldDef} (hf : f ∈ r.fields) :
    wordField f.lo f.w (w32 (r.mask p)) = if p f = true then 2 ^ f.w - 1 else 0 := by
  split
  case isTrue h =>
    rw [r.mask_eq_putFields hr, wordField_putFields_mem _ _ _ (hr.1.filter p) _ (List.mem_filter.mpr ⟨hf, h⟩)]
    · exact Nat.mod_eq_of_lt (Nat.sub_lt (Nat.two_pow_pos _) Nat.one_pos)
    · exact fun q hq => hr.2 q (List.mem_of_mem_filter hq)
  case isFalse h =>
    refine r.wordField_mask_beside hr p _ _ (fun q hq hqp => ?_)
    have hsymm : Std.Symm (fun f g : FieldDef => g.beside f.lo f.w) := ⟨fun _ _ => Or.symm⟩
    exact hr.1.forall hf hq (fun e => h (e ▸ hqp))

theorem wordField_lt (lo w : Nat) (a : Word) : wordField lo w a < 2 ^ w := Nat.mod_lt _ (Nat.two_pow_pos _)

theorem wordField_and (lo w : Nat) (a b : Word) : wordField lo w (a &&& b) = wordField lo w a &&& wordField lo w b := by
  simp only [wordField, BitVec.toNat_and, Nat.and_div_two_pow, Nat.and_mod_two_pow]

theorem wordField_not (lo w : Nat) (a : Word) (h : lo + w ≤ 32) : wordField lo w (~~~ a) = 2 ^ w - (wordField lo w a + 1) := by
  refine Nat.eq_of_testBit_eq (fun i => ?_)
  rw [Nat.testBit_two_pow_sub_succ (wordField_lt lo w a)]
  simp only [wordField, Nat.testBit_mod_two_pow, Nat.testBit_div_two_pow, BitVec.testBit_toNat, BitVec.getLsbD_not]
  by_cases hi : i < w
  · simp [hi, show i + lo < 32 by omega]
  · simp [hi]

/-- A masked word keeps the fields that the mask names and has 0 in the others. -/
theorem RegDef.pick_and_mask {r : RegDef} (hr : r.laidOut) (p : FieldDef → Bool) (v : Word) {f : FieldDef} (hf : f ∈ r.fields) :
    f.pick (v &&& w32 (r.mask p)).toNat = if p f = true then f.pick v.toNat else 0 := by
  simp only [f.pick_toNat, wordField_and, r.wordField_mask hr p hf]
  split
  · exact Nat.and_two_pow_sub_one_of_lt_two_pow (wordField_lt _ _ _)
  · exact Nat.and_zero _

/-- A word without the bits of a mask has 0 in the fields that the mask names and keeps the others. -/
theorem RegDef.pick_and_not_mask {r : RegDef} (hr : r.laidOut) (p : FieldDef → Bool) (v : Word) {f : FieldDef} (hf : f ∈ r.fields) :
    f.pick (v &&& ~~~ w32 (r.mask p)).toNat = if p f = true then 0 else f.pick v.toNat := by
  simp only [f.pick_toNat, wordField_and, wordField_not _ _ _ (hr.2 f hf), r.wordField_mask hr p hf]
  split
  · rw [Nat.sub_add_cancel (Nat.two_pow_pos _), Nat.sub_self, Nat.and_zero]
  · exact Nat.and_two_pow_sub_one_of_lt_two_pow (wordField_lt _ _ _)

/-- A masked word has 0 in every bit of no field. -/
theorem RegDef.bit_and_mask {r : RegDef} (hr : r.laidOut) (p : FieldDef → Bool) (v : Word) {n : Nat}
    (hn : ∀ f ∈ r.fields, n < f.lo ∨ f.lo + f.w ≤ n) : (v &&& w32 (r.mask p)).toNat / 2 ^ n % 2 = 0 := by
  have hm := r.wordField_mask_beside hr p n 1 (fun f hf _ => (hn f hf).symm)
  change wordField n 1 _ = 0
  rw [wordField_and, hm, Nat.and_zero]

/-! ## What an access comes to -/

theorem exec_registerWrite_up (a : Nat) (w : Word) (auth : Option (Fin 4)) {s : State} (h : s.busUp = true) :
    exec (.registerWrite a w auth) s = .next (busWrite (auth.map (·.val)) a w s) := by
  rw [exec_registerWrite, execRegisterWrite, onlyIf, if_pos h]

theorem exec_rcRead_up (a : Nat) {s : State} (h : s.busUp = true) : exec (.rcRead a) s = .next (busReadTo a s) := by
  rw [exec_rcRead, execRcRead, onlyIf, if_pos h]

theorem exec_holdingRead_up (a : Nat) {s : State} (h : s.busUp = true) : exec (.holdingRead a) s = .next (busReadTo a s) := by
  rw [exec_holdingRead, execHoldingRead, onlyIf, if_pos h]

theorem State.reg_answer (s : State) (st : Status) (k : Nat) : (s.answer st).reg k = s.reg k := (rfl)

/-- A write of a word that belongs to no register (R6, R10). -/
theorem busWrite_misaligned (auth : Option Nat) {a : Nat} (w : Word) (s : State) (ha : a % 4 ≠ 0) :
    busWrite auth a w s = s.answer .align := if_pos ha

theorem busWrite_unmapped (auth : Option Nat) {a : Nat} (w : Word) (s : State) (ha : a % 4 = 0) (hr : regDef? a = none) :
    busWrite auth a w s = s.answer .unmapped := by
  simp only [busWrite, ha, ne_eq, not_true_eq_false, if_false, hr]

/-- A write of a register: the checks in their order, then what the register does with it (R493). -/
theorem busWrite_register (auth : Option Nat) {a : Nat} (w : Word) (s : State) {r : RegDef} (ha : a % 4 = 0) (hr : regDef? a = some r) :
    busWrite auth a w s = if r.denied (s.reg (s.keyOf a)).toNat w.toNat = true then s.answer .denied
      else if s.emissionWrite a w = true ∧ auth = none then s.answer .auth
      else (((actDatapath r a w s).or (actSystem auth r a w s)).getD (plainWrite r (s.keyOf a) w)) s := by
  simp only [busWrite, ha, ne_eq, not_true_eq_false, if_false, hr]
  cases actDatapath r a w s <;> cases actSystem auth r a w s <;> rfl

/-- A write of a register that starts no action and passes the checks is a plain one. -/
theorem busWrite_plain (auth : Option Nat) {a : Nat} (w : Word) (s : State) {r : RegDef} (ha : a % 4 = 0) (hr : regDef? a = some r)
    (hd : r.denied (s.reg (s.keyOf a)).toNat w.toNat = false) (he : s.emissionWrite a w = false ∨ auth ≠ none)
    (hp : actDatapath r a w s = none) (hs : actSystem auth r a w s = none) :
    busWrite auth a w s = plainWrite r (s.keyOf a) w s := by
  have he' : ¬ (s.emissionWrite a w = true ∧ auth = none) := by
    rintro ⟨h1, h2⟩
    rcases he with h | h
    · simp [h] at h1
    · exact h h2
  rw [busWrite_register auth w s ha hr, if_neg (by simp [hd]), if_neg he', hp, hs]
  rfl

/-- The machine that a read at `a` sees: in the memory controller's block the tracking flags whose time has passed have ended (R455). -/
def State.readSettled (a : Nat) (s : State) : State := if 0xF0000 ≤ a ∧ a < 0x100000 then s.memSettle else s

/-- A read's answer: its value and its status. -/
def State.reply (s : State) (v : Word) (st : Status) : State := { s.answer st with value := v }

theorem State.reply_keeps (s : State) (v : Word) (st : Status) : keeps [.value, .status] s (s.reply v st) := by
  intro p hp
  cases p
  case value | status => simp at hp
  all_goals rfl

theorem State.holding_keeps (s : State) (v : Word) : keeps [.holding] s { s with holding := v } := by
  intro p hp
  cases p
  case holding => simp at hp
  all_goals rfl

theorem State.reply_reg (s : State) (v : Word) (st : Status) (k : Nat) : (s.reply v st).reg k = s.reg k := (rfl)

theorem busReadTo_misaligned {a : Nat} (s : State) (ha : a % 4 ≠ 0) : busReadTo a s = (s.readSettled a).reply 0 .align := by
  simp only [busReadTo, busRead, ha, ne_eq, not_false_eq_true, if_true]
  rfl

theorem busReadTo_unmapped {a : Nat} (s : State) (ha : a % 4 = 0) (hr : regDef? a = none) :
    busReadTo a s = (s.readSettled a).reply 0 .unmapped := by
  simp only [busReadTo, busRead, ha, ne_eq, not_true_eq_false, if_false, hr]
  rfl

theorem busReadTo_upper {a : Nat} (s : State) {r : RegDef} (ha : a % 4 = 0) (hr : regDef? a = some r) (hu : isUpper a = true) :
    busReadTo a s = (s.readSettled a).reply (s.readSettled a).holding .ok := by
  simp only [busReadTo, busRead, ha, ne_eq, not_true_eq_false, if_false, hr, hu, if_true]
  rfl

/-- The machine after a read has cleared the RC fields of register `r` at key `k` (R8). -/
def State.rcClear (s : State) (r : RegDef) (k : Nat) : State :=
  if r.mask (fun f => f.acc == .rc) = 0 then s else s.setReg k (s.reg k &&& ~~~ w32 (r.mask (fun f => f.acc == .rc)))

theorem State.rcClear_reg_same (s : State) (r : RegDef) (k : Nat) :
    (s.rcClear r k).reg k = s.reg k &&& ~~~ w32 (r.mask (fun f => f.acc == .rc)) := by
  unfold State.rcClear
  split
  case isTrue h => rw [h, show ~~~ w32 0 = BitVec.allOnes 32 from rfl, BitVec.and_allOnes]
  case isFalse h => exact s.reg_setReg_same k _

theorem State.rcClear_keeps (s : State) (r : RegDef) (k : Nat) : keeps [.regs] s (s.rcClear r k) := by
  unfold State.rcClear
  split
  · exact keeps_refl _ s
  · exact s.setReg_keeps k _

theorem State.rcClear_keepsRegs (s : State) (r : RegDef) (k : Nat) : keepsRegs [k] s (s.rcClear r k) := by
  unfold State.rcClear
  split
  · exact keepsRegs_refl _ s
  · exact s.setReg_keepsRegs k _

/-- The word that a read gives: the fields of the view but the write-only ones (R8, R9). -/
def State.seen (s : State) (r : RegDef) (a : Nat) : Word := s.view a &&& w32 (r.mask (fun f => f.acc != .wo))

/-- A read of a register of one word (R8). -/
theorem busReadTo_single {a : Nat} (s : State) {r : RegDef} (ha : a % 4 = 0) (hr : regDef? a = some r) (hu : isUpper a = false)
    (hl : upperOf a = none) :
    busReadTo a s = ((s.readSettled a).rcClear r ((s.readSettled a).keyOf a)).reply ((s.readSettled a).seen r a) .ok := by
  simp only [busReadTo, busRead, ha, ne_eq, not_true_eq_false, if_false, hr, hu, hl, Bool.false_eq_true]
  rfl

/-- A read of the lower word of a pair (R11). -/
theorem busReadTo_lower {a h : Nat} (s : State) {r : RegDef} (ha : a % 4 = 0) (hr : regDef? a = some r) (hu : isUpper a = false)
    (hl : upperOf a = some h) :
    busReadTo a s = (({ s.readSettled a with holding := (s.readSettled a).view h } : State).rcClear r ((s.readSettled a).keyOf a)).reply
      ((s.readSettled a).seen r a) .ok := by
  simp only [busReadTo, busRead, ha, ne_eq, not_true_eq_false, if_false, hr, hu, hl, Bool.false_eq_true]
  rfl

/-! ## Pairs of words (R11) -/

/-- The lower words of the pairs that read through the holding register. -/
def lowerWords : List Nat := [R.SHOT_SEQ_LO 0, R.SHOT_SEQ_LO 1, R.CMT_LSEQ_LO 0, R.CMT_LSEQ_LO 1, R.SEC_DEVID_LO]

theorem mem_lowerWords_of_upperOf {a h : Nat} (hl : upperOf a = some h) : a ∈ lowerWords ∧ h = a + 4 := by
  unfold upperOf at hl
  split at hl
  case isTrue ha => exact ⟨by simpa [lowerWords] using ha, by simpa using hl.symm⟩
  case isFalse => cases hl

/-- A lower word is a register of 32 bits that a read shows whole and leaves alone. -/
theorem lowerWords_register : ∀ a ∈ lowerWords, a % 4 = 0 ∧ isUpper a = false ∧
    (regDef? a).map (fun r => (w32 (r.mask (fun f => f.acc != .wo)), r.mask (fun f => f.acc == .rc))) =
      some (BitVec.allOnes 32, 0) := by decide +kernel

theorem lowerWords_upper : ∀ a ∈ lowerWords, (a + 4) % 4 = 0 ∧ isUpper (a + 4) = true ∧ (regDef? (a + 4)).isSome = true := by
  decide +kernel

theorem lowerWords_outside_memc : ∀ a ∈ lowerWords, ¬ (0xF0000 ≤ a ∧ a < 0x100000) ∧ ¬ (0xF0000 ≤ a + 4 ∧ a + 4 < 0x100000) := by
  decide +kernel

theorem State.readSettled_outside {a : Nat} (s : State) (h : ¬ (0xF0000 ≤ a ∧ a < 0x100000)) : s.readSettled a = s := if_neg h

/-- A read of a lower word gives it and fills the holding register with the upper word. -/
theorem busReadTo_lower_word {a h : Nat} (s : State) (hl : upperOf a = some h) :
    busReadTo a s = ({ s with holding := s.view h } : State).reply (s.view a) .ok := by
  obtain ⟨ha, -⟩ := mem_lowerWords_of_upperOf hl
  obtain ⟨hal, hu, hmask⟩ := lowerWords_register a ha
  obtain ⟨r, hr, hm⟩ := Option.map_eq_some_iff.mp hmask
  obtain ⟨hseen, hrc⟩ := Prod.mk.inj hm
  rw [busReadTo_lower s hal hr hu hl, s.readSettled_outside (lowerWords_outside_memc a ha).1, State.rcClear, if_pos hrc, State.seen,
    hseen, BitVec.and_allOnes]

/-- A read of an upper word gives the holding register. -/
theorem busReadTo_upper_word {a h : Nat} (s : State) (hl : upperOf a = some h) : busReadTo h s = s.reply s.holding .ok := by
  obtain ⟨ha, rfl⟩ := mem_lowerWords_of_upperOf hl
  obtain ⟨hal, hu, hreg⟩ := lowerWords_upper a ha
  obtain ⟨r, hr⟩ := Option.isSome_iff_exists.mp hreg
  rw [busReadTo_upper s hal hr hu, s.readSettled_outside (lowerWords_outside_memc a ha).2]

/-! ## Writes and reads field by field (R8, R9) -/

/-- A plain write of an admitted value gives every field its new value and touches no other register. -/
theorem plainWrite_admitted {r : RegDef} (hr : r.laidOut) (k : Nat) (w : Word) (s : State)
    (h : r.admits (fun f => f.host && f.acc == .rw) w.toNat = true) :
    keeps [.regs, .status] s (plainWrite r k w s) ∧ keepsRegs [k] s (plainWrite r k w s) ∧ (plainWrite r k w s).status = .ok ∧
      ∀ f ∈ r.fields, f.pick ((plainWrite r k w s).reg k).toNat = f.rewritten (s.reg k).toNat w.toNat := by
  rw [plainWrite, if_pos h]
  refine ⟨keeps_trans (keeps_mono (s.setReg_keeps k _) (by decide)) (keeps_mono (State.answer_keeps _ .ok) (by decide)),
    s.setReg_keepsRegs k _, rfl, fun f hf => ?_⟩
  rw [State.reg_answer, State.reg_setReg_same, r.pick_written hr _ _ hf]

/-- A read of a register shows all its fields but the write-only ones, and clears the RC fields. -/
theorem busReadTo_single_fields {a : Nat} (s : State) {r : RegDef} (ha : a % 4 = 0) (hr : regDef? a = some r) (hu : isUpper a = false)
    (hl : upperOf a = none) :
    let u := s.readSettled a
    let t := busReadTo a s
    keeps [.regs, .value, .status] u t ∧ keepsRegs [u.keyOf a] u t ∧ t.status = .ok ∧
      (∀ f ∈ r.fields, f.acc ≠ .wo → f.pick t.value.toNat = f.pick (u.view a).toNat) ∧
      (∀ f ∈ r.fields, f.acc = .wo → f.pick t.value.toNat = 0) ∧
      (∀ n, (∀ f ∈ r.fields, n < f.lo ∨ f.lo + f.w ≤ n) → t.value.toNat / 2 ^ n % 2 = 0) ∧
      (∀ f ∈ r.fields, f.pick (t.reg (u.keyOf a)).toNat = if f.acc = .rc then 0 else f.pick (u.reg (u.keyOf a)).toNat) := by
  intro u t
  have hlay := regDef?_laidOut hr
  have ht : t = (u.rcClear r (u.keyOf a)).reply (u.seen r a) .ok := busReadTo_single s ha hr hu hl
  have hv (f) (hf : f ∈ r.fields) : f.pick t.value.toNat = if (f.acc != .wo) = true then f.pick (u.view a).toNat else 0 := by
    rw [ht]
    exact r.pick_and_mask hlay _ _ hf
  refine ⟨?_, ?_, by rw [ht]; rfl, fun f hf hwo => ?_, fun f hf hwo => ?_, fun n hn => ?_, fun f hf => ?_⟩
  · rw [ht]
    exact keeps_trans (keeps_mono (u.rcClear_keeps r _) (by decide)) (keeps_mono (State.reply_keeps _ _ _) (by decide))
  · rw [ht]
    exact u.rcClear_keepsRegs r _
  · rw [hv f hf, if_pos (by simpa using hwo)]
  · rw [hv f hf, if_neg (by simpa using hwo)]
  · rw [ht]
    exact r.bit_and_mask hlay _ _ hn
  · rw [ht, State.reply_reg, State.rcClear_reg_same, r.pick_and_not_mask hlay _ _ hf]
    simp only [beq_iff_eq]

/-! ## The statements -/

/-- Settles O3: each refusal is one branch of the shared checks, and answers only. -/
theorem busRefusals : Obligations.BusRefusals := by
  unfold Obligations.BusRefusals
  intro a w auth s hup answers
  have hanswers (w : Word) (auth : Option (Fin 4)) (st : Status) (h : busWrite (auth.map (·.val)) a w s = s.answer st) :
      answers (.registerWrite a w auth) st :=
    ⟨_, by rw [exec_registerWrite_up a w auth hup, h], s.answer_keeps st, rfl⟩
  refine ⟨fun ha => hanswers w auth _ (busWrite_misaligned _ w s ha), fun ha hr => hanswers w auth _ (busWrite_unmapped _ w s ha hr),
    ⟨fun ha => ?_, fun ha hr => ?_⟩, fun r ha hr hd => ?_, fun r ha hr hd he => ?_, fun r ha hr hd he hp hs hadm => ?_⟩
  · exact ⟨(s.readSettled a).reply 0 .align, by rw [exec_rcRead_up a hup, busReadTo_misaligned s ha], State.reply_keeps _ _ _, rfl, rfl⟩
  · exact ⟨(s.readSettled a).reply 0 .unmapped, by rw [exec_rcRead_up a hup, busReadTo_unmapped s ha hr], State.reply_keeps _ _ _, rfl,
      rfl⟩
  · exact hanswers w auth _ (by rw [busWrite_register _ w s ha hr, if_pos hd])
  · exact hanswers w none _ (by rw [busWrite_register _ w s ha hr, if_neg (by simp [hd]), if_pos ⟨he, rfl⟩])
  · exact hanswers w auth _ (by rw [busWrite_plain _ w s ha hr hd (.inl he) hp hs, plainWrite, if_neg (by simp [hadm])])

/-- Settles O4: the write by the layout of the register's fields, the reads by the masks of their access codes and by the holding
register. -/
theorem registerAccess : Obligations.RegisterAccess := by
  unfold Obligations.RegisterAccess
  refine ⟨fun a w auth s r hup ha hr hd he hp hs hadm => ?_, fun a s hup => ⟨fun r ha hr hu hl => ?_, fun h hl => ⟨?_, ?_⟩⟩⟩
  · have he' : s.emissionWrite a w = false ∨ auth.map (·.val) ≠ none := he.imp_right (by simp)
    exact ⟨_, by rw [exec_registerWrite_up a w auth hup, busWrite_plain _ w s ha hr hd he' hp hs],
      plainWrite_admitted (regDef?_laidOut hr) (s.keyOf a) w s hadm⟩
  · exact ⟨_, exec_rcRead_up a hup, busReadTo_single_fields s ha hr hu hl⟩
  · refine ⟨_, by rw [exec_holdingRead_up a hup, busReadTo_lower_word s hl], ?_, rfl, rfl, rfl⟩
    exact keeps_trans (keeps_mono (s.holding_keeps (s.view h)) (by decide)) (keeps_mono (State.reply_keeps _ _ _) (by decide))
  · exact ⟨_, by rw [exec_holdingRead_up h hup, busReadTo_upper_word s hl], State.reply_keeps _ _ _, rfl, rfl⟩

end Sys2Proof.Machine
end

section
/-!
SUPPORT. The numbers of a lane: the flag word bit by bit, carry and overflow, saturation, the rounding of `scl`, the three pointer modes,
and the statement of the family (R279, R281–R284, R291).
-/
namespace Sys2Proof.Machine

/-! ## Bits of the flag word (R284) -/

/-- Setting a bit keeps what stands above it and below it. -/
theorem flPut_two_pow (fl i : Nat) (v : Bool) : flPut fl (2 ^ i) v = 2 ^ i * Nat.bit v (fl / 2 ^ i / 2) + fl % 2 ^ i := by
  have hsplit : fl = 2 ^ i * (2 * (fl / 2 ^ i / 2)) + 2 ^ i * (fl / 2 ^ i % 2) + fl % 2 ^ i := by
    rw [← Nat.mul_add, Nat.div_add_mod, Nat.div_add_mod]
  rw [flPut, flTest, Nat.bit_val, Nat.mul_add]
  rcases Nat.mod_two_eq_zero_or_one (fl / 2 ^ i) with h | h
  all_goals
    rw [h] at hsplit
    cases v <;> simp [h] <;> omega

theorem testBit_flPut (fl i j : Nat) (v : Bool) : (flPut fl (2 ^ i) v).testBit j = if j = i then v else fl.testBit j := by
  rw [flPut_two_pow, Nat.testBit_two_pow_mul_add _ (Nat.mod_lt _ (Nat.two_pow_pos i))]
  rcases Nat.lt_trichotomy j i with h | rfl | h
  · rw [if_pos h, if_neg h.ne, Nat.testBit_mod_two_pow]
    simp [h]
  · simp
  · obtain ⟨k, rfl⟩ := Nat.exists_eq_add_of_lt h
    rw [if_neg h.not_gt, if_neg h.ne', show i + k + 1 - i = k + 1 by omega, Nat.testBit_bit_succ, Nat.testBit_div_two,
      Nat.testBit_div_two_pow]
    congr 1
    omega

theorem flTest_two_pow (fl i : Nat) : flTest fl (2 ^ i) = fl.testBit i := Nat.testBit_eq_decide_div_mod_eq.symm

/-- The flag bits are the six low bits of FL. -/
def flagBits : List Nat := [flZ, flN, flC, flV, flSAT, flEOR]

theorem mem_flagBits {b : Nat} (h : b ∈ flagBits) : ∃ i < 6, b = 2 ^ i :=
  (by decide : ∀ b ∈ flagBits, ∃ i < 6, b = 2 ^ i) b h

theorem flTest_flPut_same {b : Nat} (fl : Nat) (v : Bool) (hb : b ∈ flagBits) : flTest (flPut fl b v) b = v := by
  obtain ⟨i, -, rfl⟩ := mem_flagBits hb
  rw [flTest_two_pow, testBit_flPut, if_pos rfl]

theorem flTest_flPut_ne {b d : Nat} (fl : Nat) (v : Bool) (hb : b ∈ flagBits) (hd : d ∈ flagBits) (hne : d ≠ b) :
    flTest (flPut fl b v) d = flTest fl d := by
  obtain ⟨i, -, rfl⟩ := mem_flagBits hb
  obtain ⟨j, -, rfl⟩ := mem_flagBits hd
  rw [flTest_two_pow, flTest_two_pow, testBit_flPut, if_neg (by rintro rfl; exact hne rfl)]

/-- Setting a flag keeps FL in its six bits. -/
theorem flPut_lt {b fl : Nat} (v : Bool) (hb : b ∈ flagBits) (hfl : fl < 64) : flPut fl b v < 64 := by
  obtain ⟨i, hi, rfl⟩ := mem_flagBits hb
  refine Nat.lt_pow_two_of_testBit (n := 6) _ (fun j hj => ?_)
  rw [testBit_flPut, if_neg (by omega)]
  exact Nat.testBit_lt_two_pow (hfl.trans_le (Nat.pow_le_pow_right (by decide : 2 > 0) hj))

/-! ## The flags of a result (R284) -/

theorem flTest_flZN_flZ (fl : Nat) (r : Word) : flTest (flZN fl r) flZ = (r == 0) := by
  simp (disch := decide) only [flZN, flTest_flPut_same, flTest_flPut_ne]

theorem flTest_flZN_flN (fl : Nat) (r : Word) : flTest (flZN fl r) flN = r.msb := by
  rw [flZN, flTest_flPut_same _ _ (by decide), BitVec.msb_eq_toInt]

theorem flTest_flZN_other {b : Nat} (fl : Nat) (r : Word) (hb : b ∈ flagBits) (hz : b ≠ flZ) (hn : b ≠ flN) :
    flTest (flZN fl r) b = flTest fl b := by
  rw [flZN, flTest_flPut_ne _ _ (by decide) hb hn, flTest_flPut_ne _ _ (by decide) hb hz]

theorem flZN_lt {fl : Nat} (r : Word) (h : fl < 64) : flZN fl r < 64 := flPut_lt _ (by decide) (flPut_lt _ (by decide) h)

/-- A clip sets SAT, and nothing clears it. -/
theorem flTest_flSat_flSAT (fl : Nat) (clip : Bool) : flTest (flSat fl clip) flSAT = (clip || flTest fl flSAT) := by
  cases clip
  · rfl
  · exact flTest_flPut_same fl true (by decide)

theorem flTest_flSat_other {b : Nat} (fl : Nat) (clip : Bool) (hb : b ∈ flagBits) (hs : b ≠ flSAT) :
    flTest (flSat fl clip) b = flTest fl b := by
  cases clip
  · rfl
  · exact flTest_flPut_ne fl true (by decide) hb hs

theorem flSat_lt {fl : Nat} (clip : Bool) (h : fl < 64) : flSat fl clip < 64 := by
  cases clip
  · exact h
  · exact flPut_lt true (by decide) h

theorem stickySat_eq_flSat (fl : Nat) (clip : Bool) : stickySat fl clip = flSat fl clip := (rfl)

/-! ## Carry and overflow (R284) -/

theorem addCarry_eq_ult (a b : Word) : addCarry a b = (a + b).ult a := by
  unfold addCarry BitVec.ult
  rw [BitVec.toNat_add]
  exact decide_eq_decide.mpr (by omega)

theorem subCarry_eq_not_ult (a b : Word) : subCarry a b = !a.ult b := by
  simp [subCarry, BitVec.ult, ← decide_not]

/-- A sum is not that of the operands exactly when it leaves the signed range. -/
theorem addOver_eq_saddOverflow (a b : Word) : addOver a b = a.saddOverflow b := by
  rw [addOver, Bool.eq_iff_iff, decide_eq_true_iff]
  refine ⟨fun h => ?_, fun h he => ?_⟩
  · by_contra hn
    exact h (BitVec.toInt_add_of_not_saddOverflow hn)
  · have hlo := (a + b).le_toInt
    have hhi := (a + b).toInt_lt
    rw [he] at hlo hhi
    simp only [BitVec.saddOverflow, Bool.or_eq_true, decide_eq_true_iff] at h
    omega

theorem subOver_eq_ssubOverflow (a b : Word) : subOver a b = a.ssubOverflow b := by
  rw [subOver, Bool.eq_iff_iff, decide_eq_true_iff]
  refine ⟨fun h => ?_, fun h he => ?_⟩
  · by_contra hn
    exact h (BitVec.toInt_sub_of_not_ssubOverflow hn)
  · have hlo := (a - b).le_toInt
    have hhi := (a - b).toInt_lt
    rw [he] at hlo hhi
    simp only [BitVec.ssubOverflow, Bool.or_eq_true, decide_eq_true_iff] at h
    omega

theorem addOver_eq_msb (a b : Word) : addOver a b = (a.msb == b.msb && (a + b).msb != a.msb) :=
  (addOver_eq_saddOverflow a b).trans (BitVec.saddOverflow_eq a b)

theorem subOver_eq_msb (a b : Word) : subOver a b = (a.msb != b.msb && (a - b).msb != a.msb) := by
  rw [subOver_eq_ssubOverflow, BitVec.ssubOverflow_eq]
  cases a.msb <;> cases b.msb <;> simp

/-! ## Saturation and scaling (R279, R291) -/

theorem sat32_toInt (v : Int) :
    (sat32 v).toInt = if v < -(2 ^ 31) then -(2 ^ 31) else if 2 ^ 31 - 1 < v then 2 ^ 31 - 1 else v := by
  have hr : -(2 ^ 31) ≤ satI 32 v ∧ satI 32 v < 2 ^ 31 := by
    unfold satI clampI
    split
    · omega
    · split <;> omega
  exact BitVec.toInt_ofInt_eq_self (w := 32) (by decide) hr.1 hr.2

/-- The rounded quotient's multiple of the divisor lies within half the divisor of the dividend, at that distance only away from 0. -/
theorem rndDiv_mul_bounds (n : Int) {d : Int} (hd : 0 < d) :
    0 ≤ n ∧ 2 * n - d < 2 * (rndDiv n d * d) ∧ 2 * (rndDiv n d * d) ≤ 2 * n + d ∨
      n < 0 ∧ 2 * n - d ≤ 2 * (rndDiv n d * d) ∧ 2 * (rndDiv n d * d) < 2 * n + d := by
  have hround (a : Int) : a - 2 * d < 2 * (a / (2 * d) * d) ∧ 2 * (a / (2 * d) * d) ≤ a := by
    have he : 2 * (a / (2 * d) * d) = a - a % (2 * d) := by
      have := Int.ediv_mul_add_emod a (2 * d)
      linarith
    have h0 := Int.emod_nonneg a (show 2 * d ≠ 0 by omega)
    have h1 := Int.emod_lt_of_pos a (show 0 < 2 * d by omega)
    omega
  unfold rndDiv
  split
  case isTrue hn =>
    have := hround (2 * n + d)
    exact .inl ⟨hn, by omega, by omega⟩
  case isFalse hn =>
    have := hround (-2 * n + d)
    rw [Int.neg_mul]
    exact .inr ⟨by omega, by omega, by omega⟩

theorem scl_natCast (v : Int) (k : Nat) : scl v k = v * 2 ^ k := by simp [scl]

theorem scl_neg (v : Int) {k : Nat} (hk : k ≠ 0) : scl v (-(k : Int)) = rndDiv v (2 ^ k) := by
  rw [scl, if_neg (by omega), Int.neg_neg, Int.toNat_natCast]

/-- A right shift is within half a unit of the exact quotient. -/
theorem scl_near (v : Int) (k : Nat) : 2 * (scl v (-(k : Int)) * 2 ^ k - v).natAbs ≤ 2 ^ k := by
  by_cases hk : k = 0
  · subst hk
    simp [scl]
  · have h := rndDiv_mul_bounds v (d := 2 ^ k) (by positivity)
    have hcast : ((2 ^ k : Nat) : Int) = 2 ^ k := Nat.cast_pow 2 k
    rw [scl_neg v hk]
    omega

/-- A tie of a right shift goes away from zero. -/
theorem scl_tie (v : Int) {k : Nat} (hk : k ≠ 0) (ht : 2 * (scl v (-(k : Int)) * 2 ^ k - v).natAbs = 2 ^ k) :
    v.natAbs < (scl v (-(k : Int)) * 2 ^ k).natAbs := by
  have hd : (0 : Int) < 2 ^ k := by positivity
  have h := rndDiv_mul_bounds v hd
  have hcast : ((2 ^ k : Nat) : Int) = 2 ^ k := Nat.cast_pow 2 k
  rw [scl_neg v hk] at ht ⊢
  omega

/-! ## Pointers (R281, R282, R283) -/

theorem rev13_eq_ofBits (v : Nat) : rev13 v = Nat.ofBits (fun i : Fin 13 => v.testBit (12 - i)) := by
  simp only [rev13, List.range, List.range.loop, List.foldl_cons, pow_zero, Nat.div_one, tsub_zero, Nat.reducePow, zero_add, pow_one,
    Nat.add_one_sub_one, Nat.reduceSub, tsub_self, mul_one, List.foldl_nil, Nat.ofBits, Nat.toNat_testBit, Fin.foldr_succ, Fin.val_succ,
    Nat.reduceSubDiff, Fin.val_eq_zero, Fin.foldr_zero, mul_zero, Fin.isValue, Fin.coe_ofNat_eq_mod, Nat.zero_mod,
    Nat.add_right_cancel_iff]
  ring

theorem rev13_lt (v : Nat) : rev13 v < 8192 := by
  rw [rev13_eq_ofBits]
  exact Nat.ofBits_lt_two_pow _

theorem testBit_rev13 (v : Nat) {i : Nat} (h : i < 13) : (rev13 v).testBit i = v.testBit (12 - i) := by
  rw [rev13_eq_ofBits, Nat.testBit_ofBits_lt _ i h]

/-- Reversing thirteen bits twice gives them back. -/
theorem rev13_rev13 {v : Nat} (h : v < 8192) : rev13 (rev13 v) = v := by
  refine Nat.eq_of_testBit_eq (fun i => ?_)
  by_cases hi : i < 13
  · rw [testBit_rev13 _ hi, testBit_rev13 _ (by omega), show 12 - (12 - i) = i by omega]
  · have hpow : 2 ^ 13 ≤ 2 ^ i := Nat.pow_le_pow_right (by decide) (by omega)
    rw [Nat.testBit_lt_two_pow ((rev13_lt _).trans_le hpow), Nat.testBit_lt_two_pow (h.trans_le hpow)]

theorem mdLen_pos (md : Nat) : 0 < mdLen md := by
  unfold mdLen
  split <;> omega

/-- A circular pointer's value: `p` moved by `m` words in the region of a modulus register. -/
def circPtr (md : Nat) (p m : Int) : Nat := (((mdBase md : Int) + (p + m - mdBase md) % (mdLen md : Int)) % 8192).toNat

theorem newPtr_linear {c : LaneCore} {p : Nat} (m : Int) (viaOf : Bool) (h : c.ptcfg / 4 ^ p % 4 = 0) :
    c.newPtr p m viaOf = (((c.ptr p : Int) + m) % 8192).toNat := by
  simp only [LaneCore.newPtr, h]

theorem newPtr_circular {c : LaneCore} {p i : Nat} (m : Int) (viaOf : Bool) (hi : i < 2) (h : c.ptcfg / 4 ^ p % 4 = i + 1) :
    c.newPtr p m viaOf = circPtr (c.md.getD i 0) (c.ptr p) m := by
  obtain rfl | rfl : i = 0 ∨ i = 1 := by omega
  all_goals simp only [LaneCore.newPtr, h, circPtr]

theorem newPtr_reversed {c : LaneCore} {p : Nat} (m : Int) (h : c.ptcfg / 4 ^ p % 4 = 3) :
    c.newPtr p m true = rev13 ((rev13 (c.ptr p) + rev13 (unsgn 13 m)) % 8192) := by
  simp only [LaneCore.newPtr, h, if_true]

theorem newPtr_reversed_step {c : LaneCore} {p : Nat} (m : Int) (h : c.ptcfg / 4 ^ p % 4 = 3) :
    c.newPtr p m false = (((c.ptr p : Int) + m) % 8192).toNat := by
  simp only [LaneCore.newPtr, h, Bool.false_eq_true, if_false]

theorem toNat_emod_8192 (v : Int) : ((v % 8192).toNat : Int) = v % 8192 := Int.toNat_of_nonneg (by omega)

/-- A circular pointer stands at a distance `d` from BASE that is in the region and congruent to the distance moved to. -/
theorem circPtr_spec (md : Nat) (p m : Int) :
    ∃ d : Nat, d < mdLen md ∧ (circPtr md p m : Int) = (mdBase md + d) % 8192 ∧ ((d : Int) - (p + m - mdBase md)) % mdLen md = 0 := by
  have hpos : (0 : Int) < mdLen md := by exact_mod_cast mdLen_pos md
  obtain ⟨d, hd⟩ := Int.eq_ofNat_of_zero_le (Int.emod_nonneg (p + m - mdBase md) hpos.ne')
  have hlt := Int.emod_lt_of_pos (p + m - mdBase md) hpos
  refine ⟨d, by omega, ?_, ?_⟩
  · rw [circPtr, toNat_emod_8192, hd]
  · rw [← hd]
    simp [Int.sub_emod]

theorem newPtr_lt (c : LaneCore) (p : Nat) (m : Int) (viaOf : Bool) : c.newPtr p m viaOf < 8192 := by
  unfold LaneCore.newPtr
  extract_lets q circ
  have hcirc (md : Nat) : circ md < 8192 := by simp only [circ]; omega
  split
  · omega
  · exact hcirc _
  · exact hcirc _
  · split
    · exact rev13_lt _
    · omega

/-! ## The statement -/

/-- Settles O37: the flag word bit by bit, rounding from the quotient's bounds, and a pointer's value mode by mode. -/
theorem laneNumbers : Obligations.LaneNumbers := by
  unfold Obligations.LaneNumbers
  refine ⟨fun fl a b r c v clip => ⟨?_, ?_, ?_, ?_, addCarry_eq_ult a b, addOver_eq_msb a b, subCarry_eq_not_ult a b,
    subOver_eq_msb a b, ?_⟩, fun v k => ?_, fun c p m _ _ => ?_⟩
  · simp (disch := decide) only [flZNCV, flTest_flPut_same, flTest_flPut_ne, flTest_flZN_flZ, flTest_flZN_flN, flTest_flZN_other,
      and_self]
  · simp (disch := decide) only [flTest_flZN_flZ, flTest_flZN_flN, flTest_flZN_other, and_self]
  · simp (disch := decide) only [flSat32, flTest_flSat_flSAT, flTest_flSat_other, flTest_flPut_same, flTest_flPut_ne,
      flTest_flZN_flZ, flTest_flZN_flN, flTest_flZN_other, and_self]
  · rw [stickySat_eq_flSat, flTest_flSat_flSAT]
  · intro h
    exact ⟨flPut_lt _ (by decide) (flPut_lt _ (by decide) (flZN_lt r h)), flZN_lt r h,
      flSat_lt clip (flPut_lt _ (by decide) (flZN_lt r h)), flSat_lt clip h⟩
  · exact ⟨rfl, sat32_toInt v, scl_natCast v k, scl_near v k, fun ht hk => scl_tie v hk ht⟩
  · intro mode circular
    refine ⟨fun h => ?_, fun h => ?_, fun h => ?_, fun h => ⟨?_, ?_⟩, fun u hu => ⟨rev13_lt u, rev13_rev13 hu⟩, newPtr_lt c p m true⟩
    · rw [newPtr_linear m true h, toNat_emod_8192]
    · simp only [circular, newPtr_circular (i := 0) m true (by decide) h]
      exact circPtr_spec _ _ _
    · simp only [circular, newPtr_circular (i := 1) m true (by decide) h]
      exact circPtr_spec _ _ _
    · rw [newPtr_reversed m h, rev13_rev13 (Nat.mod_lt _ (by decide))]
      rfl
    · rw [newPtr_reversed_step m h, toNat_emod_8192]

end Sys2Proof.Machine
end

section
/-!
SUPPORT. Branches, calls, returns and loops of a lane: the loops that a taken branch leaves, the trap that stops a logical lane, what
the instructions that set the PC come to, and the statement of the family (R284, R290–R292, R294, R297).
-/
namespace Sys2Proof.Machine

/-! ## Loops left by a taken branch (R292) -/

/-- An address lies in the body of a loop, which includes its first and its last. -/
def Loop.holds (l : Loop) (tgt : Nat) : Prop := l.first ≤ tgt ∧ tgt ≤ l.last

theorem leaveLoops_cons (tgt : Nat) (l : Loop) (q : List Loop) :
    leaveLoops tgt (l :: q) = if (leaveLoops tgt q).length < q.length then leaveLoops tgt q
      else if tgt < l.first ∨ l.last < tgt then leaveLoops tgt q else l :: leaveLoops tgt q := (rfl)

/-- The loops that go on are the outermost ones around the target: the innermost loop that ends does not hold the target, nor, then,
does any loop inside it go on. -/
theorem leaveLoops_spec (tgt : Nat) (ls : List Loop) :
    ∃ out, ls = out ++ leaveLoops tgt ls ∧ (∀ l ∈ leaveLoops tgt ls, l.holds tgt) ∧ ∀ l, out.getLast? = some l → ¬ l.holds tgt := by
  induction ls with
  | nil => exact ⟨[], rfl, by simp [leaveLoops], by simp⟩
  | cons l q ih =>
    obtain ⟨out, hq, hkept, hout⟩ := ih
    have hlen : q.length = out.length + (leaveLoops tgt q).length := by rw [← List.length_append, ← hq]
    rw [leaveLoops_cons]
    split
    case isTrue hshort =>
      -- an outer loop ends, and `l` with it
      obtain ⟨x, out', rfl⟩ := List.exists_cons_of_ne_nil (l := out) (by rintro rfl; simp at hlen; omega)
      exact ⟨l :: x :: out', congrArg (l :: ·) hq, hkept, hout⟩
    case isFalse hlong =>
      -- every outer loop goes on, and the target decides on `l`
      obtain rfl : out = [] := List.length_eq_zero_iff.mp (by omega)
      rw [List.nil_append] at hq
      split
      case isTrue hout => exact ⟨[l], congrArg (l :: ·) hq, hkept, by simp [Loop.holds]; omega⟩
      case isFalse hin =>
        refine ⟨[], congrArg (l :: ·) hq, List.forall_mem_cons.mpr ⟨⟨by omega, by omega⟩, hkept⟩, by simp⟩

/-! ## Events in the history (R572) -/

/-- The event history with a new record at its end; the newest 256 are held. -/
def pushRecent (l : List Record) (r : Record) : List Record := (if l.length < 256 then l else l.drop 1) ++ [r]

theorem mem_pushRecent_self (l : List Record) (r : Record) : r ∈ pushRecent l r := by simp [pushRecent]

/-- The newest record outlasts one more. -/
theorem mem_pushRecent_pushRecent (l : List Record) (r q : Record) : r ∈ pushRecent (pushRecent l r) q := by
  by_cases hl : l.length < 255
  · have hp : (pushRecent l r).length < 256 := by simp [pushRecent, show l.length < 256 by omega]; omega
    rw [pushRecent, if_pos hp]
    exact List.mem_append_left _ (mem_pushRecent_self l r)
  · obtain ⟨a, m, hm⟩ : ∃ a m, (if l.length < 256 then l else l.drop 1) = a :: m :=
      List.exists_cons_of_length_pos (by split <;> grind)
    have hp : pushRecent l r = a :: (m ++ [r]) := congrArg (· ++ [r]) hm
    rw [hp, pushRecent]
    split <;> simp

/-- The count of events says nothing of the history. -/
theorem Health.recent_nextSeq (h : Health) (k : Nat) : ({ h with nextSeq := k } : Health).recent = h.recent := (rfl)

theorem State.eventRaw_recent (s : State) (code : Nat) (sev : Severity) (u : Nat) (x : Option Fibre) (a b c d : Nat) :
    (s.eventRaw code sev u x a b c d).1.health.recent = pushRecent s.health.recent (eventRecord s code sev u x a b c d) := by
  unfold State.eventRaw
  extract_lets r s1 s2 s3 s4
  have h1 : s1.health = s.health :=
    keeps_trans (s.wr_keeps F.HLTH_EVSEQ.SEQ s.health.nextSeq) (State.bump_keeps _ F.HLTH_EVCNT.COUNT) .health (by decide)
  have h3 : s3.health = s2.health := by
    unfold s3
    split
    · exact keeps_trans (keeps_mono (s2.wr_keeps _ _) (by decide)) (State.queueLog_keeps _ r) .health (by decide)
    · rfl
  have h4 : s4.health.recent = pushRecent s.health.recent r := by
    have h2 : s2.health.recent = s1.health.recent := Health.recent_nextSeq s1.health ((s1.health.nextSeq + 1) % 2 ^ 32)
    rw [← h1, ← h2, ← h3]
    rfl
  have h5 : (s4.bobWrite 127 r .queued noTags none).1.health = s4.health :=
    s4.bobWrite_keeps_own 127 (by decide) r .queued noTags none .health (by decide)
  rcases hw : s4.bobWrite 127 r .queued noTags none with ⟨s5, o⟩
  rw [hw] at h5
  have h6 : (s5.advanceReader 127 .supervisor (s5.bob 127).next).health = s5.health :=
    State.advanceReader_keeps _ _ _ _ .health (by decide)
  exact (congrArg Health.recent (h6.trans h5)).trans h4

theorem State.event_raised (s : State) (code : Nat) (sev : Severity) (u : Nat) (x : Option Fibre) (a b c d : Nat) :
    raised s (s.event code sev u x a b c d) code sev u x a b c d := by
  unfold raised State.event
  have h := s.eventRaw_recent code sev u x a b c d
  rcases hr : s.eventRaw code sev u x a b c d with ⟨s1, o⟩
  rw [hr] at h
  dsimp only at h ⊢
  split
  · rw [s1.eventRaw_recent, h]
    exact mem_pushRecent_pushRecent _ _ _
  · rw [h]
    exact mem_pushRecent_self _ _

/-! ## Traps (R297) -/

/-- A trap at the PC stops the logical lane: its core takes the trap, and the event leaves the lanes alone. -/
theorem laneTrap_laneTrapped (n kind : Nat) (s : State) : laneTrapped n kind s (laneTrap (s.laneLL n) n kind (s.laneCore n).pc s) := by
  have hset := s.setLogical_keeps (s.laneLL n) { s.laneOf n with core := { s.laneCore n with trap := kind }, wait := false }
  have hsame := s.logical_setLogical_same (s.laneLL n) { s.laneOf n with core := { s.laneCore n with trap := kind }, wait := false }
  obtain ⟨u, hu⟩ : ∃ u, u = s.setLogical (s.laneLL n) { s.laneOf n with core := { s.laneCore n with trap := kind }, wait := false } :=
    ⟨_, rfl⟩
  have ht : laneTrap (s.laneLL n) n kind (s.laneCore n).pc s = u.event 0x0802 .fault (laneUnit n) none 0 (s.laneCore n).pc 0 0 := by
    rw [hu]
    rfl
  have hkeep := u.event_keeps 0x0802 .fault (laneUnit n) none 0 (s.laneCore n).pc 0 0
  have hregs := u.event_keepsRegs 0x0802 .fault (laneUnit n) none 0 (s.laneCore n).pc 0 0
  have hraised := u.event_raised 0x0802 .fault (laneUnit n) none 0 (s.laneCore n).pc 0 0
  rw [ht]
  rw [← hu] at hset hsame
  generalize u.event 0x0802 .fault (laneUnit n) none 0 (s.laneCore n).pc 0 0 = t at *
  have hlanes : t.lanes = u.lanes := hkeep .lanes (by decide)
  have hlog (ll : Nat) : t.logical ll = u.logical ll := by rw [State.logical, hlanes, State.logical]
  refine ⟨keeps_trans (keeps_mono hset (by decide)) (keeps_mono hkeep (by decide)),
    keepsRegs_trans (hset.regs (by decide) _) hregs, ?_, fun ll hne => ?_, (hlog _).trans hsame, ?_⟩
  · rw [hlanes, hu]
    rfl
  · rw [hlog, hu, s.logical_setLogical_ne _ hne]
  · rw [hu] at hraised
    exact hraised

/-! ## Instructions that set the PC (R291) -/

theorem execBr_ready {n : Fin 33} {f : FmtB} {s : State} (h : laneReady n (encB 0x2A f) s = true) :
    exec (.br n f) s = .next (if condHolds f.cond (s.laneCore n).fl = true then
        jumpTo (s.laneLL n) n f.tgt { use1 [] [] [] [] with cyc := 2 } (s.laneOf n)
          { s.laneCore n with loops := leaveLoops f.tgt (s.laneCore n).loops } s
      else fallThrough (s.laneLL n) n (use1 [] [] [] []) (s.laneOf n) (s.laneCore n) s) := by
  rw [exec_br, execBr, issueWith_next _ _ _ _ h]
  rfl

theorem execCall_ready {n : Fin 33} {f : FmtB} {s : State} (h : laneReady n (encB 0x2B f) s = true) :
    exec (.call n f) s = .next (if 4 ≤ (s.laneCore n).stack.length then laneTrap (s.laneLL n) n trapStack (s.laneCore n).pc s
      else jumpTo (s.laneLL n) n f.tgt { use1 [] [] [] [] with cyc := 2 } (s.laneOf n)
        { s.laneCore n with stack := ((s.laneCore n).pc + 1) :: (s.laneCore n).stack } s) := by
  rw [exec_call, execCall, issueWith_next _ _ _ _ h]
  rfl

theorem execRet_ready_nil {n : Fin 33} {f : FmtB} {s : State} (h : laneReady n (encB 0x2C f) s = true)
    (hs : (s.laneCore n).stack = []) : exec (.ret n f) s = .next (laneTrap (s.laneLL n) n trapStack (s.laneCore n).pc s) := by
  rw [State.laneCore] at hs
  rw [exec_ret, execRet, issueWith_next _ _ _ _ h, hs]
  rfl

theorem execRet_ready_cons {n : Fin 33} {f : FmtB} {s : State} {r : Nat} {q : List Nat} (h : laneReady n (encB 0x2C f) s = true)
    (hs : (s.laneCore n).stack = r :: q) :
    exec (.ret n f) s = .next (jumpTo (s.laneLL n) n r { use1 [] [] [] [] with cyc := 2 } (s.laneOf n)
      { s.laneCore n with stack := q } s) := by
  rw [State.laneCore] at hs
  rw [exec_ret, execRet, issueWith_next _ _ _ _ h, hs]
  rfl

theorem execLoop_ready {n : Fin 33} {f : FmtLP} {s : State} (h : laneReady n (encLP 0x2D f) s = true) :
    exec (.loop n f) s = .next (if loopCount f (s.laneCore n) = 0 then
        jumpTo (s.laneLL n) n (f.last + 1) (use1 (if f.cs = 0 then [] else [f.da]) [] [] []) (s.laneOf n) (s.laneCore n) s
      else if 2 ≤ (s.laneCore n).loops.length then laneTrap (s.laneLL n) n trapNest (s.laneCore n).pc s
      else jumpTo (s.laneLL n) n ((s.laneCore n).pc + 1) (use1 (if f.cs = 0 then [] else [f.da]) [] [] []) (s.laneOf n)
        { s.laneCore n with
          loops := ⟨(s.laneCore n).pc + 1, f.last, loopCount f (s.laneCore n)⟩ :: (s.laneCore n).loops } s) := by
  rw [exec_loop, execLoop, issueWith_next _ _ _ _ h]
  rfl

/-- The count that a LOOP names, before its limits: an immediate of 0 means 8,192. -/
def loopAsked (f : FmtLP) (c : LaneCore) : Int := if f.cs = 0 then (if f.cnt = 0 then 8192 else f.cnt) else (c.dreg f.da).toInt

/-- The iterations of a LOOP are its count, from 0 to 2^24. -/
theorem loopCount_eq {f : FmtLP} (hf : f.wf = true) (c : LaneCore) : (loopCount f c : Int) = min (max (loopAsked f c) 0) (2 ^ 24) := by
  have hcnt : f.cnt < 8192 := by simp [FmtLP.wf, fits] at hf; omega
  unfold loopCount loopAsked
  split
  · split <;> omega
  · omega

/-! ## The statement -/

/-- Settles O38: each instruction ends in a jump, a fall through or a trap, and a taken branch keeps the loops of `leaveLoops`. -/
theorem laneControl : Obligations.LaneControl := by
  unfold Obligations.LaneControl
  intro n s c last
  have htrap (kind : Nat) : laneTrapped n kind s (laneTrap (s.laneLL n) n kind c.pc s) := laneTrap_laneTrapped n kind s
  refine ⟨fun f h => ⟨fun hc ht => ?_, fun hc hg => ?_⟩, fun f h => ⟨fun hd ht => ?_, fun hd => ?_⟩,
    fun f h => ⟨fun r q hs hr => ?_, fun hs => ?_⟩, fun f hf h => ?_⟩
  · obtain ⟨out, hloops, hkept, hout⟩ := leaveLoops_spec f.tgt c.loops
    exact ⟨_, out, leaveLoops f.tgt c.loops, by rw [execBr_ready h, if_pos hc], jumpTo_laneOnly n _ _ _ s ht, hloops, hkept, hout⟩
  · exact ⟨_, by rw [execBr_ready h, if_neg (by simp [c, hc])], fallThrough_laneOnly n _ c s hg⟩
  · exact ⟨_, by rw [execCall_ready h, if_neg (Nat.not_le.mpr hd)], jumpTo_laneOnly n _ _ _ s ht⟩
  · exact ⟨_, (execCall_ready h).trans (congrArg _ (if_pos hd)), htrap 1⟩
  · exact ⟨_, execRet_ready_cons h hs, jumpTo_laneOnly n _ _ _ s hr⟩
  · exact ⟨_, execRet_ready_nil h hs, htrap 1⟩
  · intro count
    have hk : (loopCount f c : Int) = min (max count 0) (2 ^ 24) := loopCount_eq hf c
    refine ⟨fun hcount ht => ?_, fun hcount hd ht => ?_, fun hcount hd => ?_⟩
    · have hk0 : loopCount f c = 0 := by omega
      exact ⟨_, by rw [execLoop_ready h, if_pos hk0], jumpTo_laneOnly n _ _ c s ht⟩
    · have hk0 : loopCount f c ≠ 0 := by omega
      exact ⟨_, loopCount f c, by rw [execLoop_ready h, if_neg hk0, if_neg (Nat.not_le.mpr hd)], by omega,
        jumpTo_laneOnly n _ _ _ s ht⟩
    · have hk0 : loopCount f c ≠ 0 := by omega
      exact ⟨_, (execLoop_ready h).trans (congrArg _ ((if_neg hk0).trans (if_pos hd))), htrap 2⟩

end Sys2Proof.Machine
end
